-- ==== Sys2Proof/Word.lean ====
section
/-! DEFINITION. The word types of the KZ-880 and the type of a sparse map. Multi-byte fields are little-endian (R9). -/
namespace Sys2Proof

/-- A byte. -/
abbrev Byte := BitVec 8
/-- A 32-bit register word. -/
abbrev Word := BitVec 32
/-- A 64-bit word: the timebase, frame numbers, addresses, accumulators. -/
abbrev Dword := BitVec 64

/-- A sparse map: keys strictly rising. A map of bytes or words lists no entry equal to what an unlisted key reads as. -/
abbrev SMap (α : Type) := List (Nat × α)

end Sys2Proof
end

