-- ==== Sys2Proof/Types.lean ====
section
/-! DEFINITION. The types the commands and the state share: register fields, requesters, packets, trigger entries,
descriptors and the items that leave the block. -/
namespace Sys2Proof

/-- A field of a page: offset of its word, highest and lowest bit. -/
structure Fld where
  off : Nat
  hi : Nat
  lo : Nat
deriving DecidableEq, Repr

/-- The access codes of Table 0.6, with the counters of R443 and the accumulators of R422 told apart. `special`: the
field's write has a row of its own or a rule of its own. -/
inductive Acc where
  | ro | rw | rwl | w1c | wo
  | counter (bit : Nat)
  | accum (bit : Nat)
  | special
deriving DecidableEq, Repr

/-- The encodings of a field that are not reserved (R7). -/
inductive Enc where
  | any
  | range (lo hi : Nat)
  | step (lo hi by_ : Nat)
  | oneOf (vs : List Nat)
  | upToPkg
deriving DecidableEq, Repr

/-- Whether a word is a register, or the low or high word of a 64-bit register (R609). -/
inductive Part where
  | single | low | high
deriving DecidableEq, Repr

/-- A field of a page layout: `count` words from `off`, bits `hi..lo`. -/
structure FieldDesc where
  off : Nat
  count : Nat
  hi : Nat
  lo : Nat
  acc : Acc
  rst : Nat
  enc : Enc
  part : Part
deriving DecidableEq, Repr

/-- The kinds of BAR0 page of Table 20.2. -/
inductive PageKind where
  | top | frame | sched | policy | power | energy | therm | wdt | trace | ras | repair | nv | rind | cal | audit
  | host | msix | mem | press | tyz | eth | cluster | stream | cell | tenant
deriving DecidableEq, Repr

/-- The requesters of Table 18.1: the four session interfaces, PF1 or a VF, and firmware. -/
inductive Iface where
  | pf0 | uart | mgmt | jtag | fn | fw
deriving DecidableEq, Repr

/-- Who makes a register access and the timebase instant at which it completes on the register bus. -/
structure Req where
  iface : Iface
  at_ : Dword
deriving DecidableEq, Repr

/-- Syndrome classes of Table 4.6. -/
inductive EccClass where
  | clean | ce | ue | poison
deriving DecidableEq, Repr

/-- A soft error that has struck a granule: its class and, for an uncorrectable one, the bits it flipped. -/
structure Upset where
  granule : Nat
  cls : EccClass
  flips : Nat
deriving DecidableEq, Repr

/-- What strikes a packet on a link: header bits that change, and the soft errors of its payload. -/
structure LinkUpset where
  flip : Nat
  hits : List Upset
deriving DecidableEq, Repr

/-- The data of a host's TLP, and whether it comes poisoned. -/
structure TlpData where
  bytes : List Byte
  poison : Bool
deriving DecidableEq, Repr

/-- The end of a drain: its instant, and the bank elements whose parity fails as they are saved: position, and bank · 1024 + element. -/
structure DrainEnd where
  at_ : Dword
  bad : List (Nat × Nat)
deriving DecidableEq, Repr

/-- A host's answer for a line of unit `unit`, with the line where it answers a RdCurr (R317). -/
structure HostAnswer where
  unit : Nat
  data : List Byte
deriving DecidableEq, Repr

/-- A remote access on its way to its target, or the response on its way back (R108, R109, R116): physical positions of issuer and
target, the issuing context, REGION, the scratchpad address and its OFFSET, the size. -/
structure Remote where
  src : Nat
  srcCtx : Nat
  dst : Nat
  region : Nat
  write : Bool
  response : Bool
  err : Bool
  addr : Nat
  off : Nat
  size : Nat
deriving DecidableEq, Repr

/-- What a packet carries beside its payload, in fields that the spec does not lay out (log entry 86): a stream's data or credits, or a
reduction operand; a token for TI `ti` of context `ctx`; a remote access. -/
inductive PktBody where
  | data
  | token (ctx ti : Nat)
  | access (r : Remote)
deriving DecidableEq, Repr

/-- A mesh packet: the 128-bit header of Table 3.3, its payload, the payload granules carrying the poison syndrome, and those that carry
a correctable error (R69). -/
structure MeshPacket where
  hdr : Nat
  payload : List Byte
  poison : List Nat
  ce : List Nat
  body : PktBody
deriving DecidableEq, Repr

/-- A packet of a stream or a reduction, without errors. -/
def MeshPacket.data (hdr : Nat) (payload : List Byte) (poison : List Nat) : MeshPacket := ⟨hdr, payload, poison, [], .data⟩

/-- The operation fields of a trigger entry (Table 7.3, bytes 8 to 30). -/
structure OpFields where
  opcode : Nat
  fmt : Nat
  dst : Nat
  srcA : Nat
  srcB : Nat
  srcC : Nat
  mask : Nat
  flags : Nat
  subop : Nat
  n : Nat
  addr : Nat
  addr2 : Nat
  ag : Nat
  c30 : Nat
deriving DecidableEq, Repr

/-- A trigger entry (Table 7.3): guard, actions, operation. -/
structure Trigger where
  tiMask : Nat
  tvEn : Bool
  tvSel : Nat
  tvVal : Nat
  cntSel : Nat
  cntCond : Nat
  consume : Nat
  stepSel : Nat
  stepEn : Bool
  ldlim : Bool
  emitEn : Bool
  emitPort : Nat
  emitSrc : Nat
  emitVal : Nat
  fin : Bool
  op : OpFields
deriving DecidableEq, Repr

/-- Faults that strike while an engine performs an operation: soft errors in scratchpad granules (absolute granule numbers of
the slice), element slots whose parity fails when read (tile register · 256 + slot, or bank · 1024 + element), and errors
(row, column, difference) in the array's column increments (R119, R156, R161, R167). -/
structure EngineUpset where
  hits : List Upset
  bad : List Nat
  wrong : List (Nat × Nat × Int)
deriving DecidableEq, Repr

/-- The payload of an ALIGN flit (R364). -/
structure AlignFlit where
  root : Nat
  depth : Nat
  tTx : Dword
  echoTx : Dword
  echoRx : Dword
  epoch : Dword
  period : Nat
  guard : Nat
  periodAt : Dword
  pendPeriod : Nat
  pendGuard : Nat
deriving DecidableEq, Repr

/-- What leaves the block. -/
inductive Emit where
  /-- the value of a register read, to its requester -/
  | regData (rq : Req) (v : Word)
  /-- an MSI-X message: function (0 PF0, 1 PF1, 1 + v VF v), vector, address, data -/
  | msix (fn vec : Nat) (addr : Dword) (data : Word)
  /-- a write to host memory -/
  | hostWrite (addr : Nat) (bytes : List Byte)
  /-- a read of host memory asked for: address, length, what it is for -/
  | hostRead (addr len tag : Nat)
  /-- a completion to the host: data, and whether it is poisoned (R133) -/
  | completion (data : List Byte) (poison : Bool)
  /-- Unsupported Request -/
  | unsupported
  /-- a CXL response: kind, data, poison (R308, R316) -/
  | cxl (kind addr : Nat) (data : List Byte) (poison : Bool)
  /-- a Tyzil flit out of a port -/
  | tyzil (port : Nat) (bytes : List Byte)
  /-- an ALIGN flit out of a port -/
  | tyzAlign (port : Nat) (f : AlignFlit)
  /-- a LANEMAP flit out of a port -/
  | tyzLaneMap (port map : Nat)
  /-- a UDP datagram out of E0 or E1 to the peer of a domain: source port, destination port, payload -/
  | eth (port dom sport dport : Nat) (bytes : List Byte)
  /-- an output pin driven: number of the pin, level, instant -/
  | pin (id : Nat) (level : Nat) (at_ : Dword)
  /-- characters on the UART, a management reply, JTAG data out -/
  | uart (v : Word)
  | mgmt (kind : Nat) (v : Nat)
  | jtag (v : Nat)
  /-- pins as EXTEST (1) or CLAMP (2) drives them from the scan register; 3: HIGHZ -/
  | jtagPins (mode : Nat) (bits : List Bool)
  /-- an interrupt to a control core (R471) -/
  | coreIrq (core kind : Nat)
  /-- what a control core's access gives: 0 a load's bytes, 1 an SC's result, 2 an access fault, 3 instruction bytes -/
  | coreData (core kind : Nat) (bytes : List Byte)
  /-- bytes of a module channel's sideband or self-refresh command (R268, R582) -/
  | memCmd (ch kind : Nat)
deriving DecidableEq, Repr

/-- A placement the control firmware chose for a section image (R200, R208, R249, R251, R290): context and origin; slot sets, engine
and press queue per stream record index; bindings of external outputs (XO, SECTION_ID, XI) and of external streams (record index,
SECTION_ID, STREAM_ID). -/
structure Placement where
  ctx : Nat
  orgX : Nat
  orgY : Nat
  sets : List (Nat × Nat)
  engines : List (Nat × Nat)
  queues : List (Nat × Nat)
  xo : List (Nat × Nat × Nat)
  ext : List (Nat × Nat × Nat)
  /-- the buffer bound of the other device's end of a Tyzil stream, by stream record index (R356); no entry: not matched -/
  peerB : List (Nat × Nat)
  /-- tree record index, the largest FLITS of its packets (R86) -/
  flits : List (Nat × Nat)
deriving DecidableEq, Repr

/-- What firmware and the board bring to a tick: the policy engine's placements of the sections that lost cells, or none for one that has
none (R400); `ended`: in the tick's own nanosecond SYS_RST_N or PERST_N has been low for 1 µs, and so many steps have completed when the
BOARD reset ends the others (R647). -/
structure TickGiven where
  places : List (Nat × Option (Placement × List Byte))
  ended : Option Nat
deriving DecidableEq, Repr

/-- How a read that the device made for a descriptor ended (R322d). -/
inductive ReadEnd where
  | ok | poison | failed | bound
deriving DecidableEq, Repr

/-- How a run, a descriptor or a load ended: completion code, reason and detail of Table 10.10. -/
structure Ending where
  code : Nat
  reason : Nat
  detail : Nat
deriving DecidableEq, Repr

/-- What a module's SPD says, and what its FB-2 answers at IDENT (R268, R282): highest rate in MT/s, capacity in GiB, whether every
option is one of Table 9.1, whether it claims an FB-2, and MAGIC, VERSION, queues and NQ_MAX. -/
structure Spd where
  rate : Nat
  gib : Nat
  supported : Bool
  fb2 : Bool
  magic : Nat
  version : Nat
  queues : Nat
  nqMax : Nat
deriving DecidableEq, Repr

/-- What the boot ROM meets (R490 to R510): whether a flash answers, its SFDP (octal, erase suspend, density as a power of two), slots whose
stream read fails, sectors that fail the margin blank check, positions the self-test judges faulty, the placements firmware chooses for
the sections of GRID_BASE, and when the boot ends. -/
structure BootInfo where
  present : Bool
  octal : Bool
  suspend : Bool
  density : Nat
  badReads : List Nat
  weak : List Nat
  faulty : List Nat
  places : List Placement
  at_ : Dword
deriving DecidableEq, Repr

end Sys2Proof
end

