-- ==== Sys2Proof/Syntax.lean ====
section
/-! DEFINITION. The commands of the block: one constructor for each row of spec/opcode_table.json. The table gives a row no
bits and no operands; the operands carry what the command's rule takes from outside the block. -/
namespace Sys2Proof

/-- The commands, in the order of the table. -/
inductive Instr where
  /-- REG_WRITE (R11): A register write to a field that has no row of its own takes effect according to its access code. -/
  | regWrite (rq : Req) (addr : Nat) (val : Word) (image : List Byte) (how : ReadEnd) (places : List Placement)
  /-- READ_LOW_WORD_LATCH (R609): A read of the low word of a 64-bit register latches the high word for the next read. -/
  | readLowWordLatch (rq : Req) (addr : Nat)
  /-- WRITE_HIGH_WORD_COMMIT (R609): A write of the high word commits both words together with the held low word. -/
  | writeHighWordCommit (rq : Req) (addr : Nat) (val : Word)
  /-- RECORD_WINDOW_IDX_WRITE (R610): A write of a record window IDX register selects a record and resets the read offset. -/
  | recordWindowIdxWrite (rq : Req) (addr : Nat) (val : Word)
  /-- RECORD_WINDOW_DATA_READ (R610): A read of a record window DATA register returns the next 4 bytes and advances the offset. -/
  | recordWindowDataRead (rq : Req) (addr : Nat)
  /-- TABLE_WINDOW_COMMIT (R614): A write of the last word of a table entry commits the entry to the shadow or direct copy. -/
  | tableWindowCommit (rq : Req) (addr : Nat) (val : Word)
  /-- ERR_LOG_CLEAR (R440): Writing 0 to ERR_LOG0 clears the capture pair and arms the next capture. -/
  | errLogClear (rq : Req) (pg : Nat)
  /-- COUNTER_CLEAR (R444): Writing 0 to a counter clears it and its CNT_OVF bit. -/
  | counterClear (rq : Req) (addr : Nat)
  /-- PAGE_CTL_RESET (R604): A write of CTL.RESET schedules the page's RW and RWL fields to return to reset values at the next tick instant. -/
  | pageCtlReset (rq : Req) (pg : Nat)
  /-- PAGE_CTL_LOCK (R605): A write of 1 to CTL.LOCK locks the page's RWL fields until the matching reset. -/
  | pageCtlLock (rq : Req) (pg : Nat)
  /-- TICK (R45): At each tick instant the device performs the tick actions in the order of Table 2.8. -/
  | tick (sensors : List Int) (temps : List (Nat × Int)) (given : TickGiven)
  /-- NAP_ENTER (R588): At the end of an admit phase that serves nothing, the grid enters NAP. -/
  | napEnter
  /-- GUARD_START (R37): At the start of the guard, unfinished runs are cut with cause GUARD. -/
  | guardStart
  /-- RUN_START (R217): A run starts at its scheduled fc, switching context and initialising or restoring state. -/
  | runStart (sid : Nat)
  /-- BUDGET_EXPIRE (R37): A run whose budget counter reaches its budget is cut with cause BUDGET. -/
  | budgetExpire (sid : Nat)
  /-- RUN_COMPLETE (R218): A run whose completion condition is met ends with DONE. -/
  | runComplete (sid : Nat) (at_ : Dword)
  /-- DRAIN_COMPLETE (R39): The drain of a cut or faulted run ends, and the run completes with DONE_PARTIAL or its fault. -/
  | drainComplete (sid : Nat) (end_ : DrainEnd)
  /-- DRAIN_TIMEOUT (R41): A drain unfinished at the next tick holds the context in REGION reset, and the context becomes HELD. -/
  | drainTimeout (sid : Nat)
  /-- RUN_IDLE_TIMEOUT (R216): A run that fires no entry for 64 frames completes with FAULT_TIMEOUT. -/
  | runIdleTimeout (sid : Nat)
  /-- TB_SRC_LOST (R23): After 10 ms without a valid measurement, the timebase holds its rate and raises TB_SRC_LOST. -/
  | tbSrcLost (at_ : Dword)
  /-- HOLDOVER_EXPIRE (R23): Expiry of the holdover without a valid measurement sets ALIGN_LOST. -/
  | holdoverExpire (at_ : Dword)
  /-- ALIGN_RECOVER (R52): After 16 consecutive in-limit ticks, ALIGN_LOST clears. -/
  | alignRecover
  /-- FRAME_SYNC_IN_EDGE (R54): A rising edge on FRAME_SYNC_IN is timestamped and assigned to its nearest tick. -/
  | frameSyncInEdge (at_ : Dword)
  /-- SYNC_EDGE_SELECT (R56): Once T + P/2 has passed, the nearest edge of the tick is used and the others are counted. -/
  | syncEdgeSelect (at_ : Dword)
  /-- TIMEBASE_WRITE (R21): A write of FRAME.TB sets the timebase while the frame engine is disabled, and is otherwise ignored and captured. -/
  | timebaseWrite (rq : Req) (val : Dword)
  /-- EPOCH_WRITE (R21): A write of FRAME.EPOCH sets the epoch while the frame engine is disabled, and is otherwise ignored and captured. -/
  | epochWrite (rq : Req) (val : Dword)
  /-- FRAME_ENABLE (R30): Enabling the frame engine resumes ticks at the first tick instant after the write. -/
  | frameEnable (rq : Req)
  /-- FRAME_DISABLE (R600): Disabling the frame engine stops ticks, admission and posting. -/
  | frameDisable (rq : Req)
  /-- DISABLED_DELAY_EXPIRE (R601): With the frame engine disabled, a reset or power-state request takes effect 10 us after its write. -/
  | disabledDelayExpire (at_ : Dword)
  /-- MESH_PACKET_ARRIVE (R68): A mesh packet arriving at a router is checked and forwarded by dimension-order routing. -/
  | meshPacketArrive (pos port : Nat) (pkt : MeshPacket) (up : LinkUpset)
  /-- MC_FORWARD (R80): A multicast flit is copied to all outputs of its entry once each output holds a credit. -/
  | mcForward (pos : Nat)
  /-- RED_MERGE_ADD_I32 (R92): A merge point combines ADD_I32 operands in child order and forwards one packet. -/
  | redMergeAddI32 (pos region tag seq : Nat)
  /-- RED_MERGE_ADD_F32 (R92): A merge point combines ADD_F32 operands in child order and forwards one packet. -/
  | redMergeAddF32 (pos region tag seq : Nat)
  /-- RED_MERGE_MAX_F32 (R92): A merge point combines MAX_F32 operands in child order and forwards one packet. -/
  | redMergeMaxF32 (pos region tag seq : Nat)
  /-- RED_MERGE_LSE (R93): A merge point combines LSE_MERGE triples in child order and forwards one packet. -/
  | redMergeLse (pos region tag seq : Nat)
  /-- LINK_CREDIT_RETURN (R243): A link-level credit return raises a router port's credit count for a virtual network. -/
  | linkCreditReturn (pos port vn n : Nat)
  /-- VN0_AGE_PROMOTE (R76): A VN0 flit that has waited 1,024 fc joins the VN3 and VN2 round-robin. -/
  | vn0AgePromote (pos : Nat)
  /-- ROUTER_PLANE_FAULT (R438): A router switch fault moves traffic to the second plane at the next tick and counts a strike. -/
  | routerPlaneFault (pos : Nat)
  /-- SP_ACCESS_GRANT (R112): A scratchpad bank grants a request and performs the access in the fixed pipeline. -/
  | spAccessGrant (pos n : Nat) (write : Bool) (addr size : Nat) (data : List Byte) (poison : List Nat) (hits : List Upset)
  /-- CE_WRITEBACK (R122): A corrected granule is written back in the bank's next free fc, unless a write comes first. -/
  | ceWriteback (pos granule : Nat)
  /-- REMOTE_ACCESS_ARRIVE (R108): A remote access reaches its target, where it is checked and relocated by the matching context. -/
  | remoteAccessArrive (pos src region : Nat) (write : Bool) (off size : Nat) (data : List Byte) (poison : List Nat) (hits : List Upset)
  /-- REMOTE_READ_RESPONSE (R116): Remote read data or an error flag returns to the issuer. -/
  | remoteReadResponse (pos n : Nat) (data : List Byte) (poison : List Nat) (err : Bool)
  /-- SCRUB_VISIT (R128): The scrubber reads and classifies one granule at lowest priority. -/
  | scrubVisit (pos : Nat) (hits : List Upset)
  /-- SCRUB_LATE (R129): A scrub pass not finished within its period sets LATE and raises SCRUB_LATE. -/
  | scrubLate (pos : Nat)
  /-- BAR4_SCRATCHPAD_ACCESS (R131): A PF0 BAR4 access reaches a logical cell's scratchpad as unreserved VN0 traffic. -/
  | bar4ScratchpadAccess (write : Bool) (off size : Nat) (data : TlpData) (hits : List Upset)
  /-- BAR4_MEMORY_ACCESS (R310): A BAR4 access reaches the interleaved view of module memory, or completes as Unsupported Request. -/
  | bar4MemoryAccess (fn slot : Nat) (write : Bool) (off size : Nat) (data : TlpData) (hits : List (Nat × Upset))
  /-- TRIGGER_FIRE (R213): The sequencer fires the lowest eligible trigger entry and performs its actions. -/
  | triggerFire (pos : Nat)
  /-- TOKEN_ARRIVE (R207): A token arrives at a token input queue. -/
  | tokenArrive (pos n ti v : Nat) (poison : Bool)
  /-- NOP (R214): Opcode 0x00 performs only the entry's actions. -/
  | nop (pos : Nat)
  /-- MX_LOADW (R146): A weight tile and its exponents are loaded into the shadow registers, and checksum weights are computed. -/
  | mxLoadw (pos n : Nat) (op : OpFields) (u : EngineUpset)
  /-- MX_SWAP (R148): The shadow and active weight registers are exchanged. -/
  | mxSwap (pos n : Nat) (op : OpFields) (u : EngineUpset)
  /-- MX_MAC (R150): Activation rows are multiplied by the active tile into an accumulator bank. -/
  | mxMac (pos n : Nat) (op : OpFields) (u : EngineUpset)
  /-- MX_READ (R152): A bank is read out through the read-out stage, scaled, summed and emitted. -/
  | mxRead (pos n : Nat) (op : OpFields) (u : EngineUpset)
  /-- VX_ADD (R170): Element-wise addition. -/
  | vxAdd (pos n : Nat) (op : OpFields) (u : EngineUpset)
  /-- VX_SUB (R170): Element-wise subtraction. -/
  | vxSub (pos n : Nat) (op : OpFields) (u : EngineUpset)
  /-- VX_MUL (R170): Element-wise multiplication. -/
  | vxMul (pos n : Nat) (op : OpFields) (u : EngineUpset)
  /-- VX_FMA (R170): Fused multiply-add, rounded once. -/
  | vxFma (pos n : Nat) (op : OpFields) (u : EngineUpset)
  /-- VX_MIN (R171): Element-wise minimum. -/
  | vxMin (pos n : Nat) (op : OpFields) (u : EngineUpset)
  /-- VX_MAX (R171): Element-wise maximum. -/
  | vxMax (pos n : Nat) (op : OpFields) (u : EngineUpset)
  /-- VX_ABS (R172): Element-wise absolute value. -/
  | vxAbs (pos n : Nat) (op : OpFields) (u : EngineUpset)
  /-- VX_NEG (R172): Element-wise negation. -/
  | vxNeg (pos n : Nat) (op : OpFields) (u : EngineUpset)
  /-- VX_AND (R170): Bitwise AND. -/
  | vxAnd (pos n : Nat) (op : OpFields) (u : EngineUpset)
  /-- VX_OR (R170): Bitwise OR. -/
  | vxOr (pos n : Nat) (op : OpFields) (u : EngineUpset)
  /-- VX_XOR (R170): Bitwise XOR. -/
  | vxXor (pos n : Nat) (op : OpFields) (u : EngineUpset)
  /-- VX_SHL (R172): Shift left. -/
  | vxShl (pos n : Nat) (op : OpFields) (u : EngineUpset)
  /-- VX_SHRA (R170): Arithmetic shift right. -/
  | vxShra (pos n : Nat) (op : OpFields) (u : EngineUpset)
  /-- VX_SHRL (R170): Logical shift right. -/
  | vxShrl (pos n : Nat) (op : OpFields) (u : EngineUpset)
  /-- VX_CMP_EQ (R173): Equality comparison writing a mask register. -/
  | vxCmpEq (pos n : Nat) (op : OpFields) (u : EngineUpset)
  /-- VX_CMP_NE (R173): Inequality comparison writing a mask register. -/
  | vxCmpNe (pos n : Nat) (op : OpFields) (u : EngineUpset)
  /-- VX_CMP_LT (R173): Less-than comparison writing a mask register. -/
  | vxCmpLt (pos n : Nat) (op : OpFields) (u : EngineUpset)
  /-- VX_CMP_LE (R173): Less-or-equal comparison writing a mask register. -/
  | vxCmpLe (pos n : Nat) (op : OpFields) (u : EngineUpset)
  /-- VX_SEL (R170): Selects a or b per mask bit. -/
  | vxSel (pos n : Nat) (op : OpFields) (u : EngineUpset)
  /-- VX_CVT (R174): Converts between element formats. -/
  | vxCvt (pos n : Nat) (op : OpFields) (u : EngineUpset)
  /-- VX_EXP (R175): Exponential special function. -/
  | vxExp (pos n : Nat) (op : OpFields) (u : EngineUpset)
  /-- VX_RCP (R175): Reciprocal special function. -/
  | vxRcp (pos n : Nat) (op : OpFields) (u : EngineUpset)
  /-- VX_RSQRT (R175): Reciprocal square root special function. -/
  | vxRsqrt (pos n : Nat) (op : OpFields) (u : EngineUpset)
  /-- VX_TANH (R175): Hyperbolic tangent special function. -/
  | vxTanh (pos n : Nat) (op : OpFields) (u : EngineUpset)
  /-- VX_ERF (R175): Error function special function. -/
  | vxErf (pos n : Nat) (op : OpFields) (u : EngineUpset)
  /-- VX_MOV (R170): Copies a tile. -/
  | vxMov (pos n : Nat) (op : OpFields) (u : EngineUpset)
  /-- VX_BCAST (R170): Broadcasts one element over a tile. -/
  | vxBcast (pos n : Nat) (op : OpFields) (u : EngineUpset)
  /-- VX_TRN (R170): Transposes a tile. -/
  | vxTrn (pos n : Nat) (op : OpFields) (u : EngineUpset)
  /-- VX_LD (R168): Loads tile rows from scratchpad. -/
  | vxLd (pos n : Nat) (op : OpFields) (u : EngineUpset)
  /-- VX_ST (R168): Stores tile rows to scratchpad. -/
  | vxSt (pos n : Nat) (op : OpFields) (u : EngineUpset)
  /-- VX_QST (R177): Quantizes a binary32 tile into KB8 or KB4 blocks and stores them. -/
  | vxQst (pos n : Nat) (op : OpFields) (u : EngineUpset)
  /-- VX_MKRANGE (R170): Sets mask bits 0 to n-1. -/
  | vxMkrange (pos n : Nat) (op : OpFields) (u : EngineUpset)
  /-- VX_MKAND (R170): Mask AND. -/
  | vxMkand (pos n : Nat) (op : OpFields) (u : EngineUpset)
  /-- VX_MKOR (R170): Mask OR. -/
  | vxMkor (pos n : Nat) (op : OpFields) (u : EngineUpset)
  /-- VX_MKNOT (R170): Mask NOT. -/
  | vxMknot (pos n : Nat) (op : OpFields) (u : EngineUpset)
  /-- VX_RED (R183): The reduction unit computes SUM, MAX, MIN or ARGMAX over a tile. -/
  | vxRed (pos n : Nat) (op : OpFields) (u : EngineUpset)
  /-- VX_POP (R191): Moves the oldest curd queue entry into a tile register. -/
  | vxPop (pos n : Nat) (op : OpFields) (u : EngineUpset)
  /-- VX_ACCRD (R192): Copies a raw accumulator sub-tile into a tile register. -/
  | vxAccrd (pos n : Nat) (op : OpFields) (u : EngineUpset)
  /-- VX_ACCREL (R193): Releases an accumulator bank for the next MX.MAC. -/
  | vxAccrel (pos n : Nat) (op : OpFields) (u : EngineUpset)
  /-- VX_S2C (R194): Regroups an image from space to channel. -/
  | vxS2c (pos n : Nat) (op : OpFields) (u : EngineUpset)
  /-- DESC_LOAD (R224): A LOAD descriptor requests loading a section image into a context and origin. -/
  | descLoad (d : Nat) (place : Placement) (image : List Byte)
  /-- LOAD_ACCEPT (R222): The load is accepted once no run of context n on the region is in progress, and the context enters LOADING. -/
  | loadAccept (d : Nat)
  /-- IMAGE_VERIFY_COMPLETE (R225): The last image byte has arrived and Rind's tag computation completes. -/
  | imageVerifyComplete (d : Nat) (at_ : Dword)
  /-- IMAGE_READ_FAIL (R226): A failed read of the image ends the load with FAULT_POISON, FAULT_TIMEOUT or FAULT_BOUND. -/
  | imageReadFail (d : Nat) (how : ReadEnd) (at_ : Dword)
  /-- DESC_UNLOAD (R652): An UNLOAD descriptor names a SECTION_ID to unload. -/
  | descUnload (d : Nat)
  /-- DESC_RUN (R383): A RUN descriptor submits an item for admission. -/
  | descRun (d : Nat)
  /-- STREAM_DATA_ARRIVE (R245): A stream data packet is written into the consumer's buffer. -/
  | streamDataArrive (pos : Nat) (pkt : MeshPacket)
  /-- CRD_ARRIVE (R236): A CRD packet raises the producer's credit count. -/
  | crdArrive (pos : Nat) (pkt : MeshPacket)
  /-- CRD_TIMER_RETURN (R241): 16 fc after the first unreturned release, a CRD packet returns every release not yet returned. -/
  | crdTimerReturn (pos n idx : Nat)
  /-- STREAM_UNIT_SEND (R240): A producer sends a data packet once its units are written and its credits cover them. -/
  | streamUnitSend (pos n idx : Nat)
  /-- STREAM_DB_WRITE (R254): A write to STREAM.DB posts descriptors to an engine's ring. -/
  | streamDbWrite (rq : Req) (k : Nat) (tail : Word)
  /-- SE_READ (R255): A READ descriptor reads rows from memory into a stream, issuing reads only under credit. -/
  | seRead (k idx : Nat)
  /-- SE_WRITE (R256): A WRITE descriptor writes rows from an outbound buffer to memory. -/
  | seWrite (k idx : Nat) (hits : List (Nat × Upset))
  /-- SE_MIGRATE_IN (R265): A MIGRATE_IN descriptor copies a KV block from modules into scratchpad. -/
  | seMigrateIn (k idx : Nat) (hits : List (Nat × Upset))
  /-- SE_MIGRATE_OUT (R265): A MIGRATE_OUT descriptor copies a scratchpad block to modules. -/
  | seMigrateOut (k idx : Nat) (strike : List Upset) (hits : List (Nat × Upset))
  /-- MODULE_READ_RETURN (R257): A module read returns a unit, poisoned if the granule is poisoned. -/
  | moduleReadReturn (k idx u : Nat) (data : List Byte) (how : ReadEnd) (hits : List (Nat × Upset))
  /-- SE_DESC_COMPLETE (R259): A stream engine descriptor completes with a status recorded in STREAM.SE_CPL. -/
  | seDescComplete (k idx : Nat)
  /-- CHANNEL_BRINGUP (R269): A channel is identified, trained, checked for an FB-2, zero-filled and put in service. -/
  | channelBringup (c : Nat) (spd : Spd) (trains : Bool)
  /-- MEM_WCRC_ERROR (R280): A write failing its CRC is retried once, and after a failed retry the granule is stored poisoned. -/
  | memWcrcError (c off : Nat) (again thrice : Bool)
  /-- MODULE_CE_WRITEBACK (R279): A corrected module granule is written back in the next free write slot. -/
  | moduleCeWriteback (c granule : Nat)
  /-- MODULE_SCRUB_VISIT (R281): Patrol scrub reads and classifies one module granule. -/
  | moduleScrubVisit (c : Nat) (hits : List (Nat × Upset))
  /-- CHANNEL_LOST (R454): A channel meeting a loss condition is taken out of service, and its descriptors fault. -/
  | channelLost (c why : Nat)
  /-- CHAN_RESTORED_WRITE (R455): A write of REPAIR.CHAN.RESTORED ends the refill, and the REPAIR deferrals end. -/
  | chanRestoredWrite (rq : Req) (val : Word)
  /-- PRESS_CMD_ISSUE (R291): The engine writes a command's header granule once it holds a press credit and tPCMD has passed. -/
  | pressCmdIssue (c q : Nat) (at_ : Dword)
  /-- PRESS_CMD_ACCEPT (R286): The FB-2 accepts a command on its VALID header granule and checks its SEQ. -/
  | pressCmdAccept (c q slot : Nat) (at_ : Dword)
  /-- PRESS_ATTN (R296): The ATTN command scores queries against KV blocks and produces LSE triples. -/
  | pressAttn (c q : Nat)
  /-- PRESS_BURST_START (R299): A press burst starts when the previous burst has ended and tPAW allows it. -/
  | pressBurstStart (c : Nat) (at_ : Dword) (hits : List (Nat × Upset))
  /-- PRESS_CMD_COMPLETE (R288): The FB-2 writes the result slot or keeps chained triples, then updates QCOMP. -/
  | pressCmdComplete (c q : Nat) (at_ : Dword)
  /-- PRESS_QUEUE_RESET (R287): A QCTL write resets a press queue and discards its running triples. -/
  | pressQueueReset (c q : Nat)
  /-- PRESS_HOT (R301): At 105 C the FB-2 stops bursts and completes unfinished commands with HOT. -/
  | pressHot (c : Nat) (temp : Int)
  /-- PRESS_QCOMP_POLL (R292): Every 64 ns the engine reads QCOMP of a busy queue. -/
  | pressQcompPoll (c q : Nat) (at_ : Dword)
  /-- PRESS_TIMEOUT (R294): A command without a QCOMP update 10 us after acceptance faults its run. -/
  | pressTimeout (c q : Nat) (at_ : Dword)
  /-- HOST_LINK_TRAIN (R306): The host link trains to a rate, width and CXL version. -/
  | hostLinkTrain (rate width : Nat) (flit : Bool) (cxl : Nat) (at_ : Dword)
  /-- HOST_LINK_DOWN (R329): Link down without a hot reset is handled as a LINK reset. -/
  | hostLinkDown (at_ : Dword)
  /-- HOT_RESET (R329): A hot reset resets all tenant queues and MSI-X tables. -/
  | hotReset (at_ : Dword)
  /-- FLR_VF (R329): An FLR of a VF resets the queues of its tenants and its MSI-X table. -/
  | flrVf (v : Nat) (at_ : Dword)
  /-- FLR_PF1 (R329): An FLR of PF1 resets the queues of all PF1 and VF tenants and disables the VFs. -/
  | flrPf1 (at_ : Dword)
  /-- FLR_PF0 (R329): An FLR of PF0 resets its MSI-X table and closes its installer sessions. -/
  | flrPf0 (at_ : Dword)
  /-- DB_SQ_TAIL (R320): An SQ_TAIL doorbell write sets the submission tail, or is ignored and captured. -/
  | dbSqTail (vf page size : Nat) (val : Word) (at_ : Dword)
  /-- DB_CQ_HEAD (R321): A CQ_HEAD doorbell write frees CQ entries. -/
  | dbCqHead (vf page size : Nat) (val : Word) (at_ : Dword)
  /-- SQ_FETCH (R322): The device fetches an SQ entry when the head differs from the tail and the CQ has room. -/
  | sqFetch (t : Nat)
  /-- SQ_FETCH_COMPLETE (R323): A descriptor and its argument table have arrived and are queued for the next admit phase. -/
  | sqFetchComplete (t : Nat) (sq host : List Byte) (sqEnd hostEnd : ReadEnd) (at_ : Dword)
  /-- Q_CTL_EN_WRITE (R319): Enabling a queue resets its pointers and phase, and disabling it stops fetching. -/
  | qCtlEnWrite (rq : Req) (t : Nat) (val : Word)
  /-- TENANT_QUEUE_RESET (R329): Q_CTL.RESET performs a TENANT reset of the tenant's queues. -/
  | tenantQueueReset (rq : Req) (t : Nat)
  /-- TENANT_CREATE (R375): CREATE requests that a FREE tenant become ACTIVE at the next tick. -/
  | tenantCreate (rq : Req) (t : Nat)
  /-- TENANT_DESTROY (R375): DESTROY makes an ACTIVE tenant RETIRING. -/
  | tenantDestroy (rq : Req) (t : Nat)
  /-- TENANT_FN_WRITE (R328): A write of TENANT.FN requests moving the tenant to another function and slot. -/
  | tenantFnWrite (rq : Req) (t : Nat) (val : Word)
  /-- NOTICE_ACK_WRITE (R327): The host acknowledges read notices. -/
  | noticeAckWrite (rq : Req) (t : Nat) (val : Word)
  /-- VF_WINDOW_WRITE (R313): A write through a VF window reaches the writable TENANT fields, or is ignored and captured. -/
  | vfWindowWrite (vf k off : Nat) (val : Word) (at_ : Dword)
  /-- CXL_MEM_REQUEST (R316): A host CXL.mem request to the host-exposed range is served within its bandwidth share. -/
  | cxlMemRequest (write : Bool) (off size : Nat) (data : List Byte) (poison : Bool) (hits : List (Nat × Upset))
  /-- CXL_SNOOP (R308): A host snoop receives the response for a line not held. -/
  | cxlSnoop (addr : Nat)
  /-- TYZ_PORT_ENABLE (R333): Setting TYZn.CFG.EN starts port training. -/
  | tyzPortEnable (rq : Req) (n : Nat) (val : Word)
  /-- TYZ_TRAIN_COMPLETE (R332): A port completes training at the highest common generation. -/
  | tyzTrainComplete (n peerGen : Nat)
  /-- TYZ_TRAIN_TIMEOUT (R333): A port failing to train within 1 s becomes LOST. -/
  | tyzTrainTimeout (n : Nat)
  /-- TYZ_LOST_RETRAIN (R333): A LOST port retries training every 1 s. -/
  | tyzLostRetrain (n : Nat) (ok : Bool) (peerGen : Nat)
  /-- TYZ_LANE_FAIL (R334): A failed lane moves to the spare lane or the HALF set by a LANEMAP exchange. -/
  | tyzLaneFail (n lane : Nat)
  /-- TYZ_LANEMAP_FLIT (R334): A LANEMAP flit from the peer agrees the lane move. -/
  | tyzLanemapFlit (n map : Nat)
  /-- TYZ_DATA_FLIT (R339): A DATA flit is received, CRC-checked, and acknowledged or NAKed. -/
  | tyzDataFlit (n : Nat) (b : List Byte)
  /-- TYZ_IDLE_FLIT (R337): An IDLE flit carries acknowledgement and credit only. -/
  | tyzIdleFlit (n : Nat) (b : List Byte)
  /-- TYZ_NAK_FLIT (R339): A NAK causes the sender to replay from ACK + 1. -/
  | tyzNakFlit (n : Nat) (b : List Byte) (at_ : Dword)
  /-- TYZ_ACK_TIMEOUT (R340): ACK not advancing for 4 us, or 16 NAKs within 1 us, retrains the port. -/
  | tyzAckTimeout (n : Nat)
  /-- TYZ_PACKET_ROUTE (R348): A whole Tyzil packet is delivered, sent to a gateway, forwarded, or rerouted. -/
  | tyzPacketRoute
  /-- TYZ_RD_REQ (R353): A remote read request is performed on the local address space. -/
  | tyzRdReq (hits : List (Nat × Upset))
  /-- TYZ_RD_RSP (R353): A remote read response delivers data or BOUND. -/
  | tyzRdRsp
  /-- TYZ_WR (R353): A remote write is performed and answered with WR_ACK. -/
  | tyzWr (hits : List (Nat × Upset))
  /-- TYZ_WR_ACK (R353): A write acknowledgement counts toward completing the WRITE descriptor. -/
  | tyzWrAck
  /-- TYZ_STREAM (R356): A Tyzil stream data packet is delivered to its bound end. -/
  | tyzStream
  /-- TYZ_CRD (R356): A Tyzil stream credit packet returns credits. -/
  | tyzCrd
  /-- TYZ_ADD_I32 (R359): An ADD_I32 collective contribution is matched to its entry and merged. -/
  | tyzAddI32
  /-- TYZ_ADD_F32 (R359): An ADD_F32 collective contribution is matched to its entry and merged. -/
  | tyzAddF32
  /-- TYZ_MAX_F32 (R359): A MAX_F32 collective contribution is matched to its entry and merged. -/
  | tyzMaxF32
  /-- TYZ_LSE_MERGE (R359): An LSE_MERGE collective contribution is matched to its entry and merged. -/
  | tyzLseMerge
  /-- TYZ_COLL_RES (R361): A collective result is copied to child ports and the LOCAL in-stream. -/
  | tyzCollRes
  /-- TYZ_MGMT (R346): A MGMT packet is passed to control firmware. -/
  | tyzMgmt (reach : List (Nat × Bool))
  /-- TYZ_RMA_TIMEOUT (R355): A remote request without a response within RMA_TO_US completes with FAULT_TIMEOUT. -/
  | tyzRmaTimeout (tag : Nat) (at_ : Dword)
  /-- ALIGN_FLIT_SEND (R364): Every 100 us each in-service port sends an ALIGN flit. -/
  | alignFlitSend (n : Nat) (at_ : Dword)
  /-- ALIGN_FLIT_RECEIVE (R365): An ALIGN flit yields link delay and offset, and updates root and parent. -/
  | alignFlitReceive (n : Nat) (at_ : Dword) (f : AlignFlit)
  /-- RT_COPY (R625): RT_CTL.COPY copies the routing tables in force into the shadow. -/
  | rtCopy (rq : Req)
  /-- ETH_DGRAM_RECEIVE (R370): A gateway receives an encapsulated datagram and routes its Tyzil packets into its domain. -/
  | ethDgramReceive (k : Nat) (b : List Byte) (fcsOk : Bool)
  /-- ETH_RTO_EXPIRE (R371): After RTO without acknowledgement, the gateway resends from the first unacknowledged datagram. -/
  | ethRtoExpire (d : Nat)
  /-- PTP_MESSAGE (R373): An IEEE 1588 message updates the PTP offset used as the discipline measurement. -/
  | ptpMessage (k : Nat) (at_ : Dword) (offset : Int)
  /-- POLICY_ADAPT_WINDOW (R399): At the end of an adaptation window, reservation moves from a donor class to a receiver class. -/
  | policyAdaptWindow
  /-- KV_IDLE_EVICT (R402): KV records of an item not served for IDLE_FRAMES become non-resident, with dirty records copied back first. -/
  | kvIdleEvict (d : Nat)
  /-- RAIL_SAMPLE (R417): Every 1 us the package rails are measured and accumulated. -/
  | railSample (mw : List Nat) (at_ : Dword)
  /-- EMERG_THROTTLE (R414): Tj at 102 C, or power above 1.1 times the limit, drops fc to 800 MHz within 1 us. -/
  | emergThrottle (sensors : List Int) (at_ : Dword)
  /-- THERMTRIP (R416): A sensor at 112 C drives THERMTRIP_N low and stops the clocks. -/
  | thermtrip (idx : Nat) (raw : Int) (at_ : Dword)
  /-- PWRFAIL_ASSERT (R433): PWRFAIL_N low for 2 us marks T_cut, stops ticks and starts the last gasp. -/
  | pwrfailAssert (at_ : Dword)
  /-- PWRFAIL_RELEASE (R437): PWRFAIL_N returning high after T_cut leads to a reboot as after POR, 10 ms later. -/
  | pwrfailRelease (at_ : Dword)
  /-- RAIL_FAULT (R633): A group 2 or 3 rail outside its limits for 2 us is treated as a power failure. -/
  | railFault (k : Nat) (raw : Int) (at_ : Dword)
  /-- ACCT_BOUNDARY_IN_SLEEP (R591): In SLEEP, each accounting boundary is processed at its own instant. -/
  | acctBoundaryInSleep (at_ : Dword)
  /-- WALL_OFS_WRITE (R430): A write of OFS_NS sets VALID and closes or opens intervals at the next tick. -/
  | wallOfsWrite (rq : Req) (val : Dword)
  /-- REPAIR_APPLY_WRITE (R448): With AUTO 0, a write of REPAIR.APPLY starts the pending shifts and removals. -/
  | repairApplyWrite (rq : Req) (val : Word)
  /-- REPAIR_COPY (R449): In the run phase after the decision, moving cells copy their slices and contexts one place east. -/
  | repairCopy (q y : Nat) (at_ : Dword)
  /-- REPAIR_SWAP (R449): Once the mesh is empty, small state is copied and the bypass value is set. -/
  | repairSwap (at_ : Dword)
  /-- SWAP_WAIT_EXPIRE (R100): Virtual networks not empty after 512 fc defer the swap and record REPAIR_DEFERRED. -/
  | swapWaitExpire (at_ : Dword)
  /-- REPAIR_NV_RETRY (R459): A failed repair map write is retried once per minute. -/
  | repairNvRetry (at_ : Dword)
  /-- REPAIR_CLEAR (R461): A write of REPAIR.CLEAR writes a map record with no soft entries. -/
  | repairClear (rq : Req) (val : Word)
  /-- CORE_HEARTBEAT_MISS (R456): A core missing heartbeats, or reaching its CORE_UE threshold, is lost and held. -/
  | coreHeartbeatMiss (k : Nat) (at_ : Dword)
  /-- CORE_LOAD (R473): A core load hits, or issues BusRd. -/
  | coreLoad (k addr size : Nat) (hits : List Upset) (at_ : Dword)
  /-- CORE_STORE (R473): A core store hits, or issues BusUpgr or BusRdX. -/
  | coreStore (k addr : Nat) (data : List Byte) (hits : List Upset) (image : List Byte) (how : ReadEnd) (places : List Placement) (at_ : Dword)
  /-- L1D_EVICT (R473): An L1D eviction moves a dirty line to the WB buffer, or drops a clean one. -/
  | l1dEvict (k line : Nat) (hits : List Upset) (at_ : Dword)
  /-- L1I_MISS (R467): An L1I miss reads the line by BusRdCur. -/
  | l1iMiss (k addr : Nat) (parity : Bool) (at_ : Dword)
  /-- CORE_LR (R476): An LR acquires the line in M. -/
  | coreLr (k addr size : Nat) (hits : List Upset) (at_ : Dword)
  /-- CORE_SC (R476): An SC succeeds only if the line stayed in M since the LR. -/
  | coreSc (k addr : Nat) (data : List Byte) (hits : List Upset) (at_ : Dword)
  /-- BUS_RD (R473): A granted BusRd is snooped, and caches change state. -/
  | busRd (hits : List Upset) (at_ : Dword)
  /-- BUS_RDX (R473): A granted BusRdX invalidates other copies and makes the requester owner-pending. -/
  | busRdx (hits : List Upset) (at_ : Dword)
  /-- BUS_UPGR (R474): A granted BusUpgr invalidates other copies, or is performed as BusRdX. -/
  | busUpgr (hits : List Upset) (at_ : Dword)
  /-- BUS_RDCUR (R475): A granted BusRdCur reads a line without changing ownership. -/
  | busRdcur (ap : Bool) (line : Nat) (hits : List Upset) (at_ : Dword)
  /-- BUS_WB (R481): A granted BusWB writes a dirty line home. -/
  | busWb (hits : List Upset) (at_ : Dword)
  /-- BUS_WRINV (R475): A granted BusWrInv writes a full line home and invalidates all copies. -/
  | busWrinv (off : Nat) (data : List Byte) (hits : List Upset) (at_ : Dword)
  /-- BUS_WRMRG (R475): A granted BusWrMrg merges a partial write with the owner's data and writes home. -/
  | busWrmrg (off : Nat) (data : List Byte) (hits : List Upset) (at_ : Dword)
  /-- DATA_SUPPLY (R479): A supplier sends the line in a 4-cc data slot, and the requester installs it. -/
  | dataSupply (at_ : Dword)
  /-- HOME_TIMEOUT (R484): A supply not started within tHOME is replaced by the home copy, poisoned. -/
  | homeTimeout (at_ : Dword)
  /-- POR (R580): VDD_AON rising resets every domain and restarts the cluster. -/
  | por
  /-- BOARD_RESET (R580): SYS_RST_N or PERST_N low for 1 us resets the control and grid domains. -/
  | boardReset (at_ : Dword)
  /-- RST_GRID (R581): TOP.RST with KIND GRID requests a grid reset at the next tick instant. -/
  | rstGrid (rq : Req)
  /-- RST_CLUSTER (R581): TOP.RST with KIND CLUSTER requests a cluster reset at the next tick instant. -/
  | rstCluster (rq : Req)
  /-- RST_DEVICE (R581): TOP.RST with KIND DEVICE requests a device reset at the next tick instant. -/
  | rstDevice (rq : Req)
  /-- POWER_UP_SEQUENCE (R634): The device raises CTL_PWR_EN and GRID_PWR_EN in order and releases POR. -/
  | powerUpSequence
  /-- BOOT (R500): The boot ROM reads the header and journal, then verifies and starts a device image slot. -/
  | boot (b : BootInfo)
  /-- STAGE_DATA_WRITE (R504): A STAGE_DATA write stores 4 bytes in the staging area and advances STAGE_ADDR. -/
  | stageDataWrite (rq : Req) (val : Word)
  /-- STAGE_GO (R504): STAGE_GO checks the staged image and runs it without writing flash. -/
  | stageGo (rq : Req) (places : List Placement)
  /-- FLASH_OP_START (R511): The flash starts the highest-priority waiting operation, suspending an erase where possible. -/
  | flashOpStart
  /-- FLASH_ERASE_COMPLETE (R508): A sector erase completes and is verified, headed and journalled, or retried or marked bad. -/
  | flashEraseComplete (ok : Bool)
  /-- FLASH_PROGRAM_COMPLETE (R511): A flash page program completes. -/
  | flashProgramComplete (ok : Bool)
  /-- NV_UPD_GO (R513): NV.UPD.CTL.GO writes and checks a new image into the inactive slot. -/
  | nvUpdGo (rq : Req) (activate : Bool) (image : List Byte) (how : ReadEnd)
  /-- NV_ACCT_ACK (R496): A write of NV.ACCT_ACK_SEQ acknowledges accounting records and frees sectors. -/
  | nvAcctAck (rq : Req) (val : Word)
  /-- NV_AUDIT_ACK (R496): A write of NV.AUDIT_ACK_SEQ acknowledges audit records and frees sectors. -/
  | nvAuditAck (rq : Req) (val : Word)
  /-- SEC_VER_MIN_WRITE (R562): Raising NV.SEC_VER_MIN burns thermometer fuse bits. -/
  | secVerMinWrite (rq : Req) (val : Word)
  /-- WDT_SERVICE (R519): A write of WDT.SVC is classified as accepted, EARLY, BAD_TOKEN or ignored. -/
  | wdtService (rq : Req) (val : Word)
  /-- WDT_EXPIRE (R520): No accepted service by t_last + WIN_MAX enters stage 1 with cause EXPIRE. -/
  | wdtExpire (at_ : Dword)
  /-- WDT_CLOCK_EXPIRE (R521): The oscillator count reaching 17/16 of WIN_MAX enters stage 1 with cause CLOCK. -/
  | wdtClockExpire (count : Nat) (at_ : Dword)
  /-- WDT_STAGE2 (R524): At t2 the watchdog captures evidence and resets the device with kind WDT, unless held off. -/
  | wdtStage2 (at_ : Dword)
  /-- WDT_HOLD_EXPIRE (R525): tERASE_HOLD elapses during the stage-2 hold-off, and the reset proceeds. -/
  | wdtHoldExpire (at_ : Dword)
  /-- TRACE_ENABLE (R530): Setting TRACE.CTL.ENABLE applies the ring settings and starts tracing. -/
  | traceEnable (rq : Req)
  /-- TRACE_RING_WRITE (R532): A buffered trace record is written to the ring, or dropped and counted. -/
  | traceRingWrite
  /-- TRACE_FW_REC (R531): A write of the last FW_REC word forms an FW trace record. -/
  | traceFwRec (rq : Req) (val : Word)
  /-- TRACE_DUMP_GO (R537): TRACE.DUMP.GO copies the newest records into a spare last-gasp slot. -/
  | traceDumpGo (rq : Req)
  /-- TRACE_DUMP_ACK (R537): TRACE.DUMP_ACK retires and re-erases the dump slot. -/
  | traceDumpAck (rq : Req)
  /-- JTAG_IDCODE (R539): The JTAG IDCODE instruction returns the identification code. -/
  | jtagIdcode
  /-- JTAG_BYPASS (R539): The JTAG BYPASS instruction selects the bypass register. -/
  | jtagBypass
  /-- JTAG_SAMPLE_PRELOAD (R539): The JTAG SAMPLE/PRELOAD instruction samples and preloads the boundary scan register. -/
  | jtagSamplePreload (pins preload : List Bool)
  /-- JTAG_EXTEST (R539): The JTAG EXTEST instruction drives the pins where the state and session allow it. -/
  | jtagExtest
  /-- JTAG_CLAMP (R539): The JTAG CLAMP instruction holds the outputs where allowed. -/
  | jtagClamp
  /-- JTAG_HIGHZ (R539): The JTAG HIGHZ instruction tristates the outputs where allowed. -/
  | jtagHighz
  /-- DEBUG_CORE_HALT (R528): The debug module halts a core, freezing the watchdog in a maker session with DBG_FREEZE set. -/
  | debugCoreHalt (k : Nat) (at_ : Dword)
  /-- UART_REG_ACCESS (R542): A register access over the UART is performed with the session's page rights. -/
  | uartRegAccess (write : Bool) (addr : Nat) (val : Word) (at_ : Dword) (image : List Byte) (how : ReadEnd) (places : List Placement)
  /-- PLDM_SENSOR_READ (R539): A PLDM sensor read returns temperatures, power or DEGRADED. -/
  | pldmSensorRead (sensor : Nat)
  /-- PLDM_EFFECTER_WRITE (R539): A PLDM effecter write sets POWER.CAP.W within a session. -/
  | pldmEffecterWrite (w : Nat) (at_ : Dword)
  /-- PLDM_POWER_WAKE (R594): The PLDM device power state effecter brings the device out of STANDBY. -/
  | pldmPowerWake (at_ : Dword)
  /-- SESS_OPEN (R549): ACTION OPEN requests a session, and Rind issues a nonce. -/
  | sessOpen (rq : Req) (role key : Nat)
  /-- SESS_RESP (R549): A write of the final word of RIND.SESS.RESP checks the response and opens the session or fails. -/
  | sessResp (rq : Req) (val : Word)
  /-- SESS_CLOSE (R552): ACTION CLOSE closes the session and writes SESSION_CLOSE. -/
  | sessClose (rq : Req)
  /-- SESS_IDLE_CLOSE (R552): An interface idle for 600 s closes its session. -/
  | sessIdleClose (k : Nat) (at_ : Dword)
  /-- NONCE_EXPIRE (R550): A nonce expires 10 s after it was issued. -/
  | nonceExpire (k : Nat) (at_ : Dword)
  /-- LOCKOUT_EXPIRE (R551): 60 s after the last failure, a locked-out interface may open again. -/
  | lockoutExpire (k : Nat) (at_ : Dword)
  /-- KEY_WRITE (R557): KEY.CTL WRITE decrypts the blob, or takes the clear key in RMA, and burns a key row. -/
  | keyWrite (rq : Req) (slot : Nat)
  /-- KEY_REVOKE (R559): KEY.CTL REVOKE burns REVOKED on the slot's current row. -/
  | keyRevoke (rq : Req) (slot : Nat)
  /-- KEY_CLAIM (R558): KEY.CTL CLAIM burns IAUTH0 in clear and opens an installer session on PF0. -/
  | keyClaim (rq : Req)
  /-- KEY_BURN_COMPLETE (R556): A key row burn completes, and KEY.STS reports the outcome. -/
  | keyBurnComplete (ok : Bool)
  /-- MFUSE_GO (R555): RIND.MFUSE GO burns a maker fuse target in MAKER state. -/
  | mfuseGo (rq : Req) (val : Word)
  /-- LC_GO (R564): A write of RIND.LC.GO requests a lifecycle transition, audited first and then burnt. -/
  | lcGo (rq : Req) (target : Nat)
  /-- ATTEST_NONCE_WRITE (R571): A nonce write latches the audit head and computes the attestation tag. -/
  | attestNonceWrite (rq : Req) (val : Word)
  /-- CAL_SAVE (R577): CAL.CTL.SAVE writes a user calibration record to flash. -/
  | calSave (rq : Req)
  /-- CAL_CLEAR_ALL (R577): CAL.CTL.CLEAR_ALL sets every user offset to 0, pending. -/
  | calClearAll (rq : Req)
  /-- LP_REQ_SLEEP (R589): A write of POWER.LP.REQ = SLEEP requests SLEEP at the next tick. -/
  | lpReqSleep (rq : Req)
  /-- LP_REQ_STANDBY (R589): A write of POWER.LP.REQ = STANDBY requests STANDBY at the next tick. -/
  | lpReqStandby (rq : Req)
  /-- LP_REQ_RUN (R592): A write of POWER.LP.REQ = RUN starts the exit from SLEEP. -/
  | lpReqRun (rq : Req)
  /-- SLEEP_ENTER (R590): At T(n) + 2 us the frame engine stops, modules self-refresh and the grid powers off. -/
  | sleepEnter
  /-- STANDBY_ENTER (R593): Entry to STANDBY cuts the open interval, downs ports and powers off the control domain. -/
  | standbyEnter
  /-- SLEEP_EXIT_READY (R592): The grid is zero-filled and the modules are retrained, so the frame engine resumes at the next tick instant. -/
  | sleepExitReady (at_ : Dword)
  /-- BISNP_RESPONSE (R317): The host's response to a back-invalidate snoop, or to a CXL.cache RdCurr, WrInv or ItoMWr, arrives and lets the stream engine proceed with its access to the host-exposed line. -/
  | bisnpResponse (k idx : Nat) (answer : HostAnswer)
  /-- MIGRATION_RESUME (R266): After the admit phase, stream engines resume injecting migration traffic that they stopped at the guard start. -/
  | migrationResume (k : Nat)
  /-- TC0_AGE_PROMOTE (R342): A Tyzil TC0 packet that has waited 10 us joins the TC3 and TC2 round-robin. -/
  | tc0AgePromote (n : Nat)
  /-- ETH_LINK_DOWN (R626): An Ethernet port loses its link, STS.LINK_UP clears and the LINK_DOWN event is raised. -/
  | ethLinkDown (k : Nat)
  /-- ETH_LINK_UP (R626): An Ethernet port brings its link up at the configured speed, and STS.LINK_UP sets. -/
  | ethLinkUp (k : Nat)
  /-- REFCLK_SYS_LOST (R521): REFCLK_SYS stops while the device runs, the timebase stops, and the watchdog oscillator runs on. -/
  | refclkSysLost
  /-- DEBUG_CORE_RESUME (R528): The debugger resumes a halted core, and with no core left halted the frozen watchdog restarts with t_last moved by the frozen time. -/
  | debugCoreResume (k : Nat) (at_ : Dword)
  /-- LC_BURN_COMPLETE (R564): The three lifecycle fuse copies finish burning, the entry effects are performed and RIND.LC.STS reports DONE. -/
  | lcBurnComplete
  /-- MSIX_VECTOR_UNMASK (R608): The host unmasks an MSI-X vector whose PBA bit is set, and the held message is sent. -/
  | msixVectorUnmask (fn vec : Nat) (addr : Dword) (data : Word)
  /-- SRIOV_VF_ENABLE (R330): The host enables or disables VFs of PF1 through SR-IOV configuration, and tenants held by those VFs become reachable or unreachable. -/
  | sriovVfEnable (n : Nat) (on_ : Bool)
  /-- HDM_DECODER_COMMIT (R315): The host commits or uncommits its CXL HDM decoder, which decides whether a pending host-exposed range change can take effect. -/
  | hdmDecoderCommit (commit : Bool)
  /-- HELD_RELEASE (R204): Firmware releases a HELD context, and the context becomes READY at a tick. -/
  | heldRelease (sid : Nat)
deriving DecidableEq, Repr

end Sys2Proof
end

