-- ==== Sys2Proof/Config.lean ====
section
/-! DEFINITION. What an implementation fixes and the spec leaves open, and the free values: opaque constants that nothing can
evaluate. A statement about one of them holds for every value of it. -/
namespace Sys2Proof.Config

/-- The value the machine takes where the spec names none, by the count of such values taken (assumption 2). -/
opaque freeValue : Nat → BitVec 64
/-- Whether a result is judged tiny after rounding; IEEE 754 leaves it to the implementation (R178; assumption 9). -/
opaque tinyAfterRounding : Bool
/-- Depth, less one, of a router port's buffer for a virtual network (R64, R243; assumption 10). -/
opaque vnDepthLess1 : Nat
/-- How the fields of Table 14.1 are packed into the 64-bit LOC; the spec names the fields, not their bits (assumption 11). -/
opaque rasLoc : List Nat → BitVec 64
/-- Control SRAM offset of the RAS log ring (R441): a place the spec does not give (assumption 12). -/
opaque rasLogBase : Nat
/-- SHA-384 (FIPS 180-4), a cited standard the spec does not restate (R4; assumption 8). -/
opaque sha384 : List (BitVec 8) → List (BitVec 8)
/-- HMAC-SHA-384 (FIPS 198-1): key, message (assumption 8). -/
opaque hmacSha384 : List (BitVec 8) → List (BitVec 8) → List (BitVec 8)
/-- ECDSA P-384 verification of a 48-byte digest: public key, digest, r and s (assumption 8). -/
opaque ecdsaOk : List (BitVec 8) → List (BitVec 8) → List (BitVec 8) → Bool
/-- AES-256-GCM decryption: key, IV, additional data, ciphertext, tag; none where the tag fails (assumption 8). -/
opaque gcmOpen : List (BitVec 8) → List (BitVec 8) → List (BitVec 8) → List (BitVec 8) → List (BitVec 8) → Option (List (BitVec 8))
/-- The JTAG identification code, whose value the spec does not give. -/
opaque idcode : Nat
/-- The bytes of the boot ROM (Table 15.1), whose contents the spec does not give. -/
opaque bootRom : Nat → BitVec 8

end Sys2Proof.Config
end

