-- ==== Sys2Proof/Machine/Bytes.lean ====
section
/-! DEFINITION. Byte order, bit fields and checks: little-endian fields (R9), sign extension, CRC-16/CCITT-FALSE (R67)
and CRC-32 of IEEE 802.3 (R459, R494). -/
namespace Sys2Proof.Machine

/-- Bits `hi..lo` of a number. -/
def bitsOf (n hi lo : Nat) : Nat := (n / 2 ^ lo) % 2 ^ (hi + 1 - lo)
/-- Bit `k` of a number. -/
def bitOf (n k : Nat) : Bool := (n / 2 ^ k) % 2 == 1
/-- A truth value as a bit. -/
def b2n (b : Bool) : Nat := if b then 1 else 0
/-- Replace bits `hi..lo` of a 32-bit number. -/
def setBits (n hi lo v : Nat) : Nat :=
  n % 2 ^ lo + (v % 2 ^ (hi + 1 - lo)) * 2 ^ lo + (n / 2 ^ (hi + 1)) * 2 ^ (hi + 1)
/-- The `k` little-endian bytes of `n`. -/
def leBytes : Nat → Nat → List Byte
  | 0, _ => []
  | k + 1, n => BitVec.ofNat 8 n :: leBytes k (n / 256)
/-- The number a little-endian byte list spells. -/
def leNat : List Byte → Nat
  | [] => 0
  | b :: bs => b.toNat + 256 * leNat bs
/-- Little-endian field of `k` bytes at offset `o`. -/
def fieldAt (bs : List Byte) (o k : Nat) : Nat := leNat ((bs.drop o).take k)
def zeroAt (bs : List Byte) (o k : Nat) : Bool := ((bs.drop o).take k).all (· == 0)
/-- The two's complement reading of the low `w` bits. -/
def signed (w n : Nat) : Int :=
  if n % 2 ^ w < 2 ^ (w - 1) then (n % 2 ^ w : Nat) else ((n % 2 ^ w : Nat) : Int) - (2 ^ w : Nat)
/-- The low `w` bits of an integer. -/
def wrapInt (w : Nat) (i : Int) : Nat := (i % ((2 ^ w : Nat) : Int)).toNat

/-- One byte into a CRC-16 with polynomial 0x1021, most significant bit first. -/
def crc16Step (c : Nat) (b : Byte) : Nat :=
  let c0 := (c ^^^ (b.toNat * 256)) % 65536
  (List.range 8).foldl (fun x _ => if bitOf x 15 then ((x * 2) ^^^ 0x1021) % 65536 else (x * 2) % 65536) c0
/-- CRC-16/CCITT-FALSE: initial value 0xFFFF, no final inversion. -/
def crc16 (bs : List Byte) : Nat := bs.foldl crc16Step 0xFFFF
/-- One byte into the reflected CRC-32 of IEEE 802.3. -/
def crc32Step (c : Nat) (b : Byte) : Nat :=
  let c0 := c ^^^ b.toNat
  (List.range 8).foldl (fun x _ => if bitOf x 0 then (x / 2) ^^^ 0xEDB88320 else x / 2) c0
/-- CRC-32 (IEEE 802.3): initial value and final inversion all ones. -/
def crc32 (bs : List Byte) : Nat := bs.foldl crc32Step 0xFFFFFFFF ^^^ 0xFFFFFFFF

/-- Replace element `i` of a list, if there is one. -/
def listSet {α : Type} (l : List α) (i : Nat) (v : α) : List α := l.set i v
/-- Element `i` of a list or a default. -/
def listAt {α : Type} (d : α) (l : List α) (i : Nat) : α := l.getD i d
/-- Take `n` elements, padding with `d`. -/
def takePad {α : Type} (d : α) (n : Nat) (l : List α) : List α := (l.take n) ++ List.replicate (n - l.length) d
/-- Overwrite `l` from position `o` with `v`, as far as `l` reaches. -/
def listBlit {α : Type} (l : List α) (o : Nat) (v : List α) : List α :=
  (l.take o) ++ (v.take (l.length - o)) ++ l.drop (o + v.length)

end Sys2Proof.Machine
end

