-- ==== Sys2Proof/Machine/Maps.lean ====
section
/-! DEFINITION. Reading and writing sparse maps, and their canonical form. -/
namespace Sys2Proof.Machine

/-- The value at key `a`; an unlisted key reads as `d`. -/
def mapGet {α : Type} (d : α) : SMap α → Nat → α
  | [], _ => d
  | (k, v) :: r, a => if a = k then v else mapGet d r a

/-- Insert or replace the entry at `a`, keeping the keys rising. -/
def mapPut {α : Type} : SMap α → Nat → α → SMap α
  | [], a, v => [(a, v)]
  | (k, w) :: r, a, v =>
    if a < k then (a, v) :: (k, w) :: r
    else if a = k then (a, v) :: r
    else (k, w) :: mapPut r a v

/-- Drop whatever stands at `a`. -/
def mapErase {α : Type} : SMap α → Nat → SMap α
  | [], _ => []
  | (k, w) :: r, a => if a = k then mapErase r a else (k, w) :: mapErase r a

/-- Write `v` at `a`; writing what an unlisted key reads as removes the entry. -/
def mapSet {α : Type} [DecidableEq α] (d : α) (m : SMap α) (a : Nat) (v : α) : SMap α :=
  if v = d then mapErase m a else mapPut m a v

/-- The keys rise strictly from above `lo` and no value is the unlisted one. -/
def mapWfFrom {α : Type} [DecidableEq α] (d : α) : Option Nat → SMap α → Bool
  | _, [] => true
  | lo, (k, v) :: r =>
    (match lo with
      | none => true
      | some l => decide (l < k)) && decide (v ≠ d) && mapWfFrom d (some k) r

/-- The canonical form of a sparse map with unlisted value `d`. -/
def mapWf {α : Type} [DecidableEq α] (d : α) (m : SMap α) : Bool := mapWfFrom d none m

/-- Keep the entries whose key satisfies `p`: the others read as the unlisted value again. -/
def mapKeep {α : Type} (p : Nat → Bool) (m : SMap α) : SMap α := m.filter fun e => p e.1

/-- Read `n` consecutive keys from `a`. -/
def mapRead {α : Type} (d : α) (m : SMap α) (a : Nat) : Nat → List α
  | 0 => []
  | n + 1 => mapGet d m a :: mapRead d m (a + 1) n

/-- Write a list at consecutive keys from `a`. -/
def mapWrite {α : Type} [DecidableEq α] (d : α) (m : SMap α) (a : Nat) : List α → SMap α
  | [] => m
  | v :: vs => mapWrite d (mapSet d m a v) (a + 1) vs

end Sys2Proof.Machine
end

