-- ==== Sys2Proof/Machine/RegTable.lean ====
section
/-! DEFINITION. The register fields of Tables 20.1, 20.5 to 20.20 and 21.2 to 21.16 (R602, R611, R613, R617, R619, R621, R622, R623, R624, R626, R628):
place, access code, reset value and the encodings that are not reserved. -/
namespace Sys2Proof.Machine
namespace R

def hdr_BLK_ID : Fld := ⟨0x000, 31, 0⟩
def hdr_BLK_VER : Fld := ⟨0x004, 15, 0⟩
def hdr_CTL_ENABLE : Fld := ⟨0x008, 0, 0⟩
def hdr_CTL_RESET : Fld := ⟨0x008, 1, 1⟩
def hdr_CTL_LOCK : Fld := ⟨0x008, 2, 2⟩
def hdr_STS : Fld := ⟨0x00C, 31, 0⟩
def hdr_EVT_RAW : Fld := ⟨0x010, 31, 0⟩
def hdr_EVT_EN : Fld := ⟨0x014, 31, 0⟩
def hdr_EVT_PEND : Fld := ⟨0x018, 31, 0⟩
def hdr_EVT_VEC : Fld := ⟨0x01C, 5, 0⟩
def hdr_ERR_CNT : Fld := ⟨0x020, 31, 0⟩
def hdr_ERR_LOG0 : Fld := ⟨0x024, 31, 0⟩
def hdr_ERR_LOG1 : Fld := ⟨0x028, 31, 0⟩
def hdr_ACCESS : Fld := ⟨0x02C, 31, 0⟩
def hdr_AUDIT_SEQ : Fld := ⟨0x030, 31, 0⟩
def hdr_CNT_OVF : Fld := ⟨0x040, 31, 0⟩
def top_PART : Fld := ⟨0x048, 31, 0⟩
def top_CAPACITY : Fld := ⟨0x04C, 31, 0⟩
def top_DEG_CAUSE : Fld := ⟨0x050, 8, 0⟩
def top_RST_KIND : Fld := ⟨0x054, 1, 0⟩
def top_RST_GO : Fld := ⟨0x054, 8, 8⟩
def top_UART : Fld := ⟨0x058, 21, 0⟩
def top_MGMT : Fld := ⟨0x05C, 6, 0⟩
def frame_TB : Fld := ⟨0x048, 31, 0⟩
def frame_TB_SRC : Fld := ⟨0x050, 1, 0⟩
def frame_TB_CFG : Fld := ⟨0x054, 8, 0⟩
def frame_PERIOD : Fld := ⟨0x058, 11, 0⟩
def frame_GUARD : Fld := ⟨0x05C, 6, 0⟩
def frame_PERIOD_EFF : Fld := ⟨0x060, 11, 0⟩
def frame_GUARD_EFF : Fld := ⟨0x064, 6, 0⟩
def frame_PERIOD_AT : Fld := ⟨0x068, 31, 0⟩
def frame_EPOCH : Fld := ⟨0x070, 31, 0⟩
def frame_COUNT : Fld := ⟨0x078, 31, 0⟩
def frame_FSTS : Fld := ⟨0x080, 4, 0⟩
def frame_CUTS : Fld := ⟨0x084, 31, 0⟩
def frame_DRAIN_TO : Fld := ⟨0x088, 31, 0⟩
def frame_ALIGN_OFFSET_NS : Fld := ⟨0x08C, 31, 0⟩
def frame_ALIGN_LIMIT_NS : Fld := ⟨0x090, 9, 0⟩
def frame_ALIGN_HOLDOVER_MS : Fld := ⟨0x094, 15, 0⟩
def frame_SYNC_MODE : Fld := ⟨0x098, 1, 0⟩
def frame_SYNC_OUT_EN : Fld := ⟨0x098, 4, 4⟩
def frame_SYNC_OFS_NS : Fld := ⟨0x09C, 31, 0⟩
def sched_MIN_RUN_FC : Fld := ⟨0x048, 19, 0⟩
def sched_CONSIDER_MAX : Fld := ⟨0x04C, 13, 0⟩
def sched_CONSIDER_OVF : Fld := ⟨0x050, 31, 0⟩
def sched_EBUDGET_EFF : Fld := ⟨0x054, 31, 0⟩
def sched_STATS : Fld := ⟨0x060, 31, 0⟩
def sched_USED : Fld := ⟨0x090, 8, 0⟩
def sched_QDEPTH : Fld := ⟨0x0A0, 12, 0⟩
def sched_TOKENS : Fld := ⟨0x0B0, 31, 0⟩
def sched_TTFT_EST : Fld := ⟨0x0C0, 31, 0⟩
def sched_TTFT_MEAS : Fld := ⟨0x0D0, 31, 0⟩
def sched_TTFT_MISS_I : Fld := ⟨0x0E0, 31, 0⟩
def sched_TTFT_MISS_S : Fld := ⟨0x0E4, 31, 0⟩
def sched_TTFT_MISS_B : Fld := ⟨0x0E8, 31, 0⟩
def sched_TTFT_MISS_G : Fld := ⟨0x0EC, 31, 0⟩
def sched_PROFILE_IDX : Fld := ⟨0x100, 7, 0⟩
def sched_PROFILE_SID : Fld := ⟨0x104, 31, 0⟩
def sched_PROFILE_DATA_CLASS : Fld := ⟨0x10C, 1, 0⟩
def sched_PROFILE_DATA_F1 : Fld := ⟨0x10C, 15, 8⟩
def sched_PROFILE_DATA_ADD : Fld := ⟨0x10C, 23, 16⟩
def sched_PROFILE_DATA_VALID : Fld := ⟨0x10C, 31, 31⟩
def policy_CLASS0_0_RSV : Fld := ⟨0x048, 8, 0⟩
def policy_CLASS0_0_LIM : Fld := ⟨0x048, 24, 16⟩
def policy_CLASS0_1_RSV_MIN : Fld := ⟨0x04C, 8, 0⟩
def policy_CLASS0_1_RSV_MAX : Fld := ⟨0x04C, 24, 16⟩
def policy_CLASS0_2 : Fld := ⟨0x050, 21, 0⟩
def policy_CLASS0_3_QMAX : Fld := ⟨0x054, 12, 0⟩
def policy_CLASS0_3_QUEUE : Fld := ⟨0x054, 16, 16⟩
def policy_CLASS0_3_F1_DEF : Fld := ⟨0x054, 31, 24⟩
def policy_RSV_EFF : Fld := ⟨0x088, 8, 0⟩
def policy_RSV_EFF_S : Fld := ⟨0x08C, 8, 0⟩
def policy_RSV_EFF_B : Fld := ⟨0x090, 8, 0⟩
def policy_RSV_EFF_G : Fld := ⟨0x094, 8, 0⟩
def policy_TQ_MAX0_CLASS_MASK : Fld := ⟨0x098, 3, 0⟩
def policy_TQ_MAX0_SHARE_MAX : Fld := ⟨0x098, 24, 16⟩
def policy_TQ_MAX1 : Fld := ⟨0x09C, 12, 0⟩
def policy_TENANT_MAX : Fld := ⟨0x0A0, 10, 0⟩
def policy_ADAPT_EN : Fld := ⟨0x0A4, 0, 0⟩
def policy_ADAPT_STEP : Fld := ⟨0x0A4, 6, 1⟩
def policy_ADAPT_FRAMES : Fld := ⟨0x0A4, 31, 16⟩
def policy_KV : Fld := ⟨0x0A8, 15, 0⟩
def power_PKG_W : Fld := ⟨0x048, 10, 0⟩
def power_CAP0_W : Fld := ⟨0x04C, 10, 0⟩
def power_CAP0_HYST_W : Fld := ⟨0x04C, 23, 16⟩
def power_CAP1 : Fld := ⟨0x050, 9, 0⟩
def power_CAP_EFF : Fld := ⟨0x054, 31, 0⟩
def power_DVFS0_MODE : Fld := ⟨0x058, 0, 0⟩
def power_DVFS0_FIX_MHZ : Fld := ⟨0x058, 26, 16⟩
def power_DVFS1_MIN_MHZ : Fld := ⟨0x05C, 10, 0⟩
def power_DVFS1_MAX_MHZ : Fld := ⟨0x05C, 26, 16⟩
def power_DVFS2 : Fld := ⟨0x060, 10, 0⟩
def power_BASE_W : Fld := ⟨0x064, 10, 0⟩
def power_EPROFILE_IDX : Fld := ⟨0x068, 7, 0⟩
def power_EPROFILE_E : Fld := ⟨0x06C, 31, 0⟩
def power_EPROFILE_V : Fld := ⟨0x070, 9, 0⟩
def power_RAIL_E0 : Fld := ⟨0x080, 31, 0⟩
def power_LP_REQ : Fld := ⟨0x0C0, 1, 0⟩
def power_LP_NAP_EN : Fld := ⟨0x0C0, 4, 4⟩
def power_LP_STATE : Fld := ⟨0x0C0, 10, 8⟩
def power_LP_DENY : Fld := ⟨0x0C0, 13, 12⟩
def energy_W0 : Fld := ⟨0x048, 15, 0⟩
def energy_W1 : Fld := ⟨0x04C, 15, 0⟩
def energy_W2 : Fld := ⟨0x050, 15, 0⟩
def energy_FIXED_W : Fld := ⟨0x054, 10, 0⟩
def energy_K_BURST_NJ : Fld := ⟨0x058, 15, 0⟩
def energy_K_UNIT_NJ : Fld := ⟨0x05C, 15, 0⟩
def energy_E_DEF_PJ : Fld := ⟨0x060, 13, 0⟩
def energy_WALL_OFS_NS : Fld := ⟨0x068, 31, 0⟩
def energy_WALL_VALID : Fld := ⟨0x070, 0, 0⟩
def energy_TARIFF0_0_START_MIN : Fld := ⟨0x100, 15, 0⟩
def energy_TARIFF0_0_DAYS : Fld := ⟨0x100, 23, 16⟩
def energy_TARIFF0_1 : Fld := ⟨0x104, 31, 0⟩
def energy_TARIFF_CTL_AT : Fld := ⟨0x200, 31, 0⟩
def energy_TARIFF_INDEX : Fld := ⟨0x208, 7, 0⟩
def energy_INTERVAL : Fld := ⟨0x210, 5, 0⟩
def energy_INTERVAL_EFF : Fld := ⟨0x214, 5, 0⟩
def energy_CKPT_MIN : Fld := ⟨0x218, 5, 0⟩
def energy_OPEN : Fld := ⟨0x220, 31, 0⟩
def energy_LAST : Fld := ⟨0x280, 31, 0⟩
def energy_LAST_CPMT_UU : Fld := ⟨0x300, 31, 0⟩
def energy_LOG_IDX : Fld := ⟨0x310, 31, 0⟩
def energy_LOG_DATA : Fld := ⟨0x314, 31, 0⟩
def energy_LG_STS : Fld := ⟨0x320, 2, 0⟩
def therm_THROTTLE_C : Fld := ⟨0x048, 6, 0⟩
def therm_EMERG_CNT : Fld := ⟨0x04C, 31, 0⟩
def therm_TRIP_LOG : Fld := ⟨0x050, 31, 0⟩
def therm_TRIP_TB : Fld := ⟨0x054, 31, 0⟩
def therm_TJ : Fld := ⟨0x05C, 15, 0⟩
def therm_SENSE : Fld := ⟨0x100, 15, 0⟩
def wdt_CFG_MIN_US : Fld := ⟨0x048, 31, 0⟩
def wdt_CFG_MAX_US : Fld := ⟨0x04C, 31, 0⟩
def wdt_CFG_STAGE2_US : Fld := ⟨0x050, 31, 0⟩
def wdt_ARM_SEED : Fld := ⟨0x054, 15, 0⟩
def wdt_ARM_SEED_EFF : Fld := ⟨0x054, 31, 16⟩
def wdt_SVC : Fld := ⟨0x058, 31, 0⟩
def wdt_SVC_CNT : Fld := ⟨0x05C, 31, 0⟩
def wdt_IGN_CNT : Fld := ⟨0x060, 31, 0⟩
def wdt_RST_CNT : Fld := ⟨0x064, 31, 0⟩
def wdt_EVID1 : Fld := ⟨0x080, 31, 0⟩
def wdt_EVID2 : Fld := ⟨0x100, 31, 0⟩
def trace_RING_KIND : Fld := ⟨0x048, 0, 0⟩
def trace_RING_BASE : Fld := ⟨0x050, 31, 0⟩
def trace_RING_LEN : Fld := ⟨0x058, 31, 0⟩
def trace_FILTER : Fld := ⟨0x060, 31, 0⟩
def trace_HEAD : Fld := ⟨0x068, 31, 0⟩
def trace_RD_IDX : Fld := ⟨0x070, 31, 0⟩
def trace_LOST : Fld := ⟨0x078, 31, 0⟩
def trace_FW_REC : Fld := ⟨0x080, 31, 0⟩
def trace_DUMP_GO : Fld := ⟨0x090, 0, 0⟩
def trace_DUMP_STS : Fld := ⟨0x090, 10, 8⟩
def trace_DUMP_IDX : Fld := ⟨0x094, 31, 0⟩
def trace_DUMP_DATA : Fld := ⟨0x098, 31, 0⟩
def trace_DUMP_ACK : Fld := ⟨0x09C, 0, 0⟩
def ras_CE_TOTAL : Fld := ⟨0x048, 31, 0⟩
def ras_UE_TOTAL : Fld := ⟨0x04C, 31, 0⟩
def ras_FATAL_STS : Fld := ⟨0x050, 0, 0⟩
def ras_LOG_HEAD : Fld := ⟨0x054, 8, 0⟩
def ras_LOG_ACK : Fld := ⟨0x058, 8, 0⟩
def ras_LOG_LOST : Fld := ⟨0x05C, 31, 0⟩
def ras_FIRST0 : Fld := ⟨0x060, 31, 0⟩
def ras_FIRST0_SRC : Fld := ⟨0x064, 15, 0⟩
def ras_FIRST0_TB : Fld := ⟨0x068, 31, 0⟩
def ras_FIRST1 : Fld := ⟨0x070, 31, 0⟩
def ras_LOG_BASE : Fld := ⟨0x078, 31, 0⟩
def repair_THR0_STRIKE_THR : Fld := ⟨0x048, 3, 0⟩
def repair_THR0_STRIKE_WIN_H : Fld := ⟨0x048, 29, 16⟩
def repair_THR1 : Fld := ⟨0x04C, 15, 0⟩
def repair_THR2 : Fld := ⟨0x050, 30, 0⟩
def repair_APPLY : Fld := ⟨0x058, 0, 0⟩
def repair_CH_UE_THR : Fld := ⟨0x05C, 7, 0⟩
def repair_CHAN0_POLICY : Fld := ⟨0x060, 0, 0⟩
def repair_CHAN0_REPLICA : Fld := ⟨0x060, 28, 16⟩
def repair_CHAN1 : Fld := ⟨0x064, 0, 0⟩
def repair_CORE_HB_US : Fld := ⟨0x068, 16, 0⟩
def repair_CORE_UE_THR : Fld := ⟨0x06C, 3, 0⟩
def repair_ACK_SEQ : Fld := ⟨0x070, 31, 0⟩
def repair_CLEAR : Fld := ⟨0x074, 0, 0⟩
def repair_LAST_SEQ : Fld := ⟨0x078, 31, 0⟩
def repair_QROW_MAP : Fld := ⟨0x100, 31, 0⟩
def repair_HARD : Fld := ⟨0x180, 31, 0⟩
def repair_POS_STS : Fld := ⟨0x200, 31, 0⟩
def nv_FLASH_CFG : Fld := ⟨0x048, 31, 0⟩
def nv_BOOT_STS : Fld := ⟨0x050, 31, 0⟩
def nv_IMAGE_ID : Fld := ⟨0x058, 31, 0⟩
def nv_SEC_VER_MIN : Fld := ⟨0x060, 6, 0⟩
def nv_STAGE_ADDR : Fld := ⟨0x064, 31, 0⟩
def nv_STAGE_DATA : Fld := ⟨0x068, 31, 0⟩
def nv_STAGE_GO : Fld := ⟨0x06C, 0, 0⟩
def nv_UPD_SRC : Fld := ⟨0x070, 31, 0⟩
def nv_UPD_KIND : Fld := ⟨0x078, 1, 0⟩
def nv_UPD_LEN : Fld := ⟨0x07C, 31, 0⟩
def nv_UPD_CTL_GO : Fld := ⟨0x080, 0, 0⟩
def nv_UPD_CTL_ACTIVATE : Fld := ⟨0x080, 1, 1⟩
def nv_UPD_STS : Fld := ⟨0x084, 11, 0⟩
def nv_JRN_TORN : Fld := ⟨0x088, 31, 0⟩
def nv_HALF_ERASED : Fld := ⟨0x08C, 31, 0⟩
def nv_ACCT_ACK_SEQ : Fld := ⟨0x090, 31, 0⟩
def nv_AUDIT_ACK_SEQ : Fld := ⟨0x094, 31, 0⟩
def nv_LOG_STS : Fld := ⟨0x098, 1, 0⟩
def nv_ACCT_LOST : Fld := ⟨0x09C, 31, 0⟩
def rind_DEV_UID : Fld := ⟨0x048, 31, 0⟩
def rind_SESS_CTL_ACTION : Fld := ⟨0x060, 1, 0⟩
def rind_SESS_CTL_ROLE : Fld := ⟨0x060, 9, 8⟩
def rind_SESS_CTL_KEY : Fld := ⟨0x060, 19, 16⟩
def rind_SESS_STS : Fld := ⟨0x064, 5, 0⟩
def rind_SESS_FAIL_CNT : Fld := ⟨0x068, 31, 0⟩
def rind_SESS_NONCE : Fld := ⟨0x070, 31, 0⟩
def rind_SESS_RESP : Fld := ⟨0x0A0, 31, 0⟩
def rind_KEY_CTL_ACTION : Fld := ⟨0x100, 1, 0⟩
def rind_KEY_CTL_SLOT : Fld := ⟨0x100, 12, 8⟩
def rind_KEY_BLOB : Fld := ⟨0x110, 31, 0⟩
def rind_KEY_CLEAR : Fld := ⟨0x160, 31, 0⟩
def rind_KEY_KCNT : Fld := ⟨0x190, 31, 0⟩
def rind_KEY_STS : Fld := ⟨0x194, 2, 0⟩
def rind_KEY_ROWS_USED : Fld := ⟨0x198, 7, 0⟩
def rind_MFUSE : Fld := ⟨0x1A0, 31, 0⟩
def rind_MFUSE_DATA : Fld := ⟨0x1B0, 31, 0⟩
def rind_LC_STATE : Fld := ⟨0x220, 2, 0⟩
def rind_LC_GO : Fld := ⟨0x224, 2, 0⟩
def rind_LC_STS : Fld := ⟨0x228, 1, 0⟩
def rind_LC_RMA_CONSENT : Fld := ⟨0x22C, 0, 0⟩
def cal_IDX_QTY : Fld := ⟨0x048, 3, 0⟩
def cal_IDX_INDEX : Fld := ⟨0x048, 24, 16⟩
def cal_USER : Fld := ⟨0x04C, 31, 0⟩
def cal_FACT : Fld := ⟨0x050, 31, 0⟩
def cal_LO : Fld := ⟨0x054, 31, 0⟩
def cal_HI : Fld := ⟨0x058, 31, 0⟩
def cal_EFF : Fld := ⟨0x05C, 31, 0⟩
def cal_EFF_FLAGS : Fld := ⟨0x060, 31, 0⟩
def audit_ATTEST_NONCE : Fld := ⟨0x048, 31, 0⟩
def audit_ATTEST_TAG : Fld := ⟨0x080, 31, 0⟩
def audit_ATT_SEQ : Fld := ⟨0x0B0, 31, 0⟩
def audit_ATT_CHAIN : Fld := ⟨0x0C0, 31, 0⟩
def audit_LOG_IDX : Fld := ⟨0x0F0, 31, 0⟩
def audit_LOG_DATA : Fld := ⟨0x0F4, 31, 0⟩
def audit_HEAD_SEQ : Fld := ⟨0x0F8, 31, 0⟩
def cluster_CORE_STS : Fld := ⟨0x048, 15, 0⟩
def cluster_HB : Fld := ⟨0x050, 31, 0⟩
def cluster_THOME_CC : Fld := ⟨0x070, 31, 0⟩
def cluster_HOME_TO : Fld := ⟨0x074, 31, 0⟩
def cluster_WB_CANCEL : Fld := ⟨0x078, 31, 0⟩
def cluster_SRAM_CE : Fld := ⟨0x07C, 31, 0⟩
def cluster_SRAM_UE : Fld := ⟨0x080, 31, 0⟩
def cluster_POISON_LOG : Fld := ⟨0x088, 31, 0⟩
def cluster_MCE : Fld := ⟨0x090, 31, 0⟩
def stream_RING_BASE0 : Fld := ⟨0x100, 31, 0⟩
def stream_DB0 : Fld := ⟨0x104, 7, 0⟩
def stream_HEAD0 : Fld := ⟨0x108, 7, 0⟩
def stream_SE_STS0 : Fld := ⟨0x10C, 31, 0⟩
def stream_SE_POS0 : Fld := ⟨0x110, 31, 0⟩
def stream_MIG_CNT0 : Fld := ⟨0x118, 31, 0⟩
def stream_CPL_IDX_ENG : Fld := ⟨0x500, 4, 0⟩
def stream_CPL_IDX_RING : Fld := ⟨0x500, 15, 8⟩
def stream_SE_CPL : Fld := ⟨0x504, 31, 0⟩
def mem_STS : Fld := ⟨0x048, 16, 0⟩
def mem_CE_CNT : Fld := ⟨0x04C, 31, 0⟩
def mem_UE_CNT : Fld := ⟨0x050, 31, 0⟩
def mem_POISON_RD : Fld := ⟨0x054, 31, 0⟩
def mem_SCRUB_OW : Fld := ⟨0x058, 31, 0⟩
def mem_SCRUB : Fld := ⟨0x05C, 7, 0⟩
def mem_TEMP : Fld := ⟨0x060, 15, 0⟩
def mem_WCRC_RETRY : Fld := ⟨0x064, 31, 0⟩
def mem_ILV : Fld := ⟨0x080, 31, 0⟩
def mem_HDM : Fld := ⟨0x088, 8, 0⟩
def press_STS : Fld := ⟨0x048, 7, 0⟩
def press_PAW_EFF : Fld := ⟨0x04C, 6, 0⟩
def press_CMD_CNT : Fld := ⟨0x050, 31, 0⟩
def press_BURST_CNT : Fld := ⟨0x054, 31, 0⟩
def press_THROTTLE_NS : Fld := ⟨0x058, 31, 0⟩
def press_REFUSED : Fld := ⟨0x060, 31, 0⟩
def press_TIMEOUTS : Fld := ⟨0x064, 31, 0⟩
def press_QSTS : Fld := ⟨0x080, 31, 0⟩
def host_LINK_STS : Fld := ⟨0x048, 13, 0⟩
def host_CXL_CFG_MODE : Fld := ⟨0x04C, 1, 0⟩
def host_CXL_CFG_HDM_GIB : Fld := ⟨0x04C, 16, 8⟩
def host_CXL_CFG_BW_SHARE : Fld := ⟨0x04C, 28, 24⟩
def host_CXL_STS : Fld := ⟨0x050, 24, 0⟩
def host_SRIOV : Fld := ⟨0x054, 16, 0⟩
def host_AER_COR : Fld := ⟨0x058, 31, 0⟩
def host_AER_UNCORR : Fld := ⟨0x05C, 31, 0⟩
def msix_PF0_SIZE : Fld := ⟨0x048, 31, 0⟩
def msix_FN_SIZE : Fld := ⟨0x04C, 31, 0⟩
def msix_SENT : Fld := ⟨0x050, 31, 0⟩
def msix_PBA_HELD : Fld := ⟨0x054, 31, 0⟩
def msix_MOVES : Fld := ⟨0x058, 31, 0⟩
def tyz_CFG_EN : Fld := ⟨0x048, 0, 0⟩
def tyz_CFG_MAX_GEN : Fld := ⟨0x048, 2, 1⟩
def tyz_STS : Fld := ⟨0x04C, 16, 0⟩
def tyz_LANE_THR : Fld := ⟨0x050, 15, 0⟩
def tyz_REPLAY_CNT : Fld := ⟨0x054, 31, 0⟩
def tyz_NAK_CNT : Fld := ⟨0x058, 31, 0⟩
def tyz_RETRAIN_CNT : Fld := ⟨0x05C, 31, 0⟩
def tyz_RSV_IDX_IDX : Fld := ⟨0x060, 5, 0⟩
def tyz_RSV_IDX_DIR : Fld := ⟨0x060, 6, 6⟩
def tyz_RSV : Fld := ⟨0x064, 31, 0⟩
def tyz_RSV_SUM : Fld := ⟨0x070, 31, 0⟩
def tyz_RSV_CAP : Fld := ⟨0x074, 31, 0⟩
def tyz0_DEV_ID : Fld := ⟨0x100, 12, 0⟩
def tyz0_DOM_ID : Fld := ⟨0x104, 2, 0⟩
def tyz0_DOM_SIZE : Fld := ⟨0x108, 13, 0⟩
def tyz0_PORTS : Fld := ⟨0x10C, 4, 0⟩
def tyz0_RT_IDX_DEV : Fld := ⟨0x110, 12, 0⟩
def tyz0_RT_IDX_TABLE : Fld := ⟨0x110, 16, 16⟩
def tyz0_RT_DATA : Fld := ⟨0x120, 31, 0⟩
def tyz0_RT_SWAP_AT : Fld := ⟨0x130, 31, 0⟩
def tyz0_RT_CTL_PENDING : Fld := ⟨0x138, 0, 0⟩
def tyz0_RT_CTL_COPY : Fld := ⟨0x138, 1, 1⟩
def tyz0_UNROUTABLE : Fld := ⟨0x140, 31, 0⟩
def tyz0_RMA_TO_US : Fld := ⟨0x144, 16, 0⟩
def tyz0_COLL_IDX : Fld := ⟨0x150, 7, 0⟩
def tyz0_COLL : Fld := ⟨0x154, 31, 0⟩
def tyz0_ALIGN0_ROOT0 : Fld := ⟨0x170, 12, 0⟩
def tyz0_ALIGN0_ROOT1 : Fld := ⟨0x170, 28, 16⟩
def tyz0_ALIGN1_ROOT2 : Fld := ⟨0x174, 12, 0⟩
def tyz0_ALIGN1_ROOT3 : Fld := ⟨0x174, 28, 16⟩
def tyz0_ALIGN2 : Fld := ⟨0x178, 28, 0⟩
def tyz0_BOUND_NS : Fld := ⟨0x17C, 15, 0⟩
def tyz0_DOM_GW_DEV : Fld := ⟨0x180, 12, 0⟩
def tyz0_DOM_GW_VALID : Fld := ⟨0x180, 31, 31⟩
def tyz0_REACH : Fld := ⟨0x200, 31, 0⟩
def eth_CFG_EN : Fld := ⟨0x048, 0, 0⟩
def eth_CFG_SPEED : Fld := ⟨0x048, 2, 1⟩
def eth_CFG_LANE_RATE : Fld := ⟨0x048, 3, 3⟩
def eth_CFG_IPV6 : Fld := ⟨0x048, 4, 4⟩
def eth_CFG_VLAN_ID : Fld := ⟨0x048, 16, 5⟩
def eth_CFG_VLAN_EN : Fld := ⟨0x048, 17, 17⟩
def eth_STS : Fld := ⟨0x04C, 3, 0⟩
def eth_MTU : Fld := ⟨0x050, 13, 0⟩
def eth_DSCP : Fld := ⟨0x054, 5, 0⟩
def eth_PFC_PRIO_PRIO : Fld := ⟨0x058, 2, 0⟩
def eth_PFC_PRIO_PFC_EN : Fld := ⟨0x058, 8, 8⟩
def eth_UDP : Fld := ⟨0x05C, 15, 0⟩
def eth_RTO_US : Fld := ⟨0x060, 13, 0⟩
def eth_PTP_EN : Fld := ⟨0x064, 0, 0⟩
def eth_PTP_TWO_STEP : Fld := ⟨0x064, 1, 1⟩
def eth_PTP_P2P : Fld := ⟨0x064, 2, 2⟩
def eth_PTP_UDP : Fld := ⟨0x064, 3, 3⟩
def eth_PTP_DOMAIN : Fld := ⟨0x064, 15, 8⟩
def eth_LOCAL_MAC0 : Fld := ⟨0x070, 31, 0⟩
def eth_LOCAL_MAC1 : Fld := ⟨0x074, 15, 0⟩
def eth_LOCAL_IP : Fld := ⟨0x078, 31, 0⟩
def eth_TX_DGRAM : Fld := ⟨0x090, 31, 0⟩
def eth_RX_DGRAM : Fld := ⟨0x094, 31, 0⟩
def eth_RESEND : Fld := ⟨0x098, 31, 0⟩
def eth_FCS_ERR : Fld := ⟨0x09C, 31, 0⟩
def eth_PEER0_CTL_PORT : Fld := ⟨0x100, 0, 0⟩
def eth_PEER0_CTL_UP : Fld := ⟨0x100, 1, 1⟩
def eth_PEER0_MAC : Fld := ⟨0x104, 31, 0⟩
def eth_PEER0_IP : Fld := ⟨0x10C, 31, 0⟩
def cell_LOGICAL : Fld := ⟨0x048, 17, 0⟩
def cell_CTXSTS : Fld := ⟨0x04C, 23, 0⟩
def cell_SEQ_STS0_FIN : Fld := ⟨0x050, 3, 0⟩
def cell_SEQ_STS0_LIM_CLAMP : Fld := ⟨0x050, 7, 4⟩
def cell_XDROP : Fld := ⟨0x054, 31, 0⟩
def cell_SEQ_IDLE : Fld := ⟨0x058, 31, 0⟩
def cell_SP_CE : Fld := ⟨0x060, 31, 0⟩
def cell_SP_UE : Fld := ⟨0x064, 31, 0⟩
def cell_SP_POISON_RD : Fld := ⟨0x068, 31, 0⟩
def cell_SP_SCRUB_OW : Fld := ⟨0x06C, 31, 0⟩
def cell_SP_SCRUB_PERIOD_S : Fld := ⟨0x070, 15, 0⟩
def cell_SP_SCRUB_LATE : Fld := ⟨0x070, 31, 31⟩
def cell_MX_CHECK : Fld := ⟨0x074, 31, 0⟩
def cell_MX_FLAGS : Fld := ⟨0x078, 15, 0⟩
def cell_CURDQ : Fld := ⟨0x07C, 15, 0⟩
def cell_RORG0 : Fld := ⟨0x080, 31, 0⟩
def cell_BASE0 : Fld := ⟨0x088, 8, 0⟩
def cell_BOUND0 : Fld := ⟨0x08C, 9, 0⟩
def cell_MXCFG0 : Fld := ⟨0x090, 31, 0⟩
def cell_VX_FLAGS0 : Fld := ⟨0x094, 5, 0⟩
def cell_TOKQ0 : Fld := ⟨0x098, 31, 0⟩
def cell_CNT_VAL : Fld := ⟨0x100, 31, 0⟩
def cell_STRM_IDX_REC : Fld := ⟨0x200, 9, 0⟩
def cell_STRM_IDX_CTX : Fld := ⟨0x200, 11, 10⟩
def cell_STRM_STS : Fld := ⟨0x204, 31, 0⟩
def cell_SE_IDX : Fld := ⟨0x220, 7, 0⟩
def cell_SE_PORT : Fld := ⟨0x224, 31, 0⟩
def cell_MC_IDX : Fld := ⟨0x230, 5, 0⟩
def cell_MC_TABLE : Fld := ⟨0x234, 31, 0⟩
def cell_RED_IDX : Fld := ⟨0x240, 4, 0⟩
def cell_RED_TABLE : Fld := ⟨0x244, 31, 0⟩
def cell_SLOT_WHEEL : Fld := ⟨0x260, 3, 0⟩
def tenant_STATE : Fld := ⟨0x048, 1, 0⟩
def tenant_CTL : Fld := ⟨0x04C, 1, 0⟩
def tenant_Q_CTL_EN : Fld := ⟨0x050, 0, 0⟩
def tenant_Q_CTL_RESET : Fld := ⟨0x050, 1, 1⟩
def tenant_Q_STS : Fld := ⟨0x054, 28, 0⟩
def tenant_SQ_BASE : Fld := ⟨0x058, 31, 0⟩
def tenant_SQ_SIZE : Fld := ⟨0x060, 12, 0⟩
def tenant_CQ_SIZE : Fld := ⟨0x064, 13, 0⟩
def tenant_CQ_BASE : Fld := ⟨0x068, 31, 0⟩
def tenant_SQ_HEAD : Fld := ⟨0x070, 11, 0⟩
def tenant_CQ_TAIL : Fld := ⟨0x074, 31, 0⟩
def tenant_CQ_SKIP : Fld := ⟨0x078, 31, 0⟩
def tenant_IRQ_MOD_COUNT : Fld := ⟨0x07C, 7, 0⟩
def tenant_IRQ_MOD_FRAMES : Fld := ⟨0x07C, 15, 8⟩
def tenant_NOTICE_HEAD : Fld := ⟨0x080, 4, 0⟩
def tenant_NOTICE_ACK : Fld := ⟨0x084, 4, 0⟩
def tenant_NOTICE_LOST : Fld := ⟨0x088, 31, 0⟩
def tenant_FN_VF : Fld := ⟨0x090, 7, 0⟩
def tenant_FN_SLOT : Fld := ⟨0x090, 10, 8⟩
def tenant_FN_EFF : Fld := ⟨0x094, 10, 0⟩
def tenant_APER_BASE : Fld := ⟨0x098, 15, 0⟩
def tenant_APER_LEN : Fld := ⟨0x098, 31, 16⟩
def tenant_QUOTA0_CLASS_MASK : Fld := ⟨0x0A0, 3, 0⟩
def tenant_QUOTA0_SHARE : Fld := ⟨0x0A0, 24, 16⟩
def tenant_QUOTA1_INFLIGHT : Fld := ⟨0x0A4, 12, 0⟩
def tenant_QUOTA1_WARN_PCT : Fld := ⟨0x0A4, 30, 24⟩
def tenant_QUOTA2 : Fld := ⟨0x0A8, 31, 0⟩
def tenant_QUOTA3 : Fld := ⟨0x0AC, 31, 0⟩
def tenant_QUOTA_EFF : Fld := ⟨0x0B0, 31, 0⟩
def tenant_QUOTA_EFF1 : Fld := ⟨0x0B4, 31, 0⟩
def tenant_QUOTA_EFF2 : Fld := ⟨0x0B8, 31, 0⟩
def tenant_QUOTA_EFF3 : Fld := ⟨0x0BC, 31, 0⟩
def tenant_ACCT : Fld := ⟨0x0C0, 31, 0⟩
def tenant_ACCT_CFG : Fld := ⟨0x0E0, 7, 0⟩
def tenant_NOTICE : Fld := ⟨0x100, 31, 0⟩
end R

/-- Fields of the hdr layout. -/
def hdrFields : List FieldDesc := [
  ⟨0x000, 1, 31, 0, .ro, 0, .any, .single⟩,
  ⟨0x004, 1, 15, 0, .ro, 0x100, .any, .single⟩,
  ⟨0x008, 1, 0, 0, .special, 1, .any, .single⟩,
  ⟨0x008, 1, 1, 1, .wo, 0, .any, .single⟩,
  ⟨0x008, 1, 2, 2, .special, 0, .any, .single⟩,
  ⟨0x00C, 1, 31, 0, .ro, 0, .any, .single⟩,
  ⟨0x010, 1, 31, 0, .w1c, 0, .any, .single⟩,
  ⟨0x014, 1, 31, 0, .rw, 0xFFFFFFFF, .any, .single⟩,
  ⟨0x018, 1, 31, 0, .ro, 0, .any, .single⟩,
  ⟨0x01C, 1, 5, 0, .ro, 0, .any, .single⟩,
  ⟨0x020, 1, 31, 0, .counter 31, 0, .any, .single⟩,
  ⟨0x024, 1, 31, 0, .special, 0, .any, .single⟩,
  ⟨0x028, 1, 31, 0, .ro, 0, .any, .single⟩,
  ⟨0x02C, 1, 31, 0, .ro, 0, .any, .single⟩,
  ⟨0x030, 1, 31, 0, .ro, 0, .any, .single⟩,
  ⟨0x040, 1, 31, 0, .ro, 0, .any, .single⟩]
/-- Fields of the top layout. -/
def topFields : List FieldDesc := [
  ⟨0x048, 1, 31, 0, .ro, 0, .any, .single⟩,
  ⟨0x04C, 1, 31, 0, .ro, 0, .any, .single⟩,
  ⟨0x050, 1, 8, 0, .ro, 0, .any, .single⟩,
  ⟨0x054, 1, 1, 0, .rw, 0, .range 0 2, .single⟩,
  ⟨0x054, 1, 8, 8, .wo, 0, .any, .single⟩,
  ⟨0x058, 1, 21, 0, .rw, 115200, .range 9600 3000000, .single⟩,
  ⟨0x05C, 1, 6, 0, .rw, 0x3A, .any, .single⟩]
/-- Fields of the frame layout. -/
def frameFields : List FieldDesc := [
  ⟨0x048, 1, 31, 0, .special, 0x0, .any, .low⟩,
  ⟨0x04C, 1, 31, 0, .special, 0x0, .any, .high⟩,
  ⟨0x050, 1, 1, 0, .rw, 0, .range 0 2, .single⟩,
  ⟨0x054, 1, 8, 0, .rw, 200, .range 1 500, .single⟩,
  ⟨0x058, 1, 11, 0, .rw, 250, .step 50 4000 10, .single⟩,
  ⟨0x05C, 1, 6, 0, .rw, 8, .range 4 100, .single⟩,
  ⟨0x060, 1, 11, 0, .ro, 250, .any, .single⟩,
  ⟨0x064, 1, 6, 0, .ro, 8, .any, .single⟩,
  ⟨0x068, 1, 31, 0, .rw, 0x0, .any, .low⟩,
  ⟨0x06C, 1, 31, 0, .rw, 0x0, .any, .high⟩,
  ⟨0x070, 1, 31, 0, .special, 0x0, .any, .low⟩,
  ⟨0x074, 1, 31, 0, .special, 0x0, .any, .high⟩,
  ⟨0x078, 1, 31, 0, .ro, 0x0, .any, .low⟩,
  ⟨0x07C, 1, 31, 0, .ro, 0x0, .any, .high⟩,
  ⟨0x080, 1, 4, 0, .ro, 0, .any, .single⟩,
  ⟨0x084, 1, 31, 0, .counter 0, 0, .any, .single⟩,
  ⟨0x088, 1, 31, 0, .counter 1, 0, .any, .single⟩,
  ⟨0x08C, 1, 31, 0, .ro, 0, .any, .single⟩,
  ⟨0x090, 1, 9, 0, .rw, 40, .range 10 1000, .single⟩,
  ⟨0x094, 1, 15, 0, .rw, 1000, .range 1 60000, .single⟩,
  ⟨0x098, 1, 1, 0, .rw, 0, .range 0 2, .single⟩,
  ⟨0x098, 1, 4, 4, .rw, 0, .any, .single⟩,
  ⟨0x09C, 1, 31, 0, .ro, 0, .any, .single⟩]
/-- Fields of the sched layout. -/
def schedFields : List FieldDesc := [
  ⟨0x048, 1, 19, 0, .rw, 32000, .range 0 1000000, .single⟩,
  ⟨0x04C, 1, 13, 0, .rw, 8192, .range 256 8192, .single⟩,
  ⟨0x050, 1, 31, 0, .counter 0, 0, .any, .single⟩,
  ⟨0x054, 1, 31, 0, .ro, 0, .any, .single⟩,
  ⟨0x060, 12, 31, 0, .ro, 0, .any, .single⟩,
  ⟨0x090, 4, 8, 0, .ro, 0, .any, .single⟩,
  ⟨0x0A0, 4, 12, 0, .ro, 0, .any, .single⟩,
  ⟨0x0B0, 4, 31, 0, .ro, 0, .any, .single⟩,
  ⟨0x0C0, 4, 31, 0, .ro, 0, .any, .single⟩,
  ⟨0x0D0, 4, 31, 0, .ro, 0, .any, .single⟩,
  ⟨0x0E0, 1, 31, 0, .counter 1, 0, .any, .single⟩,
  ⟨0x0E4, 1, 31, 0, .counter 2, 0, .any, .single⟩,
  ⟨0x0E8, 1, 31, 0, .counter 3, 0, .any, .single⟩,
  ⟨0x0EC, 1, 31, 0, .counter 4, 0, .any, .single⟩,
  ⟨0x100, 1, 7, 0, .rw, 0, .any, .single⟩,
  ⟨0x104, 2, 31, 0, .ro, 0, .any, .single⟩,
  ⟨0x10C, 1, 1, 0, .ro, 0, .any, .single⟩,
  ⟨0x10C, 1, 15, 8, .ro, 0, .any, .single⟩,
  ⟨0x10C, 1, 23, 16, .special, 0, .any, .single⟩,
  ⟨0x10C, 1, 31, 31, .ro, 0, .any, .single⟩]
/-- Fields of the policy layout. -/
def policyFields0 : List FieldDesc := [
  ⟨0x048, 1, 8, 0, .rwl, 64, .range 0 256, .single⟩,
  ⟨0x048, 1, 24, 16, .rwl, 256, .range 0 256, .single⟩,
  ⟨0x04C, 1, 8, 0, .rwl, 64, .range 0 256, .single⟩,
  ⟨0x04C, 1, 24, 16, .rwl, 64, .range 0 256, .single⟩,
  ⟨0x050, 1, 21, 0, .rwl, 2500, .range 0 4000000, .single⟩,
  ⟨0x054, 1, 12, 0, .rwl, 256, .range 1 4096, .single⟩,
  ⟨0x054, 1, 16, 16, .rwl, 1, .any, .single⟩,
  ⟨0x054, 1, 31, 24, .rwl, 16, .range 1 255, .single⟩,
  ⟨0x058, 1, 8, 0, .rwl, 128, .range 0 256, .single⟩,
  ⟨0x058, 1, 24, 16, .rwl, 256, .range 0 256, .single⟩,
  ⟨0x05C, 1, 8, 0, .rwl, 128, .range 0 256, .single⟩,
  ⟨0x05C, 1, 24, 16, .rwl, 128, .range 0 256, .single⟩,
  ⟨0x060, 1, 21, 0, .rwl, 0, .range 0 4000000, .single⟩,
  ⟨0x064, 1, 12, 0, .rwl, 1024, .range 1 4096, .single⟩,
  ⟨0x064, 1, 16, 16, .rwl, 1, .any, .single⟩,
  ⟨0x064, 1, 31, 24, .rwl, 4, .range 1 255, .single⟩,
  ⟨0x068, 1, 8, 0, .rwl, 32, .range 0 256, .single⟩,
  ⟨0x068, 1, 24, 16, .rwl, 256, .range 0 256, .single⟩,
  ⟨0x06C, 1, 8, 0, .rwl, 32, .range 0 256, .single⟩,
  ⟨0x06C, 1, 24, 16, .rwl, 32, .range 0 256, .single⟩,
  ⟨0x070, 1, 21, 0, .rwl, 0, .range 0 4000000, .single⟩,
  ⟨0x074, 1, 12, 0, .rwl, 4096, .range 1 4096, .single⟩,
  ⟨0x074, 1, 16, 16, .rwl, 1, .any, .single⟩,
  ⟨0x074, 1, 31, 24, .rwl, 64, .range 1 255, .single⟩,
  ⟨0x078, 1, 8, 0, .rwl, 0, .range 0 256, .single⟩,
  ⟨0x078, 1, 24, 16, .rwl, 256, .range 0 256, .single⟩,
  ⟨0x07C, 1, 8, 0, .rwl, 0, .range 0 256, .single⟩,
  ⟨0x07C, 1, 24, 16, .rwl, 0, .range 0 256, .single⟩,
  ⟨0x080, 1, 21, 0, .rwl, 0, .range 0 4000000, .single⟩,
  ⟨0x084, 1, 12, 0, .rwl, 4096, .range 1 4096, .single⟩,
  ⟨0x084, 1, 16, 16, .rwl, 1, .any, .single⟩,
  ⟨0x084, 1, 31, 24, .rwl, 255, .range 1 255, .single⟩,
  ⟨0x088, 1, 8, 0, .ro, 64, .any, .single⟩,
  ⟨0x08C, 1, 8, 0, .ro, 128, .any, .single⟩,
  ⟨0x090, 1, 8, 0, .ro, 32, .any, .single⟩,
  ⟨0x094, 1, 8, 0, .ro, 0, .any, .single⟩,
  ⟨0x098, 1, 3, 0, .rwl, 15, .any, .single⟩,
  ⟨0x098, 1, 24, 16, .rwl, 256, .range 0 256, .single⟩,
  ⟨0x09C, 1, 12, 0, .rwl, 4096, .range 1 4096, .single⟩,
  ⟨0x0A0, 1, 10, 0, .rwl, 1024, .range 1 1024, .single⟩]
/-- Fields of the policy layout. -/
def policyFields1 : List FieldDesc := [
  ⟨0x0A4, 1, 0, 0, .rw, 0, .any, .single⟩,
  ⟨0x0A4, 1, 6, 1, .rw, 4, .range 1 32, .single⟩,
  ⟨0x0A4, 1, 31, 16, .rw, 400, .range 16 65535, .single⟩,
  ⟨0x0A8, 1, 15, 0, .rw, 64, .range 1 65535, .single⟩]
/-- Fields of the policy layout. -/
def policyFields : List FieldDesc := policyFields0 ++ policyFields1
/-- Fields of the power layout. -/
def powerFields : List FieldDesc := [
  ⟨0x048, 1, 10, 0, .ro, 1000, .any, .single⟩,
  ⟨0x04C, 1, 10, 0, .rwl, 1000, .range 100 1400, .single⟩,
  ⟨0x04C, 1, 23, 16, .rwl, 50, .range 10 200, .single⟩,
  ⟨0x050, 1, 9, 0, .rwl, 100, .range 20 1000, .single⟩,
  ⟨0x054, 1, 31, 0, .ro, 1000, .any, .single⟩,
  ⟨0x058, 1, 0, 0, .rwl, 0, .any, .single⟩,
  ⟨0x058, 1, 26, 16, .rwl, 1600, .step 800 1800 50, .single⟩,
  ⟨0x05C, 1, 10, 0, .rwl, 800, .step 800 1800 50, .single⟩,
  ⟨0x05C, 1, 26, 16, .rwl, 1800, .step 800 1800 50, .single⟩,
  ⟨0x060, 1, 10, 0, .ro, 1600, .any, .single⟩,
  ⟨0x064, 1, 10, 0, .rw, 200, .range 0 1400, .single⟩,
  ⟨0x068, 1, 7, 0, .special, 0, .any, .single⟩,
  ⟨0x06C, 1, 31, 0, .ro, 0, .any, .single⟩,
  ⟨0x070, 1, 9, 0, .ro, 0, .any, .single⟩,
  ⟨0x080, 1, 31, 0, .accum 0, 0x0, .any, .low⟩,
  ⟨0x084, 1, 31, 0, .accum 0, 0x0, .any, .high⟩,
  ⟨0x088, 1, 31, 0, .accum 1, 0x0, .any, .low⟩,
  ⟨0x08C, 1, 31, 0, .accum 1, 0x0, .any, .high⟩,
  ⟨0x090, 1, 31, 0, .accum 2, 0x0, .any, .low⟩,
  ⟨0x094, 1, 31, 0, .accum 2, 0x0, .any, .high⟩,
  ⟨0x098, 1, 31, 0, .accum 3, 0x0, .any, .low⟩,
  ⟨0x09C, 1, 31, 0, .accum 3, 0x0, .any, .high⟩,
  ⟨0x0A0, 1, 31, 0, .accum 4, 0x0, .any, .low⟩,
  ⟨0x0A4, 1, 31, 0, .accum 4, 0x0, .any, .high⟩,
  ⟨0x0A8, 1, 31, 0, .accum 5, 0x0, .any, .low⟩,
  ⟨0x0AC, 1, 31, 0, .accum 5, 0x0, .any, .high⟩,
  ⟨0x0B0, 1, 31, 0, .accum 6, 0x0, .any, .low⟩,
  ⟨0x0B4, 1, 31, 0, .accum 6, 0x0, .any, .high⟩,
  ⟨0x0B8, 1, 31, 0, .accum 7, 0x0, .any, .low⟩,
  ⟨0x0BC, 1, 31, 0, .accum 7, 0x0, .any, .high⟩,
  ⟨0x0C0, 1, 1, 0, .special, 0, .oneOf [0, 2, 3], .single⟩,
  ⟨0x0C0, 1, 4, 4, .rw, 1, .any, .single⟩,
  ⟨0x0C0, 1, 10, 8, .ro, 0, .any, .single⟩,
  ⟨0x0C0, 1, 13, 12, .ro, 0, .any, .single⟩]
/-- Fields of the energy layout. -/
def energyFields0 : List FieldDesc := [
  ⟨0x048, 1, 15, 0, .rwl, 250, .any, .single⟩,
  ⟨0x04C, 1, 15, 0, .rwl, 3000, .any, .single⟩,
  ⟨0x050, 1, 15, 0, .rwl, 2000, .any, .single⟩,
  ⟨0x054, 1, 10, 0, .rwl, 0, .upToPkg, .single⟩,
  ⟨0x058, 1, 15, 0, .rw, 300, .any, .single⟩,
  ⟨0x05C, 1, 15, 0, .rw, 8, .any, .single⟩,
  ⟨0x060, 1, 13, 0, .rw, 400, .range 1 10000, .single⟩,
  ⟨0x068, 1, 31, 0, .special, 0x0, .any, .low⟩,
  ⟨0x06C, 1, 31, 0, .special, 0x0, .any, .high⟩,
  ⟨0x070, 1, 0, 0, .ro, 0, .any, .single⟩,
  ⟨0x100, 1, 15, 0, .rwl, 0, .range 0 1439, .single⟩,
  ⟨0x100, 1, 23, 16, .rwl, 0, .any, .single⟩,
  ⟨0x104, 1, 31, 0, .rwl, 0, .any, .single⟩,
  ⟨0x110, 1, 15, 0, .rwl, 0, .range 0 1439, .single⟩,
  ⟨0x110, 1, 23, 16, .rwl, 0, .any, .single⟩,
  ⟨0x114, 1, 31, 0, .rwl, 0, .any, .single⟩,
  ⟨0x120, 1, 15, 0, .rwl, 0, .range 0 1439, .single⟩,
  ⟨0x120, 1, 23, 16, .rwl, 0, .any, .single⟩,
  ⟨0x124, 1, 31, 0, .rwl, 0, .any, .single⟩,
  ⟨0x130, 1, 15, 0, .rwl, 0, .range 0 1439, .single⟩,
  ⟨0x130, 1, 23, 16, .rwl, 0, .any, .single⟩,
  ⟨0x134, 1, 31, 0, .rwl, 0, .any, .single⟩,
  ⟨0x140, 1, 15, 0, .rwl, 0, .range 0 1439, .single⟩,
  ⟨0x140, 1, 23, 16, .rwl, 0, .any, .single⟩,
  ⟨0x144, 1, 31, 0, .rwl, 0, .any, .single⟩,
  ⟨0x150, 1, 15, 0, .rwl, 0, .range 0 1439, .single⟩,
  ⟨0x150, 1, 23, 16, .rwl, 0, .any, .single⟩,
  ⟨0x154, 1, 31, 0, .rwl, 0, .any, .single⟩,
  ⟨0x160, 1, 15, 0, .rwl, 0, .range 0 1439, .single⟩,
  ⟨0x160, 1, 23, 16, .rwl, 0, .any, .single⟩,
  ⟨0x164, 1, 31, 0, .rwl, 0, .any, .single⟩,
  ⟨0x170, 1, 15, 0, .rwl, 0, .range 0 1439, .single⟩,
  ⟨0x170, 1, 23, 16, .rwl, 0, .any, .single⟩,
  ⟨0x174, 1, 31, 0, .rwl, 0, .any, .single⟩,
  ⟨0x180, 1, 15, 0, .rwl, 0, .range 0 1439, .single⟩,
  ⟨0x180, 1, 23, 16, .rwl, 0, .any, .single⟩,
  ⟨0x184, 1, 31, 0, .rwl, 0, .any, .single⟩,
  ⟨0x190, 1, 15, 0, .rwl, 0, .range 0 1439, .single⟩,
  ⟨0x190, 1, 23, 16, .rwl, 0, .any, .single⟩,
  ⟨0x194, 1, 31, 0, .rwl, 0, .any, .single⟩]
/-- Fields of the energy layout. -/
def energyFields1 : List FieldDesc := [
  ⟨0x1A0, 1, 15, 0, .rwl, 0, .range 0 1439, .single⟩,
  ⟨0x1A0, 1, 23, 16, .rwl, 0, .any, .single⟩,
  ⟨0x1A4, 1, 31, 0, .rwl, 0, .any, .single⟩,
  ⟨0x1B0, 1, 15, 0, .rwl, 0, .range 0 1439, .single⟩,
  ⟨0x1B0, 1, 23, 16, .rwl, 0, .any, .single⟩,
  ⟨0x1B4, 1, 31, 0, .rwl, 0, .any, .single⟩,
  ⟨0x1C0, 1, 15, 0, .rwl, 0, .range 0 1439, .single⟩,
  ⟨0x1C0, 1, 23, 16, .rwl, 0, .any, .single⟩,
  ⟨0x1C4, 1, 31, 0, .rwl, 0, .any, .single⟩,
  ⟨0x1D0, 1, 15, 0, .rwl, 0, .range 0 1439, .single⟩,
  ⟨0x1D0, 1, 23, 16, .rwl, 0, .any, .single⟩,
  ⟨0x1D4, 1, 31, 0, .rwl, 0, .any, .single⟩,
  ⟨0x1E0, 1, 15, 0, .rwl, 0, .range 0 1439, .single⟩,
  ⟨0x1E0, 1, 23, 16, .rwl, 0, .any, .single⟩,
  ⟨0x1E4, 1, 31, 0, .rwl, 0, .any, .single⟩,
  ⟨0x1F0, 1, 15, 0, .rwl, 0, .range 0 1439, .single⟩,
  ⟨0x1F0, 1, 23, 16, .rwl, 0, .any, .single⟩,
  ⟨0x1F4, 1, 31, 0, .rwl, 0, .any, .single⟩,
  ⟨0x200, 1, 31, 0, .rw, 0x0, .any, .low⟩,
  ⟨0x204, 1, 31, 0, .rw, 0x0, .any, .high⟩,
  ⟨0x208, 1, 7, 0, .ro, 0xFF, .any, .single⟩,
  ⟨0x210, 1, 5, 0, .rwl, 15, .oneOf [1, 2, 3, 4, 5, 6, 8, 9, 10, 12, 15, 16, 18, 20, 24, 30, 32, 36, 40, 45, 48, 60], .single⟩,
  ⟨0x214, 1, 5, 0, .ro, 15, .any, .single⟩,
  ⟨0x218, 1, 5, 0, .rw, 1, .range 1 60, .single⟩,
  ⟨0x220, 10, 31, 0, .ro, 0, .any, .single⟩,
  ⟨0x280, 32, 31, 0, .ro, 0, .any, .single⟩,
  ⟨0x300, 2, 31, 0, .ro, 0, .any, .single⟩,
  ⟨0x310, 1, 31, 0, .special, 0, .any, .single⟩,
  ⟨0x314, 1, 31, 0, .ro, 0, .any, .single⟩,
  ⟨0x320, 1, 2, 0, .ro, 0, .any, .single⟩]
/-- Fields of the energy layout. -/
def energyFields : List FieldDesc := energyFields0 ++ energyFields1
/-- Fields of the therm layout. -/
def thermFields : List FieldDesc := [
  ⟨0x048, 1, 6, 0, .rw, 95, .range 70 95, .single⟩,
  ⟨0x04C, 1, 31, 0, .counter 0, 0, .any, .single⟩,
  ⟨0x050, 1, 31, 0, .ro, 0, .any, .single⟩,
  ⟨0x054, 2, 31, 0, .ro, 0, .any, .single⟩,
  ⟨0x05C, 1, 15, 0, .ro, 0, .any, .single⟩,
  ⟨0x100, 64, 15, 0, .ro, 0, .any, .single⟩]
/-- Fields of the wdt layout. -/
def wdtFields : List FieldDesc := [
  ⟨0x048, 1, 31, 0, .special, 1, .any, .single⟩,
  ⟨0x04C, 1, 31, 0, .special, 1000000, .range 100 60000000, .single⟩,
  ⟨0x050, 1, 31, 0, .special, 100000, .range 10 10000000, .single⟩,
  ⟨0x054, 1, 15, 0, .special, 1, .range 1 65535, .single⟩,
  ⟨0x054, 1, 31, 16, .ro, 1, .any, .single⟩,
  ⟨0x058, 1, 31, 0, .wo, 0, .any, .single⟩,
  ⟨0x05C, 1, 31, 0, .ro, 0, .any, .single⟩,
  ⟨0x060, 1, 31, 0, .ro, 0, .any, .single⟩,
  ⟨0x064, 1, 31, 0, .ro, 0, .any, .single⟩,
  ⟨0x080, 22, 31, 0, .ro, 0, .any, .single⟩,
  ⟨0x100, 24, 31, 0, .ro, 0, .any, .single⟩]
/-- Fields of the trace layout. -/
def traceFields : List FieldDesc := [
  ⟨0x048, 1, 0, 0, .rw, 0, .any, .single⟩,
  ⟨0x050, 1, 31, 0, .rw, 0x0, .any, .low⟩,
  ⟨0x054, 1, 31, 0, .rw, 0x0, .any, .high⟩,
  ⟨0x058, 1, 31, 0, .rw, 0x1000, .any, .low⟩,
  ⟨0x05C, 1, 31, 0, .rw, 0x0, .any, .high⟩,
  ⟨0x060, 1, 31, 0, .rw, 0x80FE, .any, .single⟩,
  ⟨0x068, 1, 31, 0, .ro, 0x0, .any, .low⟩,
  ⟨0x06C, 1, 31, 0, .ro, 0x0, .any, .high⟩,
  ⟨0x070, 1, 31, 0, .rw, 0x0, .any, .low⟩,
  ⟨0x074, 1, 31, 0, .rw, 0x0, .any, .high⟩,
  ⟨0x078, 1, 31, 0, .counter 0, 0, .any, .single⟩,
  ⟨0x080, 4, 31, 0, .wo, 0, .any, .single⟩,
  ⟨0x090, 1, 0, 0, .wo, 0, .any, .single⟩,
  ⟨0x090, 1, 10, 8, .ro, 0, .any, .single⟩,
  ⟨0x094, 1, 31, 0, .special, 0, .any, .single⟩,
  ⟨0x098, 1, 31, 0, .ro, 0, .any, .single⟩,
  ⟨0x09C, 1, 0, 0, .wo, 0, .any, .single⟩]
/-- Fields of the ras layout. -/
def rasFields : List FieldDesc := [
  ⟨0x048, 1, 31, 0, .counter 0, 0, .any, .single⟩,
  ⟨0x04C, 1, 31, 0, .counter 1, 0, .any, .single⟩,
  ⟨0x050, 1, 0, 0, .w1c, 0, .any, .single⟩,
  ⟨0x054, 1, 8, 0, .ro, 0, .any, .single⟩,
  ⟨0x058, 1, 8, 0, .special, 0, .any, .single⟩,
  ⟨0x05C, 1, 31, 0, .counter 2, 0, .any, .single⟩,
  ⟨0x060, 1, 31, 0, .special, 0, .any, .single⟩,
  ⟨0x064, 1, 15, 0, .ro, 0, .any, .single⟩,
  ⟨0x068, 2, 31, 0, .ro, 0, .any, .single⟩,
  ⟨0x070, 2, 31, 0, .ro, 0, .any, .single⟩,
  ⟨0x078, 1, 31, 0, .ro, 0, .any, .single⟩]
/-- Fields of the repair layout. -/
def repairFields : List FieldDesc := [
  ⟨0x048, 1, 3, 0, .rwl, 2, .range 1 15, .single⟩,
  ⟨0x048, 1, 29, 16, .rwl, 168, .range 1 8760, .single⟩,
  ⟨0x04C, 1, 15, 0, .rwl, 256, .range 1 65535, .single⟩,
  ⟨0x050, 1, 30, 0, .rwl, 86400, .range 1 2147483647, .single⟩,
  ⟨0x058, 1, 0, 0, .wo, 0, .any, .single⟩,
  ⟨0x05C, 1, 7, 0, .rw, 16, .range 1 255, .single⟩,
  ⟨0x060, 1, 0, 0, .rw, 0, .any, .single⟩,
  ⟨0x060, 1, 28, 16, .rw, 0, .any, .single⟩,
  ⟨0x064, 1, 0, 0, .wo, 0, .any, .single⟩,
  ⟨0x068, 1, 16, 0, .rw, 1000, .range 100 100000, .single⟩,
  ⟨0x06C, 1, 3, 0, .rw, 2, .range 1 15, .single⟩,
  ⟨0x070, 1, 31, 0, .rw, 0, .any, .single⟩,
  ⟨0x074, 1, 0, 0, .wo, 0, .any, .single⟩,
  ⟨0x078, 1, 31, 0, .ro, 0, .any, .single⟩,
  ⟨0x100, 32, 31, 0, .ro, 0x10101010, .any, .single⟩,
  ⟨0x180, 32, 31, 0, .ro, 0x10101010, .any, .single⟩,
  ⟨0x200, 68, 31, 0, .ro, 0, .any, .single⟩]
/-- Fields of the nv layout. -/
def nvFields : List FieldDesc := [
  ⟨0x048, 1, 31, 0, .ro, 0, .any, .single⟩,
  ⟨0x050, 1, 31, 0, .ro, 0, .any, .single⟩,
  ⟨0x058, 2, 31, 0, .ro, 0, .any, .single⟩,
  ⟨0x060, 1, 6, 0, .special, 0, .any, .single⟩,
  ⟨0x064, 1, 31, 0, .rw, 0, .any, .single⟩,
  ⟨0x068, 1, 31, 0, .wo, 0, .any, .single⟩,
  ⟨0x06C, 1, 0, 0, .wo, 0, .any, .single⟩,
  ⟨0x070, 1, 31, 0, .rw, 0x0, .any, .low⟩,
  ⟨0x074, 1, 31, 0, .rw, 0x0, .any, .high⟩,
  ⟨0x078, 1, 1, 0, .rw, 0, .range 0 2, .single⟩,
  ⟨0x07C, 1, 31, 0, .rw, 0, .any, .single⟩,
  ⟨0x080, 1, 0, 0, .wo, 0, .any, .single⟩,
  ⟨0x080, 1, 1, 1, .rw, 0, .any, .single⟩,
  ⟨0x084, 1, 11, 0, .ro, 0, .any, .single⟩,
  ⟨0x088, 1, 31, 0, .counter 0, 0, .any, .single⟩,
  ⟨0x08C, 1, 31, 0, .ro, 0, .any, .single⟩,
  ⟨0x090, 1, 31, 0, .rw, 0, .any, .single⟩,
  ⟨0x094, 1, 31, 0, .rw, 0, .any, .single⟩,
  ⟨0x098, 1, 1, 0, .ro, 0, .any, .single⟩,
  ⟨0x09C, 1, 31, 0, .counter 1, 0, .any, .single⟩]
/-- Fields of the rind layout. -/
def rindFields : List FieldDesc := [
  ⟨0x048, 4, 31, 0, .ro, 0, .any, .single⟩,
  ⟨0x060, 1, 1, 0, .special, 0, .any, .single⟩,
  ⟨0x060, 1, 9, 8, .special, 0, .any, .single⟩,
  ⟨0x060, 1, 19, 16, .special, 0, .any, .single⟩,
  ⟨0x064, 1, 5, 0, .ro, 0, .any, .single⟩,
  ⟨0x068, 1, 31, 0, .ro, 0, .any, .single⟩,
  ⟨0x070, 12, 31, 0, .ro, 0, .any, .single⟩,
  ⟨0x0A0, 24, 31, 0, .wo, 0, .any, .single⟩,
  ⟨0x100, 1, 1, 0, .wo, 0, .any, .single⟩,
  ⟨0x100, 1, 12, 8, .wo, 0, .any, .single⟩,
  ⟨0x110, 19, 31, 0, .wo, 0, .any, .single⟩,
  ⟨0x160, 12, 31, 0, .wo, 0, .any, .single⟩,
  ⟨0x190, 1, 31, 0, .ro, 0, .any, .single⟩,
  ⟨0x194, 1, 2, 0, .ro, 0, .any, .single⟩,
  ⟨0x198, 1, 7, 0, .ro, 0, .any, .single⟩,
  ⟨0x1A0, 1, 31, 0, .wo, 0, .any, .single⟩,
  ⟨0x1B0, 24, 31, 0, .wo, 0, .any, .single⟩,
  ⟨0x220, 1, 2, 0, .ro, 0, .any, .single⟩,
  ⟨0x224, 1, 2, 0, .wo, 0, .any, .single⟩,
  ⟨0x228, 1, 1, 0, .ro, 0, .any, .single⟩,
  ⟨0x22C, 1, 0, 0, .special, 0, .any, .single⟩]
/-- Fields of the cal layout. -/
def calFields : List FieldDesc := [
  ⟨0x048, 1, 3, 0, .special, 0, .any, .single⟩,
  ⟨0x048, 1, 24, 16, .special, 0, .any, .single⟩,
  ⟨0x04C, 1, 31, 0, .special, 0, .any, .single⟩,
  ⟨0x050, 1, 31, 0, .ro, 0, .any, .single⟩,
  ⟨0x054, 1, 31, 0, .ro, 0, .any, .single⟩,
  ⟨0x058, 1, 31, 0, .ro, 0, .any, .single⟩,
  ⟨0x05C, 1, 31, 0, .ro, 0, .any, .single⟩,
  ⟨0x060, 1, 31, 0, .ro, 0, .any, .single⟩]
/-- Fields of the audit layout. -/
def auditFields : List FieldDesc := [
  ⟨0x048, 12, 31, 0, .wo, 0, .any, .single⟩,
  ⟨0x080, 12, 31, 0, .ro, 0, .any, .single⟩,
  ⟨0x0B0, 1, 31, 0, .ro, 0, .any, .single⟩,
  ⟨0x0C0, 12, 31, 0, .ro, 0, .any, .single⟩,
  ⟨0x0F0, 1, 31, 0, .special, 0, .any, .single⟩,
  ⟨0x0F4, 1, 31, 0, .ro, 0, .any, .single⟩,
  ⟨0x0F8, 1, 31, 0, .ro, 0, .any, .single⟩]
/-- Fields of the cluster layout. -/
def clusterFields : List FieldDesc := [
  ⟨0x048, 1, 15, 0, .ro, 0, .any, .single⟩,
  ⟨0x050, 8, 31, 0, .rw, 0, .any, .single⟩,
  ⟨0x070, 1, 31, 0, .ro, 4096, .any, .single⟩,
  ⟨0x074, 1, 31, 0, .counter 0, 0, .any, .single⟩,
  ⟨0x078, 1, 31, 0, .counter 1, 0, .any, .single⟩,
  ⟨0x07C, 1, 31, 0, .counter 2, 0, .any, .single⟩,
  ⟨0x080, 1, 31, 0, .counter 3, 0, .any, .single⟩,
  ⟨0x088, 2, 31, 0, .ro, 0, .any, .single⟩,
  ⟨0x090, 2, 31, 0, .ro, 0, .any, .single⟩]
/-- Fields of the stream layout. -/
def streamFields0 : List FieldDesc := [
  ⟨0x100, 1, 31, 0, .special, 0x10000000, .any, .single⟩,
  ⟨0x104, 1, 7, 0, .special, 0, .any, .single⟩,
  ⟨0x108, 1, 7, 0, .ro, 0, .any, .single⟩,
  ⟨0x10C, 1, 31, 0, .ro, 0, .any, .single⟩,
  ⟨0x110, 1, 31, 0, .ro, 0, .any, .single⟩,
  ⟨0x118, 1, 31, 0, .accum 0, 0x0, .any, .low⟩,
  ⟨0x11C, 1, 31, 0, .accum 0, 0x0, .any, .high⟩,
  ⟨0x120, 1, 31, 0, .special, 0x10002000, .any, .single⟩,
  ⟨0x124, 1, 7, 0, .special, 0, .any, .single⟩,
  ⟨0x128, 1, 7, 0, .ro, 0, .any, .single⟩,
  ⟨0x12C, 1, 31, 0, .ro, 0, .any, .single⟩,
  ⟨0x130, 1, 31, 0, .ro, 0, .any, .single⟩,
  ⟨0x138, 1, 31, 0, .accum 0, 0x0, .any, .low⟩,
  ⟨0x13C, 1, 31, 0, .accum 0, 0x0, .any, .high⟩,
  ⟨0x140, 1, 31, 0, .special, 0x10004000, .any, .single⟩,
  ⟨0x144, 1, 7, 0, .special, 0, .any, .single⟩,
  ⟨0x148, 1, 7, 0, .ro, 0, .any, .single⟩,
  ⟨0x14C, 1, 31, 0, .ro, 0, .any, .single⟩,
  ⟨0x150, 1, 31, 0, .ro, 0, .any, .single⟩,
  ⟨0x158, 1, 31, 0, .accum 0, 0x0, .any, .low⟩,
  ⟨0x15C, 1, 31, 0, .accum 0, 0x0, .any, .high⟩,
  ⟨0x160, 1, 31, 0, .special, 0x10006000, .any, .single⟩,
  ⟨0x164, 1, 7, 0, .special, 0, .any, .single⟩,
  ⟨0x168, 1, 7, 0, .ro, 0, .any, .single⟩,
  ⟨0x16C, 1, 31, 0, .ro, 0, .any, .single⟩,
  ⟨0x170, 1, 31, 0, .ro, 0, .any, .single⟩,
  ⟨0x178, 1, 31, 0, .accum 0, 0x0, .any, .low⟩,
  ⟨0x17C, 1, 31, 0, .accum 0, 0x0, .any, .high⟩,
  ⟨0x180, 1, 31, 0, .special, 0x10008000, .any, .single⟩,
  ⟨0x184, 1, 7, 0, .special, 0, .any, .single⟩,
  ⟨0x188, 1, 7, 0, .ro, 0, .any, .single⟩,
  ⟨0x18C, 1, 31, 0, .ro, 0, .any, .single⟩,
  ⟨0x190, 1, 31, 0, .ro, 0, .any, .single⟩,
  ⟨0x198, 1, 31, 0, .accum 0, 0x0, .any, .low⟩,
  ⟨0x19C, 1, 31, 0, .accum 0, 0x0, .any, .high⟩,
  ⟨0x1A0, 1, 31, 0, .special, 0x1000a000, .any, .single⟩,
  ⟨0x1A4, 1, 7, 0, .special, 0, .any, .single⟩,
  ⟨0x1A8, 1, 7, 0, .ro, 0, .any, .single⟩,
  ⟨0x1AC, 1, 31, 0, .ro, 0, .any, .single⟩,
  ⟨0x1B0, 1, 31, 0, .ro, 0, .any, .single⟩]
/-- Fields of the stream layout. -/
def streamFields1 : List FieldDesc := [
  ⟨0x1B8, 1, 31, 0, .accum 0, 0x0, .any, .low⟩,
  ⟨0x1BC, 1, 31, 0, .accum 0, 0x0, .any, .high⟩,
  ⟨0x1C0, 1, 31, 0, .special, 0x1000c000, .any, .single⟩,
  ⟨0x1C4, 1, 7, 0, .special, 0, .any, .single⟩,
  ⟨0x1C8, 1, 7, 0, .ro, 0, .any, .single⟩,
  ⟨0x1CC, 1, 31, 0, .ro, 0, .any, .single⟩,
  ⟨0x1D0, 1, 31, 0, .ro, 0, .any, .single⟩,
  ⟨0x1D8, 1, 31, 0, .accum 0, 0x0, .any, .low⟩,
  ⟨0x1DC, 1, 31, 0, .accum 0, 0x0, .any, .high⟩,
  ⟨0x1E0, 1, 31, 0, .special, 0x1000e000, .any, .single⟩,
  ⟨0x1E4, 1, 7, 0, .special, 0, .any, .single⟩,
  ⟨0x1E8, 1, 7, 0, .ro, 0, .any, .single⟩,
  ⟨0x1EC, 1, 31, 0, .ro, 0, .any, .single⟩,
  ⟨0x1F0, 1, 31, 0, .ro, 0, .any, .single⟩,
  ⟨0x1F8, 1, 31, 0, .accum 0, 0x0, .any, .low⟩,
  ⟨0x1FC, 1, 31, 0, .accum 0, 0x0, .any, .high⟩,
  ⟨0x200, 1, 31, 0, .special, 0x10010000, .any, .single⟩,
  ⟨0x204, 1, 7, 0, .special, 0, .any, .single⟩,
  ⟨0x208, 1, 7, 0, .ro, 0, .any, .single⟩,
  ⟨0x20C, 1, 31, 0, .ro, 0, .any, .single⟩,
  ⟨0x210, 1, 31, 0, .ro, 0, .any, .single⟩,
  ⟨0x218, 1, 31, 0, .accum 0, 0x0, .any, .low⟩,
  ⟨0x21C, 1, 31, 0, .accum 0, 0x0, .any, .high⟩,
  ⟨0x220, 1, 31, 0, .special, 0x10012000, .any, .single⟩,
  ⟨0x224, 1, 7, 0, .special, 0, .any, .single⟩,
  ⟨0x228, 1, 7, 0, .ro, 0, .any, .single⟩,
  ⟨0x22C, 1, 31, 0, .ro, 0, .any, .single⟩,
  ⟨0x230, 1, 31, 0, .ro, 0, .any, .single⟩,
  ⟨0x238, 1, 31, 0, .accum 0, 0x0, .any, .low⟩,
  ⟨0x23C, 1, 31, 0, .accum 0, 0x0, .any, .high⟩,
  ⟨0x240, 1, 31, 0, .special, 0x10014000, .any, .single⟩,
  ⟨0x244, 1, 7, 0, .special, 0, .any, .single⟩,
  ⟨0x248, 1, 7, 0, .ro, 0, .any, .single⟩,
  ⟨0x24C, 1, 31, 0, .ro, 0, .any, .single⟩,
  ⟨0x250, 1, 31, 0, .ro, 0, .any, .single⟩,
  ⟨0x258, 1, 31, 0, .accum 0, 0x0, .any, .low⟩,
  ⟨0x25C, 1, 31, 0, .accum 0, 0x0, .any, .high⟩,
  ⟨0x260, 1, 31, 0, .special, 0x10016000, .any, .single⟩,
  ⟨0x264, 1, 7, 0, .special, 0, .any, .single⟩,
  ⟨0x268, 1, 7, 0, .ro, 0, .any, .single⟩]
/-- Fields of the stream layout. -/
def streamFields2 : List FieldDesc := [
  ⟨0x26C, 1, 31, 0, .ro, 0, .any, .single⟩,
  ⟨0x270, 1, 31, 0, .ro, 0, .any, .single⟩,
  ⟨0x278, 1, 31, 0, .accum 0, 0x0, .any, .low⟩,
  ⟨0x27C, 1, 31, 0, .accum 0, 0x0, .any, .high⟩,
  ⟨0x280, 1, 31, 0, .special, 0x10018000, .any, .single⟩,
  ⟨0x284, 1, 7, 0, .special, 0, .any, .single⟩,
  ⟨0x288, 1, 7, 0, .ro, 0, .any, .single⟩,
  ⟨0x28C, 1, 31, 0, .ro, 0, .any, .single⟩,
  ⟨0x290, 1, 31, 0, .ro, 0, .any, .single⟩,
  ⟨0x298, 1, 31, 0, .accum 0, 0x0, .any, .low⟩,
  ⟨0x29C, 1, 31, 0, .accum 0, 0x0, .any, .high⟩,
  ⟨0x2A0, 1, 31, 0, .special, 0x1001a000, .any, .single⟩,
  ⟨0x2A4, 1, 7, 0, .special, 0, .any, .single⟩,
  ⟨0x2A8, 1, 7, 0, .ro, 0, .any, .single⟩,
  ⟨0x2AC, 1, 31, 0, .ro, 0, .any, .single⟩,
  ⟨0x2B0, 1, 31, 0, .ro, 0, .any, .single⟩,
  ⟨0x2B8, 1, 31, 0, .accum 0, 0x0, .any, .low⟩,
  ⟨0x2BC, 1, 31, 0, .accum 0, 0x0, .any, .high⟩,
  ⟨0x2C0, 1, 31, 0, .special, 0x1001c000, .any, .single⟩,
  ⟨0x2C4, 1, 7, 0, .special, 0, .any, .single⟩,
  ⟨0x2C8, 1, 7, 0, .ro, 0, .any, .single⟩,
  ⟨0x2CC, 1, 31, 0, .ro, 0, .any, .single⟩,
  ⟨0x2D0, 1, 31, 0, .ro, 0, .any, .single⟩,
  ⟨0x2D8, 1, 31, 0, .accum 0, 0x0, .any, .low⟩,
  ⟨0x2DC, 1, 31, 0, .accum 0, 0x0, .any, .high⟩,
  ⟨0x2E0, 1, 31, 0, .special, 0x1001e000, .any, .single⟩,
  ⟨0x2E4, 1, 7, 0, .special, 0, .any, .single⟩,
  ⟨0x2E8, 1, 7, 0, .ro, 0, .any, .single⟩,
  ⟨0x2EC, 1, 31, 0, .ro, 0, .any, .single⟩,
  ⟨0x2F0, 1, 31, 0, .ro, 0, .any, .single⟩,
  ⟨0x2F8, 1, 31, 0, .accum 0, 0x0, .any, .low⟩,
  ⟨0x2FC, 1, 31, 0, .accum 0, 0x0, .any, .high⟩,
  ⟨0x300, 1, 31, 0, .special, 0x10020000, .any, .single⟩,
  ⟨0x304, 1, 7, 0, .special, 0, .any, .single⟩,
  ⟨0x308, 1, 7, 0, .ro, 0, .any, .single⟩,
  ⟨0x30C, 1, 31, 0, .ro, 0, .any, .single⟩,
  ⟨0x310, 1, 31, 0, .ro, 0, .any, .single⟩,
  ⟨0x318, 1, 31, 0, .accum 0, 0x0, .any, .low⟩,
  ⟨0x31C, 1, 31, 0, .accum 0, 0x0, .any, .high⟩,
  ⟨0x320, 1, 31, 0, .special, 0x10022000, .any, .single⟩]
/-- Fields of the stream layout. -/
def streamFields3 : List FieldDesc := [
  ⟨0x324, 1, 7, 0, .special, 0, .any, .single⟩,
  ⟨0x328, 1, 7, 0, .ro, 0, .any, .single⟩,
  ⟨0x32C, 1, 31, 0, .ro, 0, .any, .single⟩,
  ⟨0x330, 1, 31, 0, .ro, 0, .any, .single⟩,
  ⟨0x338, 1, 31, 0, .accum 0, 0x0, .any, .low⟩,
  ⟨0x33C, 1, 31, 0, .accum 0, 0x0, .any, .high⟩,
  ⟨0x340, 1, 31, 0, .special, 0x10024000, .any, .single⟩,
  ⟨0x344, 1, 7, 0, .special, 0, .any, .single⟩,
  ⟨0x348, 1, 7, 0, .ro, 0, .any, .single⟩,
  ⟨0x34C, 1, 31, 0, .ro, 0, .any, .single⟩,
  ⟨0x350, 1, 31, 0, .ro, 0, .any, .single⟩,
  ⟨0x358, 1, 31, 0, .accum 0, 0x0, .any, .low⟩,
  ⟨0x35C, 1, 31, 0, .accum 0, 0x0, .any, .high⟩,
  ⟨0x360, 1, 31, 0, .special, 0x10026000, .any, .single⟩,
  ⟨0x364, 1, 7, 0, .special, 0, .any, .single⟩,
  ⟨0x368, 1, 7, 0, .ro, 0, .any, .single⟩,
  ⟨0x36C, 1, 31, 0, .ro, 0, .any, .single⟩,
  ⟨0x370, 1, 31, 0, .ro, 0, .any, .single⟩,
  ⟨0x378, 1, 31, 0, .accum 0, 0x0, .any, .low⟩,
  ⟨0x37C, 1, 31, 0, .accum 0, 0x0, .any, .high⟩,
  ⟨0x380, 1, 31, 0, .special, 0x10028000, .any, .single⟩,
  ⟨0x384, 1, 7, 0, .special, 0, .any, .single⟩,
  ⟨0x388, 1, 7, 0, .ro, 0, .any, .single⟩,
  ⟨0x38C, 1, 31, 0, .ro, 0, .any, .single⟩,
  ⟨0x390, 1, 31, 0, .ro, 0, .any, .single⟩,
  ⟨0x398, 1, 31, 0, .accum 0, 0x0, .any, .low⟩,
  ⟨0x39C, 1, 31, 0, .accum 0, 0x0, .any, .high⟩,
  ⟨0x3A0, 1, 31, 0, .special, 0x1002a000, .any, .single⟩,
  ⟨0x3A4, 1, 7, 0, .special, 0, .any, .single⟩,
  ⟨0x3A8, 1, 7, 0, .ro, 0, .any, .single⟩,
  ⟨0x3AC, 1, 31, 0, .ro, 0, .any, .single⟩,
  ⟨0x3B0, 1, 31, 0, .ro, 0, .any, .single⟩,
  ⟨0x3B8, 1, 31, 0, .accum 0, 0x0, .any, .low⟩,
  ⟨0x3BC, 1, 31, 0, .accum 0, 0x0, .any, .high⟩,
  ⟨0x3C0, 1, 31, 0, .special, 0x1002c000, .any, .single⟩,
  ⟨0x3C4, 1, 7, 0, .special, 0, .any, .single⟩,
  ⟨0x3C8, 1, 7, 0, .ro, 0, .any, .single⟩,
  ⟨0x3CC, 1, 31, 0, .ro, 0, .any, .single⟩,
  ⟨0x3D0, 1, 31, 0, .ro, 0, .any, .single⟩,
  ⟨0x3D8, 1, 31, 0, .accum 0, 0x0, .any, .low⟩]
/-- Fields of the stream layout. -/
def streamFields4 : List FieldDesc := [
  ⟨0x3DC, 1, 31, 0, .accum 0, 0x0, .any, .high⟩,
  ⟨0x3E0, 1, 31, 0, .special, 0x1002e000, .any, .single⟩,
  ⟨0x3E4, 1, 7, 0, .special, 0, .any, .single⟩,
  ⟨0x3E8, 1, 7, 0, .ro, 0, .any, .single⟩,
  ⟨0x3EC, 1, 31, 0, .ro, 0, .any, .single⟩,
  ⟨0x3F0, 1, 31, 0, .ro, 0, .any, .single⟩,
  ⟨0x3F8, 1, 31, 0, .accum 0, 0x0, .any, .low⟩,
  ⟨0x3FC, 1, 31, 0, .accum 0, 0x0, .any, .high⟩,
  ⟨0x400, 1, 31, 0, .special, 0x10030000, .any, .single⟩,
  ⟨0x404, 1, 7, 0, .special, 0, .any, .single⟩,
  ⟨0x408, 1, 7, 0, .ro, 0, .any, .single⟩,
  ⟨0x40C, 1, 31, 0, .ro, 0, .any, .single⟩,
  ⟨0x410, 1, 31, 0, .ro, 0, .any, .single⟩,
  ⟨0x418, 1, 31, 0, .accum 0, 0x0, .any, .low⟩,
  ⟨0x41C, 1, 31, 0, .accum 0, 0x0, .any, .high⟩,
  ⟨0x420, 1, 31, 0, .special, 0x10032000, .any, .single⟩,
  ⟨0x424, 1, 7, 0, .special, 0, .any, .single⟩,
  ⟨0x428, 1, 7, 0, .ro, 0, .any, .single⟩,
  ⟨0x42C, 1, 31, 0, .ro, 0, .any, .single⟩,
  ⟨0x430, 1, 31, 0, .ro, 0, .any, .single⟩,
  ⟨0x438, 1, 31, 0, .accum 0, 0x0, .any, .low⟩,
  ⟨0x43C, 1, 31, 0, .accum 0, 0x0, .any, .high⟩,
  ⟨0x440, 1, 31, 0, .special, 0x10034000, .any, .single⟩,
  ⟨0x444, 1, 7, 0, .special, 0, .any, .single⟩,
  ⟨0x448, 1, 7, 0, .ro, 0, .any, .single⟩,
  ⟨0x44C, 1, 31, 0, .ro, 0, .any, .single⟩,
  ⟨0x450, 1, 31, 0, .ro, 0, .any, .single⟩,
  ⟨0x458, 1, 31, 0, .accum 0, 0x0, .any, .low⟩,
  ⟨0x45C, 1, 31, 0, .accum 0, 0x0, .any, .high⟩,
  ⟨0x460, 1, 31, 0, .special, 0x10036000, .any, .single⟩,
  ⟨0x464, 1, 7, 0, .special, 0, .any, .single⟩,
  ⟨0x468, 1, 7, 0, .ro, 0, .any, .single⟩,
  ⟨0x46C, 1, 31, 0, .ro, 0, .any, .single⟩,
  ⟨0x470, 1, 31, 0, .ro, 0, .any, .single⟩,
  ⟨0x478, 1, 31, 0, .accum 0, 0x0, .any, .low⟩,
  ⟨0x47C, 1, 31, 0, .accum 0, 0x0, .any, .high⟩,
  ⟨0x480, 1, 31, 0, .special, 0x10038000, .any, .single⟩,
  ⟨0x484, 1, 7, 0, .special, 0, .any, .single⟩,
  ⟨0x488, 1, 7, 0, .ro, 0, .any, .single⟩,
  ⟨0x48C, 1, 31, 0, .ro, 0, .any, .single⟩]
/-- Fields of the stream layout. -/
def streamFields5 : List FieldDesc := [
  ⟨0x490, 1, 31, 0, .ro, 0, .any, .single⟩,
  ⟨0x498, 1, 31, 0, .accum 0, 0x0, .any, .low⟩,
  ⟨0x49C, 1, 31, 0, .accum 0, 0x0, .any, .high⟩,
  ⟨0x4A0, 1, 31, 0, .special, 0x1003a000, .any, .single⟩,
  ⟨0x4A4, 1, 7, 0, .special, 0, .any, .single⟩,
  ⟨0x4A8, 1, 7, 0, .ro, 0, .any, .single⟩,
  ⟨0x4AC, 1, 31, 0, .ro, 0, .any, .single⟩,
  ⟨0x4B0, 1, 31, 0, .ro, 0, .any, .single⟩,
  ⟨0x4B8, 1, 31, 0, .accum 0, 0x0, .any, .low⟩,
  ⟨0x4BC, 1, 31, 0, .accum 0, 0x0, .any, .high⟩,
  ⟨0x4C0, 1, 31, 0, .special, 0x1003c000, .any, .single⟩,
  ⟨0x4C4, 1, 7, 0, .special, 0, .any, .single⟩,
  ⟨0x4C8, 1, 7, 0, .ro, 0, .any, .single⟩,
  ⟨0x4CC, 1, 31, 0, .ro, 0, .any, .single⟩,
  ⟨0x4D0, 1, 31, 0, .ro, 0, .any, .single⟩,
  ⟨0x4D8, 1, 31, 0, .accum 0, 0x0, .any, .low⟩,
  ⟨0x4DC, 1, 31, 0, .accum 0, 0x0, .any, .high⟩,
  ⟨0x4E0, 1, 31, 0, .special, 0x1003e000, .any, .single⟩,
  ⟨0x4E4, 1, 7, 0, .special, 0, .any, .single⟩,
  ⟨0x4E8, 1, 7, 0, .ro, 0, .any, .single⟩,
  ⟨0x4EC, 1, 31, 0, .ro, 0, .any, .single⟩,
  ⟨0x4F0, 1, 31, 0, .ro, 0, .any, .single⟩,
  ⟨0x4F8, 1, 31, 0, .accum 0, 0x0, .any, .low⟩,
  ⟨0x4FC, 1, 31, 0, .accum 0, 0x0, .any, .high⟩,
  ⟨0x500, 1, 4, 0, .rw, 0, .any, .single⟩,
  ⟨0x500, 1, 15, 8, .rw, 0, .any, .single⟩,
  ⟨0x504, 1, 31, 0, .ro, 0, .any, .single⟩]
/-- Fields of the stream layout. -/
def streamFields : List FieldDesc := streamFields0 ++ streamFields1 ++ streamFields2 ++ streamFields3 ++ streamFields4 ++ streamFields5
/-- Fields of the mem layout. -/
def memFields : List FieldDesc := [
  ⟨0x048, 1, 16, 0, .ro, 0, .any, .single⟩,
  ⟨0x04C, 1, 31, 0, .counter 0, 0, .any, .single⟩,
  ⟨0x050, 1, 31, 0, .counter 1, 0, .any, .single⟩,
  ⟨0x054, 1, 31, 0, .counter 2, 0, .any, .single⟩,
  ⟨0x058, 1, 31, 0, .counter 3, 0, .any, .single⟩,
  ⟨0x05C, 1, 7, 0, .rw, 24, .any, .single⟩,
  ⟨0x060, 1, 15, 0, .ro, 0, .any, .single⟩,
  ⟨0x064, 1, 31, 0, .counter 4, 0, .any, .single⟩,
  ⟨0x080, 2, 31, 0, .ro, 0, .any, .single⟩,
  ⟨0x088, 1, 8, 0, .ro, 0, .any, .single⟩]
/-- Fields of the press layout. -/
def pressFields : List FieldDesc := [
  ⟨0x048, 1, 7, 0, .ro, 0, .any, .single⟩,
  ⟨0x04C, 1, 6, 0, .ro, 0, .any, .single⟩,
  ⟨0x050, 1, 31, 0, .counter 0, 0, .any, .single⟩,
  ⟨0x054, 1, 31, 0, .counter 1, 0, .any, .single⟩,
  ⟨0x058, 1, 31, 0, .accum 4, 0x0, .any, .low⟩,
  ⟨0x05C, 1, 31, 0, .accum 4, 0x0, .any, .high⟩,
  ⟨0x060, 1, 31, 0, .counter 2, 0, .any, .single⟩,
  ⟨0x064, 1, 31, 0, .counter 3, 0, .any, .single⟩,
  ⟨0x080, 4, 31, 0, .ro, 0xFFFF, .any, .single⟩]
/-- Fields of the host layout. -/
def hostFields : List FieldDesc := [
  ⟨0x048, 1, 13, 0, .ro, 0, .any, .single⟩,
  ⟨0x04C, 1, 1, 0, .rw, 2, .range 0 2, .single⟩,
  ⟨0x04C, 1, 16, 8, .rw, 0, .any, .single⟩,
  ⟨0x04C, 1, 28, 24, .rw, 2, .range 1 16, .single⟩,
  ⟨0x050, 1, 24, 0, .ro, 0, .any, .single⟩,
  ⟨0x054, 1, 16, 0, .ro, 0, .any, .single⟩,
  ⟨0x058, 1, 31, 0, .counter 0, 0, .any, .single⟩,
  ⟨0x05C, 1, 31, 0, .counter 1, 0, .any, .single⟩]
/-- Fields of the msix layout. -/
def msixFields : List FieldDesc := [
  ⟨0x048, 1, 31, 0, .ro, 64, .any, .single⟩,
  ⟨0x04C, 1, 31, 0, .ro, 2048, .any, .single⟩,
  ⟨0x050, 1, 31, 0, .counter 0, 0, .any, .single⟩,
  ⟨0x054, 1, 31, 0, .counter 1, 0, .any, .single⟩,
  ⟨0x058, 1, 31, 0, .counter 2, 0, .any, .single⟩]
/-- Fields of the tyz layout. -/
def tyzFields : List FieldDesc := [
  ⟨0x048, 1, 0, 0, .special, 1, .any, .single⟩,
  ⟨0x048, 1, 2, 1, .rw, 2, .range 0 2, .single⟩,
  ⟨0x04C, 1, 16, 0, .ro, 0, .any, .single⟩,
  ⟨0x050, 1, 15, 0, .rw, 4096, .range 1 65535, .single⟩,
  ⟨0x054, 1, 31, 0, .counter 0, 0, .any, .single⟩,
  ⟨0x058, 1, 31, 0, .counter 1, 0, .any, .single⟩,
  ⟨0x05C, 1, 31, 0, .counter 2, 0, .any, .single⟩,
  ⟨0x060, 1, 5, 0, .rw, 0, .any, .single⟩,
  ⟨0x060, 1, 6, 6, .rw, 0, .any, .single⟩,
  ⟨0x064, 2, 31, 0, .ro, 0, .any, .single⟩,
  ⟨0x070, 1, 31, 0, .ro, 0, .any, .single⟩,
  ⟨0x074, 1, 31, 0, .ro, 0, .any, .single⟩]
/-- Fields of the tyz0 layout. -/
def tyz0Fields : List FieldDesc := [
  ⟨0x100, 1, 12, 0, .ro, 0, .any, .single⟩,
  ⟨0x104, 1, 2, 0, .ro, 0, .any, .single⟩,
  ⟨0x108, 1, 13, 0, .ro, 0, .any, .single⟩,
  ⟨0x10C, 1, 4, 0, .ro, 0, .any, .single⟩,
  ⟨0x110, 1, 12, 0, .special, 0, .any, .single⟩,
  ⟨0x110, 1, 16, 16, .special, 0, .any, .single⟩,
  ⟨0x120, 4, 31, 0, .special, 0, .any, .single⟩,
  ⟨0x130, 1, 31, 0, .special, 0x0, .any, .low⟩,
  ⟨0x134, 1, 31, 0, .special, 0x0, .any, .high⟩,
  ⟨0x138, 1, 0, 0, .ro, 0, .any, .single⟩,
  ⟨0x138, 1, 1, 1, .wo, 0, .any, .single⟩,
  ⟨0x140, 1, 31, 0, .counter 3, 0, .any, .single⟩,
  ⟨0x144, 1, 16, 0, .rw, 1000, .range 10 100000, .single⟩,
  ⟨0x150, 1, 7, 0, .special, 0, .any, .single⟩,
  ⟨0x154, 3, 31, 0, .special, 0, .any, .single⟩,
  ⟨0x170, 1, 12, 0, .rw, 0, .any, .single⟩,
  ⟨0x170, 1, 28, 16, .rw, 0, .any, .single⟩,
  ⟨0x174, 1, 12, 0, .rw, 0, .any, .single⟩,
  ⟨0x174, 1, 28, 16, .rw, 0, .any, .single⟩,
  ⟨0x178, 1, 28, 0, .ro, 0, .any, .single⟩,
  ⟨0x17C, 1, 15, 0, .ro, 0, .any, .single⟩,
  ⟨0x180, 8, 12, 0, .rw, 0, .any, .single⟩,
  ⟨0x180, 8, 31, 31, .rw, 0, .any, .single⟩,
  ⟨0x200, 256, 31, 0, .ro, 0, .any, .single⟩]
/-- Fields of the eth layout. -/
def ethFields0 : List FieldDesc := [
  ⟨0x048, 1, 0, 0, .special, 0, .any, .single⟩,
  ⟨0x048, 1, 2, 1, .rw, 3, .any, .single⟩,
  ⟨0x048, 1, 3, 3, .rw, 1, .any, .single⟩,
  ⟨0x048, 1, 4, 4, .rw, 0, .any, .single⟩,
  ⟨0x048, 1, 16, 5, .rw, 0, .any, .single⟩,
  ⟨0x048, 1, 17, 17, .rw, 0, .any, .single⟩,
  ⟨0x04C, 1, 3, 0, .ro, 0, .any, .single⟩,
  ⟨0x050, 1, 13, 0, .rw, 9000, .range 4300 9216, .single⟩,
  ⟨0x054, 1, 5, 0, .rw, 0, .any, .single⟩,
  ⟨0x058, 1, 2, 0, .rw, 3, .any, .single⟩,
  ⟨0x058, 1, 8, 8, .rw, 1, .any, .single⟩,
  ⟨0x05C, 1, 15, 0, .rw, 0xB5A0, .any, .single⟩,
  ⟨0x060, 1, 13, 0, .rw, 50, .range 10 10000, .single⟩,
  ⟨0x064, 1, 0, 0, .rw, 0, .any, .single⟩,
  ⟨0x064, 1, 1, 1, .rw, 0, .any, .single⟩,
  ⟨0x064, 1, 2, 2, .rw, 0, .any, .single⟩,
  ⟨0x064, 1, 3, 3, .rw, 0, .any, .single⟩,
  ⟨0x064, 1, 15, 8, .rw, 0, .any, .single⟩,
  ⟨0x070, 1, 31, 0, .rw, 0, .any, .single⟩,
  ⟨0x074, 1, 15, 0, .rw, 0, .any, .single⟩,
  ⟨0x078, 4, 31, 0, .rw, 0, .any, .single⟩,
  ⟨0x090, 1, 31, 0, .counter 0, 0, .any, .single⟩,
  ⟨0x094, 1, 31, 0, .counter 1, 0, .any, .single⟩,
  ⟨0x098, 1, 31, 0, .counter 2, 0, .any, .single⟩,
  ⟨0x09C, 1, 31, 0, .counter 3, 0, .any, .single⟩,
  ⟨0x100, 1, 0, 0, .rw, 0, .any, .single⟩,
  ⟨0x100, 1, 1, 1, .ro, 0, .any, .single⟩,
  ⟨0x104, 1, 31, 0, .rw, 0, .any, .single⟩,
  ⟨0x108, 1, 15, 0, .rw, 0, .any, .single⟩,
  ⟨0x10C, 4, 31, 0, .rw, 0, .any, .single⟩,
  ⟨0x120, 1, 0, 0, .rw, 0, .any, .single⟩,
  ⟨0x120, 1, 1, 1, .ro, 0, .any, .single⟩,
  ⟨0x124, 1, 31, 0, .rw, 0, .any, .single⟩,
  ⟨0x128, 1, 15, 0, .rw, 0, .any, .single⟩,
  ⟨0x12C, 4, 31, 0, .rw, 0, .any, .single⟩,
  ⟨0x140, 1, 0, 0, .rw, 0, .any, .single⟩,
  ⟨0x140, 1, 1, 1, .ro, 0, .any, .single⟩,
  ⟨0x144, 1, 31, 0, .rw, 0, .any, .single⟩,
  ⟨0x148, 1, 15, 0, .rw, 0, .any, .single⟩,
  ⟨0x14C, 4, 31, 0, .rw, 0, .any, .single⟩,
  ⟨0x160, 1, 0, 0, .rw, 0, .any, .single⟩,
  ⟨0x160, 1, 1, 1, .ro, 0, .any, .single⟩,
  ⟨0x164, 1, 31, 0, .rw, 0, .any, .single⟩,
  ⟨0x168, 1, 15, 0, .rw, 0, .any, .single⟩]
/-- Fields of the eth layout. -/
def ethFields1 : List FieldDesc := [
  ⟨0x16C, 4, 31, 0, .rw, 0, .any, .single⟩,
  ⟨0x180, 1, 0, 0, .rw, 0, .any, .single⟩,
  ⟨0x180, 1, 1, 1, .ro, 0, .any, .single⟩,
  ⟨0x184, 1, 31, 0, .rw, 0, .any, .single⟩,
  ⟨0x188, 1, 15, 0, .rw, 0, .any, .single⟩,
  ⟨0x18C, 4, 31, 0, .rw, 0, .any, .single⟩,
  ⟨0x1A0, 1, 0, 0, .rw, 0, .any, .single⟩,
  ⟨0x1A0, 1, 1, 1, .ro, 0, .any, .single⟩,
  ⟨0x1A4, 1, 31, 0, .rw, 0, .any, .single⟩,
  ⟨0x1A8, 1, 15, 0, .rw, 0, .any, .single⟩,
  ⟨0x1AC, 4, 31, 0, .rw, 0, .any, .single⟩,
  ⟨0x1C0, 1, 0, 0, .rw, 0, .any, .single⟩,
  ⟨0x1C0, 1, 1, 1, .ro, 0, .any, .single⟩,
  ⟨0x1C4, 1, 31, 0, .rw, 0, .any, .single⟩,
  ⟨0x1C8, 1, 15, 0, .rw, 0, .any, .single⟩,
  ⟨0x1CC, 4, 31, 0, .rw, 0, .any, .single⟩,
  ⟨0x1E0, 1, 0, 0, .rw, 0, .any, .single⟩,
  ⟨0x1E0, 1, 1, 1, .ro, 0, .any, .single⟩,
  ⟨0x1E4, 1, 31, 0, .rw, 0, .any, .single⟩,
  ⟨0x1E8, 1, 15, 0, .rw, 0, .any, .single⟩,
  ⟨0x1EC, 4, 31, 0, .rw, 0, .any, .single⟩]
/-- Fields of the eth layout. -/
def ethFields : List FieldDesc := ethFields0 ++ ethFields1
/-- Fields of the cell layout. -/
def cellFields0 : List FieldDesc := [
  ⟨0x048, 1, 17, 0, .ro, 0, .any, .single⟩,
  ⟨0x04C, 1, 23, 0, .ro, 0, .any, .single⟩,
  ⟨0x050, 1, 3, 0, .ro, 0, .any, .single⟩,
  ⟨0x050, 1, 7, 4, .w1c, 0, .any, .single⟩,
  ⟨0x054, 1, 31, 0, .counter 5, 0, .any, .single⟩,
  ⟨0x058, 1, 31, 0, .ro, 0, .any, .single⟩,
  ⟨0x060, 1, 31, 0, .counter 0, 0, .any, .single⟩,
  ⟨0x064, 1, 31, 0, .counter 1, 0, .any, .single⟩,
  ⟨0x068, 1, 31, 0, .counter 2, 0, .any, .single⟩,
  ⟨0x06C, 1, 31, 0, .counter 3, 0, .any, .single⟩,
  ⟨0x070, 1, 15, 0, .rw, 600, .any, .single⟩,
  ⟨0x070, 1, 31, 31, .w1c, 0, .any, .single⟩,
  ⟨0x074, 1, 31, 0, .counter 4, 0, .any, .single⟩,
  ⟨0x078, 1, 15, 0, .w1c, 0, .any, .single⟩,
  ⟨0x07C, 1, 15, 0, .ro, 0, .any, .single⟩,
  ⟨0x080, 2, 31, 0, .ro, 0, .any, .single⟩,
  ⟨0x088, 1, 8, 0, .ro, 0, .any, .single⟩,
  ⟨0x08C, 1, 9, 0, .ro, 0, .any, .single⟩,
  ⟨0x090, 1, 31, 0, .ro, 0, .any, .single⟩,
  ⟨0x094, 1, 5, 0, .w1c, 0, .any, .single⟩,
  ⟨0x098, 1, 31, 0, .ro, 0, .any, .single⟩,
  ⟨0x0A0, 2, 31, 0, .ro, 0, .any, .single⟩,
  ⟨0x0A8, 1, 8, 0, .ro, 0, .any, .single⟩,
  ⟨0x0AC, 1, 9, 0, .ro, 0, .any, .single⟩,
  ⟨0x0B0, 1, 31, 0, .ro, 0, .any, .single⟩,
  ⟨0x0B4, 1, 5, 0, .w1c, 0, .any, .single⟩,
  ⟨0x0B8, 1, 31, 0, .ro, 0, .any, .single⟩,
  ⟨0x0C0, 2, 31, 0, .ro, 0, .any, .single⟩,
  ⟨0x0C8, 1, 8, 0, .ro, 0, .any, .single⟩,
  ⟨0x0CC, 1, 9, 0, .ro, 0, .any, .single⟩,
  ⟨0x0D0, 1, 31, 0, .ro, 0, .any, .single⟩,
  ⟨0x0D4, 1, 5, 0, .w1c, 0, .any, .single⟩,
  ⟨0x0D8, 1, 31, 0, .ro, 0, .any, .single⟩,
  ⟨0x0E0, 2, 31, 0, .ro, 0, .any, .single⟩,
  ⟨0x0E8, 1, 8, 0, .ro, 0, .any, .single⟩,
  ⟨0x0EC, 1, 9, 0, .ro, 0, .any, .single⟩,
  ⟨0x0F0, 1, 31, 0, .ro, 0, .any, .single⟩,
  ⟨0x0F4, 1, 5, 0, .w1c, 0, .any, .single⟩,
  ⟨0x0F8, 1, 31, 0, .ro, 0, .any, .single⟩,
  ⟨0x100, 64, 31, 0, .ro, 0, .any, .single⟩]
/-- Fields of the cell layout. -/
def cellFields1 : List FieldDesc := [
  ⟨0x200, 1, 9, 0, .rw, 0, .any, .single⟩,
  ⟨0x200, 1, 11, 10, .rw, 0, .any, .single⟩,
  ⟨0x204, 3, 31, 0, .ro, 0, .any, .single⟩,
  ⟨0x220, 1, 7, 0, .special, 0, .any, .single⟩,
  ⟨0x224, 1, 31, 0, .special, 0, .any, .single⟩,
  ⟨0x230, 1, 5, 0, .special, 0, .any, .single⟩,
  ⟨0x234, 2, 31, 0, .special, 0, .any, .single⟩,
  ⟨0x240, 1, 4, 0, .special, 0, .any, .single⟩,
  ⟨0x244, 4, 31, 0, .special, 0, .any, .single⟩,
  ⟨0x260, 5, 3, 0, .special, 0, .any, .single⟩]
/-- Fields of the cell layout. -/
def cellFields : List FieldDesc := cellFields0 ++ cellFields1
/-- Fields of the tenant layout. -/
def tenantFields : List FieldDesc := [
  ⟨0x048, 1, 1, 0, .ro, 0, .any, .single⟩,
  ⟨0x04C, 1, 1, 0, .wo, 0, .any, .single⟩,
  ⟨0x050, 1, 0, 0, .special, 0, .any, .single⟩,
  ⟨0x050, 1, 1, 1, .wo, 0, .any, .single⟩,
  ⟨0x054, 1, 28, 0, .ro, 1, .any, .single⟩,
  ⟨0x058, 1, 31, 0, .special, 0x0, .any, .low⟩,
  ⟨0x05C, 1, 31, 0, .special, 0x0, .any, .high⟩,
  ⟨0x060, 1, 12, 0, .special, 16, .range 8 4096, .single⟩,
  ⟨0x064, 1, 13, 0, .special, 16, .range 8 8192, .single⟩,
  ⟨0x068, 1, 31, 0, .special, 0x0, .any, .low⟩,
  ⟨0x06C, 1, 31, 0, .special, 0x0, .any, .high⟩,
  ⟨0x070, 1, 11, 0, .ro, 0, .any, .single⟩,
  ⟨0x074, 1, 31, 0, .ro, 0x80000000, .any, .single⟩,
  ⟨0x078, 1, 31, 0, .counter 0, 0, .any, .single⟩,
  ⟨0x07C, 1, 7, 0, .rw, 1, .range 1 255, .single⟩,
  ⟨0x07C, 1, 15, 8, .rw, 0, .any, .single⟩,
  ⟨0x080, 1, 4, 0, .ro, 0, .any, .single⟩,
  ⟨0x084, 1, 4, 0, .special, 0, .any, .single⟩,
  ⟨0x088, 1, 31, 0, .counter 1, 0, .any, .single⟩,
  ⟨0x090, 1, 7, 0, .special, 0, .any, .single⟩,
  ⟨0x090, 1, 10, 8, .special, 0, .any, .single⟩,
  ⟨0x094, 1, 10, 0, .ro, 0, .any, .single⟩,
  ⟨0x098, 1, 15, 0, .rw, 0, .any, .single⟩,
  ⟨0x098, 1, 31, 16, .rw, 0, .any, .single⟩,
  ⟨0x0A0, 1, 3, 0, .rw, 15, .any, .single⟩,
  ⟨0x0A0, 1, 24, 16, .rw, 256, .range 0 256, .single⟩,
  ⟨0x0A4, 1, 12, 0, .rw, 4096, .range 1 4096, .single⟩,
  ⟨0x0A4, 1, 30, 24, .rw, 90, .range 50 99, .single⟩,
  ⟨0x0A8, 1, 31, 0, .rw, 0, .any, .single⟩,
  ⟨0x0AC, 1, 31, 0, .rw, 0, .any, .single⟩,
  ⟨0x0B0, 1, 31, 0, .ro, 0x100000F, .any, .single⟩,
  ⟨0x0B4, 1, 31, 0, .ro, 0x5A001000, .any, .single⟩,
  ⟨0x0B8, 1, 31, 0, .ro, 0, .any, .single⟩,
  ⟨0x0BC, 1, 31, 0, .ro, 0, .any, .single⟩,
  ⟨0x0C0, 8, 31, 0, .ro, 0, .any, .single⟩,
  ⟨0x0E0, 1, 7, 0, .rw, 4, .any, .single⟩,
  ⟨0x100, 64, 31, 0, .ro, 0, .any, .single⟩]

end Sys2Proof.Machine
end

