-- ==== Sys2Proof/Machine/ClusterTypes.lean ====
section
/-! DEFINITION. The state of the control cluster: caches, write-back buffers, bus requests and grants (R464 to R488). -/
namespace Sys2Proof.Machine

/-- MOESI states of a valid line (R472); an unlisted line is I. -/
inductive Moesi where
  | m | o | e | s
deriving DecidableEq, Repr

/-- A line of a data cache or a write-back buffer: state, 64 bytes, poisoned granules. -/
structure CLine where
  st : Moesi
  data : List Byte
  poison : List Nat
deriving DecidableEq, Repr

/-- What a core does with a line it asked for (R480): nothing but hold it, a load or LR of bytes, a store, an instruction fetch. -/
inductive CoreAcc where
  | none
  | load (off size : Nat) (lr : Bool)
  | store (off : Nat) (bytes : List Byte)
  | fetch (off : Nat)
deriving DecidableEq, Repr

/-- Bus transactions (R473, R475, R481). -/
inductive BusKind where
  | rd | rdX | upgr | rdCur | wb | wrInv | wrMrg
deriving DecidableEq, Repr

/-- A request that waits for its grant. -/
structure BusReq where
  who : Nat
  kind : BusKind
  line : Nat
  acc : CoreAcc
deriving DecidableEq, Repr

/-- A granted transaction whose data have not been supplied (R478 to R480): the state its requester installs (none: it installs nothing),
the core that is its supplier (none: home), the data once its supplier holds them, and the later transactions that its requester sees
while it waits. -/
structure BusGrant where
  who : Nat
  kind : BusKind
  line : Nat
  acc : CoreAcc
  inst : Option Moesi
  from_ : Option Nat
  data : Option (List Byte × List Nat)
  after : List (Nat × BusKind)
  /-- bytes a BusWrMrg merges: offset within the line -/
  mrg : Nat × List Byte
  at_ : Dword
deriving DecidableEq, Repr

/-- A core's caches and buffer: data lines, instruction lines, write-back entries (R481), the line of its LR, its last heartbeat, its
CORE_UE reports, and whether the debug module halts it. -/
structure Core where
  l1d : SMap CLine
  l1i : SMap (List Byte × List Nat)
  wb : List (Nat × CLine)
  lr : Option Nat
  hbAt : Dword
  ueTimes : List Dword
  halted : Bool
deriving DecidableEq, Repr

/-- What an access to control SRAM has found and the device has still to count and report (R468, R484): a CE, a UE met by a requester at
an offset, a line of a core that is out of service. -/
inductive SramNote where
  | ce
  | ue (who off : Nat)
  | dead (core line : Nat)
deriving DecidableEq, Repr

/-- The control cluster: cores by number, requests, grants in grant order, the last requester granted (8: AP), and notes with the instants
of their accesses. -/
structure Cluster where
  cores : SMap Core
  reqs : List BusReq
  grants : List BusGrant
  last : Nat
  notes : List (SramNote × Dword)
deriving DecidableEq, Repr

def Core.zero : Core := ⟨[], [], [], none, 0, [], false⟩
def Cluster.zero : Cluster := ⟨[], [], [], 8, []⟩

end Sys2Proof.Machine
end

