-- ==== Sys2Proof/Machine/GridTypes.lean ====
section
/-! DEFINITION. The state of the grid: granules, contexts, engines, routers and cells (R57 to R267). -/
namespace Sys2Proof.Machine

/-- An ECC-protected memory: its bytes (an unlisted byte is 0) and the class of each granule (unlisted: clean). The
bytes of a CE granule are its corrected bytes; those of a UE granule its raw bytes. -/
structure EccMem where
  bytes : SMap Byte
  marks : SMap EccClass
deriving DecidableEq, Repr

/-- One element slot of a tile register, a bank or the sum buffer: value, poison bit, latent parity error (R156, R166, R167). -/
structure Slot where
  v : Word
  poison : Bool
  bad : Bool
deriving DecidableEq, Repr

/-- A counter of a context (R209). -/
structure Counter where
  v : Nat
  init : Nat
  limit : Nat
  step : Nat
deriving DecidableEq, Repr

/-- A control token (R206), with the poison its packet carried (R124). -/
structure Token where
  v : Nat
  poison : Bool
deriving DecidableEq, Repr

/-- A token output's binding (Table 7.11): KIND 0 unused, 1 internal, 2 external. -/
structure ToEntry where
  dx : Nat
  dy : Nat
  ti : Nat
  kind : Nat
deriving DecidableEq, Repr

/-- Context states of Table 7.1, by their codes. -/
inductive CtxState where
  | empty | loading | ready | active | suspended | held
deriving DecidableEq, Repr

/-- A stream end of a cell (R238): the stream record of Table 7.12 and its positions and credits. -/
structure StreamEnd where
  id : Nat
  dir : Nat
  kind : Nat
  fmt : Nat
  slotSets : Nat
  peerDx : Nat
  peerDy : Nat
  feed : Nat
  bufOff : Nat
  bufLen : Nat
  param : List Byte
  /-- peer bound: physical position, region and STREAM_ID of the other end (none: not bound, C = 0). -/
  peer : Option (Nat × Nat × Nat)
  /-- inbound: units arrived; outbound: units filled, in sequence -/
  wr : Nat
  /-- inbound: units released; outbound: units sent -/
  rd : Nat
  /-- outbound: bytes written since a slot was last sent, as a 64-bit mask by slot (R247) -/
  filled : SMap Nat
  /-- inbound: units read whole and not yet released (R246) -/
  readDone : List Nat
  /-- C at a producer end; places freed and not yet returned at a consumer end (R236) -/
  credits : Nat
  bound : Nat
  nextSeq : Nat
  error : Bool
  /-- outbound: FIN is set and LAST has not yet been sent -/
  lastDue : Bool
  /-- inbound: when the first release not yet returned was made (R241) -/
  firstFree : Option Dword
  /-- multicast source: credit count of each leaf (R261) -/
  leafCredits : SMap Nat
deriving DecidableEq, Repr

/-- A weight tile (R141, R159): elements at `32·k + n`, exponents per column, checksum weights per reduction position,
columns whose exponent and elements whose granule arrived poisoned (R156). -/
structure WTile where
  elems : SMap Int
  exps : SMap Nat
  sums : SMap Int
  badCols : List Nat
  badElems : List Nat
deriving DecidableEq, Repr

/-- An accumulator bank: elements at `32·i + n` in the exact integer sense, row exponents, and whether
the array may fill it (R148, R193). -/
structure Bank where
  elems : SMap Slot
  rowExp : SMap Nat
  wExp : SMap Nat
  taken : Bool
  aovf : Bool
deriving DecidableEq, Repr

/-- The matrix engine and reduction unit of a cell, shared by its contexts (R146 to R160, R169). -/
structure Matrix where
  act : WTile
  shadow : WTile
  shadowComplete : Bool
  shadowValid : Bool
  a0 : Bank
  a1 : Bank
  sum : SMap Slot
  /-- MX flags raised by the sum buffer's tile since FIRST -/
  sumFl : Nat
  redVal : Word
  redIdx : Word
deriving DecidableEq, Repr

/-- One stored context of a cell (R201). -/
structure Ctx where
  state : CtxState
  orgX : Nat
  orgY : Nat
  w : Nat
  h : Nat
  region : Nat
  base : Nat
  bound : Nat
  mxcfg : Nat
  record : Bool
  saveOff : Nat
  trig : List Trigger
  cnt : List Counter
  ti : SMap (List Token)
  toMap : List ToEntry
  fin : Bool
  limClamp : Bool
  idle : Nat
  tiles : SMap Slot
  masks : SMap (BitVec 256)
  vxFlags : Nat
  mxFlags : Nat
  curd : List (List Slot)
  /-- sub-tiles of an emission that stalls because all eight entries are held (R191) -/
  curdLate : List (List Slot)
  streams : List StreamEnd
  /-- the engine state a cut saved (R157): the parts the save area's bytes do not name -/
  saved : Option Matrix
deriving DecidableEq, Repr

/-- A waiting reduction operand set of a router entry (R84, R85): REGION and TAG, SEQ, and the packets by input port. -/
structure RedPend where
  key : Nat
  seq : Nat
  ops : List (Nat × MeshPacket)
deriving DecidableEq, Repr

/-- A router (R64 to R91): waiting packets by input port, used credits by port and network, tables and combining store.
Table entries are words; a shadow entry is in `…Sh` until tick step 6. -/
structure Router where
  waiting : List (Nat × MeshPacket)
  promoted : List MeshPacket
  creditUsed : SMap Nat
  localQ : List MeshPacket
  mc : SMap Word
  mcSh : SMap Word
  red : SMap Word
  redSh : SMap Word
  shadowed : Bool
  wheel : SMap Nat
  wheelSh : SMap (Option Nat)
  sePort : SMap Word
  pend : List RedPend
  planeFaults : Nat
  plane2 : Bool
deriving DecidableEq, Repr

/-- What a physical position holds of a cell besides its router (R57 to R61, R201): contexts, engines, accepted operations in
firing order, scratchpad slice, pending CE write-backs (granule, corrected bytes), scrubber. -/
structure Cell where
  ctxs : SMap Ctx
  active : Nat
  mx : Matrix
  mxq : List (Nat × OpFields)
  vxq : List (Nat × OpFields)
  slice : EccMem
  wbq : List (Nat × List Byte)
  scrubPos : Nat
  /-- when the scrubber's pass began here; none: as the grid left its reset -/
  passStart : Option Dword
  /-- data last delivered to an engine or by a remote read, and its poisoned granules (R112, R116) -/
  rdata : List Byte
  rpoison : List Nat
deriving DecidableEq, Repr

/-- An access to the scratchpad window of PF0's BAR4, and the soft errors that have struck the slice (R131). -/
structure Bar4Req where
  write : Bool
  off : Nat
  size : Nat
  data : TlpData
  hits : List Upset
deriving DecidableEq, Repr

/-- The repair state of one physical position (R446): strikes and CE times in the window, faulty mark. -/
structure Strikes where
  times : List Dword
  ceTimes : List Dword
  faulty : Bool
deriving DecidableEq, Repr

def Counter.zero : Counter := ⟨0, 0, 1, 1⟩
def Slot.zero : Slot := ⟨0, false, false⟩
def EccMem.zero : EccMem := ⟨[], []⟩
/-- An EMPTY context. -/
def Ctx.blank : Ctx :=
  ⟨.empty, 0, 0, 0, 0, 0, 0, 0, 0, false, 0, [], [], [], [], false, false, 0, [], [], 0, 0, [], [], [], none⟩
def WTile.zero : WTile := ⟨[], [], [], [], []⟩
def Bank.zero : Bank := ⟨[], [], [], false, false⟩
def Matrix.zero : Matrix := ⟨WTile.zero, WTile.zero, false, false, Bank.zero, Bank.zero, [], 0, 0, 0⟩
def Router.zero : Router := ⟨[], [], [], [], [], [], [], [], false, [], [], [], [], 0, false⟩
def Cell.zero : Cell := ⟨[], 0, Matrix.zero, [], [], EccMem.zero, [], 0, none, [], []⟩
def Strikes.zero : Strikes := ⟨[], [], false⟩

end Sys2Proof.Machine
end

