-- ==== Sys2Proof/Machine/MemTypes.lean ====
section
/-! DEFINITION. Modules, presses and stream engines (R251 to R304). -/
namespace Sys2Proof.Machine

/-- A module channel (R268 to R281): the generation its SPD gives, its channel view, and which bytes of it were written since the
interleave set was last re-formed (R276). What MEMn.STS shows stands in the register. -/
structure Module where
  gen2 : Bool
  mem : EccMem
  reformed : Bool
  written : SMap Bool
  wbq : List Nat
  scrubPos : Nat
  /-- module temperature, in 1/256 °C -/
  temp : Int
  /-- instants of UE counts, and of writes whose retry failed (R454) -/
  ueTimes : List Dword
  wcrcTimes : List Dword
  /-- successive failed trainings (R454) -/
  trainFails : Nat
  /-- contents kept in self-refresh (R269) -/
  retained : Bool
deriving DecidableEq, Repr

/-- A partial-softmax triple (R296). -/
structure Triple where
  m : Nat
  s : Nat
  o : List Nat
  poison : Bool
  flags : Nat
deriving DecidableEq, Repr

/-- A press command accepted and not completed (R284 to R289): its slot's bytes, whether a granule of it was poisoned, its status so
far (Table 9.8), the segments its bursts have read, the end of its last burst, its triples once computed, and whether its timeout was
given. -/
structure PressCmd where
  seq : Nat
  bytes : List Byte
  poison : Bool
  acceptedAt : Dword
  bad : Nat
  segs : List (List Byte)
  endAt : Dword
  result : Option (List Triple)
  timed : Bool
deriving DecidableEq, Repr

/-- A press stream pair bound to a queue (R290): cell, context, command and result stream record, RED, TAG. -/
structure PressPair where
  pos : Nat
  ctx : Nat
  region : Nat
  cmdStream : Nat
  resStream : Nat
  red : Bool
  tag : Nat
  engine : Nat
deriving DecidableEq, Repr

/-- A press queue (R286 to R292): the FB-2's side, the engine's side. -/
structure PressQ where
  expect : Nat
  qseq : Nat
  qstatus : Nat
  cmds : List PressCmd
  run : Option (List Triple)
  results : SMap (List Byte × Bool)
  /-- command slots written and not yet accepted: bytes, poisoned -/
  slots : SMap (List Byte × Bool)
  pair : Option PressPair
  /-- commands the engine wrote and whose completion it has not seen: SEQ, CHAIN -/
  sent : List (Nat × Bool)
  nextSeq : Nat
  credits : Nat
  /-- units of results the engine has read and not yet delivered: bytes, poisoned granules -/
  toSend : List (List Byte × List Nat)
deriving DecidableEq, Repr

/-- A press (R282 to R301). -/
structure Press where
  queues : SMap PressQ
  /-- queues and SEQs of accepted commands, in acceptance order -/
  order : List (Nat × Nat)
  pawLimit : Nat
  starts : List Dword
  lastEnd : Dword
  lastAccept : Option Dword
  /-- the module reached 105 °C since the last tick (R301) -/
  hot : Bool
deriving DecidableEq, Repr

/-- A stream engine descriptor in hand (R253 to R267). `kind` 0: a ring descriptor; 1: a host-queue stream (R321c). -/
structure SeJob where
  kind : Nat
  ring : Nat
  addr : Nat
  rowLen : Nat
  stride : Nat
  rows : Nat
  stream : Nat
  opc : Nat
  cellAddr : Nat
  region : Nat
  mc : Bool
  mcg : Nat
  owner : Nat
  /-- units issued, and units delivered or written -/
  issued : Nat
  moved : Nat
  /-- units read and waiting to be delivered: number, bytes, poisoned -/
  buf : List (Nat × List Byte × Bool)
  /-- a host-queue stream: descriptor, record index, host buffer length -/
  item : Nat
  rec_ : Nat
  len : Nat
  /-- requests to another device not answered: units of a WRITE (R353) -/
  unacked : Nat
  /-- lines for which the host's response is awaited, and those it has given (R317): unit, line address, and the data of a RdCurr -/
  asked : List (Nat × Nat)
  granted : List (Nat × Nat × List Byte)
  /-- a fault found, its status -/
  bad : Option Nat
deriving DecidableEq, Repr

/-- An engine's or a bridge's end of a bound stream (R238, R252, R352). -/
structure SeEnd where
  region : Nat
  stream : Nat
  /-- the cell end: position, context, record index -/
  pos : Nat
  ctx : Nat
  idx : Nat
  /-- towards the cell -/
  out : Bool
  credits : Nat
  bound : Nat
  /-- next UNIT_SEQ to send, or expected -/
  nextSeq : Nat
  /-- places freed and not returned, and when the first was freed -/
  freed : Nat
  firstFree : Option Dword
  /-- last sequence number freed -/
  freedSeq : Nat
  /-- multicast: credits by leaf position (R261) -/
  leaves : SMap Nat
  error : Bool
  /-- units received and not yet passed on: bytes, poisoned 8-byte granules, LAST -/
  inbox : List (List Byte × List Nat × Bool)
deriving DecidableEq, Repr

/-- A stream engine (0 to 31) or a Tyzil bridge (32 to 63; R352). -/
structure SEngine where
  jobs : List SeJob
  paused : Bool
  /-- completion records by ring index: status, OPC, units (R620) -/
  cpl : SMap (Nat × Nat × Nat)
  ends : List SeEnd
deriving DecidableEq, Repr

def Module.zero : Module := ⟨false, EccMem.zero, false, [], [], 0, 0, [], [], 0, false⟩
def PressQ.zero : PressQ := ⟨0, 0xFFFF, 0, [], none, [], [], none, [], 0, 32, []⟩
def Press.zero : Press := ⟨[], [], 64, [], 0, none, false⟩
def SEngine.zero : SEngine := ⟨[], false, [], []⟩

end Sys2Proof.Machine
end

