-- ==== Sys2Proof/Machine/MeterTypes.lean ====
section
/-! DEFINITION. Power, energy accounting, trace and watchdog state that no register shows (R403 to R437, R516 to R537). -/
namespace Sys2Proof.Machine

/-- Activity of an owner in the frame in progress (R418, R420): cell-fc, 64-byte channel transfers, 256-byte flits, Ethernet bytes,
press bursts. -/
structure Activity where
  fc : Nat
  units : Nat
  flits : Nat
  ethBytes : Nat
  bursts : Nat
deriving DecidableEq, Repr

/-- The power and thermal loops and the frame's measurements (R406 to R419). -/
structure Meter where
  powCeil : Nat
  thermCeil : Nat
  /-- the point in force before an emergency throttle not yet released (R415) -/
  emerg : Option Nat
  /-- energy measured since the last tick, pJ; fractions of a µJ not yet counted per rail, pJ -/
  framePj : Nat
  railPj : SMap Nat
  /-- the last ten samples of 1 µs, pJ, newest first -/
  samples : List Nat
  /-- energy in µJ and length in µs of the last frame attributed -/
  lastUj : Nat
  lastUs : Nat
  /-- activity by tenant; 1024 is the device account -/
  act : SMap Activity
  /-- activity by descriptor, for its energy profile (R412) -/
  items : SMap Activity
deriving DecidableEq, Repr

/-- The open demand interval (R427 to R431). -/
structure Interval where
  /-- wall time of the nominal start, and of the nominal end; 0: it ends with VALID (R430) -/
  tNom : Nat
  tEnd : Nat
  tStart : Dword
  flags : Nat
deriving DecidableEq, Repr

/-- Accounting state (R421 to R437). -/
structure Acct where
  /-- tariff entries in force: START_MIN, DAYS, PRICE -/
  tariff : SMap (Nat × Nat × Nat)
  /-- a set written since the last one was applied (R426) -/
  tariffDue : Bool
  /-- PRICE in force at the tick that started the frame -/
  price : Nat
  /-- wall time offset in force, and a write of it that waits for the tick: (bits, VALID was set) -/
  wallOfs : Dword
  wallDue : Option Dword
  open_ : Option Interval
  /-- tenants destroyed in the interval; tenants with a saturated accumulator -/
  destroyed : List Nat
  sat : List Nat
  /-- SEQ of the next accounting record -/
  nextSeq : Nat
  /-- the latest CLOSED record while flash does not hold it valid (R434) -/
  unsaved : Option (List Byte)
  /-- wall minutes at the last boundary or tick looked at -/
  lastMin : Nat
  /-- no interval of wall time has been opened since boot (R436, R584) -/
  first : Bool
  /-- last-gasp slots used before the restore, to be retired once their records are in the log (R512) -/
  gaspDue : List Nat
deriving DecidableEq, Repr

/-- The trace unit (R530 to R537). -/
structure Trace where
  seq : Nat
  buf : List (List Byte)
  /-- records dropped since the last LOST record -/
  dropped : Nat
  /-- ring settings in force -/
  kind : Nat
  base : Nat
  len : Nat
  /-- the last-gasp sector that a dump takes or holds (R537) -/
  dumping : Option Nat
deriving DecidableEq, Repr

/-- The watchdog (R516 to R529). Stage, counts and evidence stand in the WDT page. -/
structure Wdt where
  armed : Bool
  tLast : Dword
  k : Nat
  seedDue : Option Nat
  minUs : Nat
  maxUs : Nat
  stage2Us : Nat
  t1 : Dword
  /-- the instant t2 of a stage 2 held off by an erase (R525) -/
  hold : Option Dword
  /-- when the count stopped (R528) -/
  frozenAt : Option Dword
deriving DecidableEq, Repr

/-- The instructions of the JTAG port (R538). -/
inductive JtagIr where
  | idcode | bypass | sample | extest | clamp | highz
deriving DecidableEq, Repr

/-- The JTAG port: the instruction in force and the boundary scan register as last preloaded (R539). -/
structure Jtag where
  ir : JtagIr
  scan : List Bool
deriving DecidableEq, Repr

def Activity.zero : Activity := ⟨0, 0, 0, 0, 0⟩
def Meter.zero : Meter := ⟨1600, 1600, none, 0, [], [], 0, 0, [], []⟩
def Acct.zero : Acct := ⟨[], false, 0, 0, none, none, [], [], 1, none, 0, true, []⟩
def Trace.zero : Trace := ⟨0, [], 0, 0, 0, 0, none⟩
def Wdt.zero : Wdt := ⟨false, 0, 0, none, 1, 1000000, 100000, 0, none, none⟩
def Jtag.zero : Jtag := ⟨.idcode, []⟩

end Sys2Proof.Machine
end

