-- ==== Sys2Proof/Machine/NvTypes.lean ====
section
/-! DEFINITION. The flash and the operations on it (R489 to R515). -/
namespace Sys2Proof.Machine

/-- What follows a flash operation that has completed. -/
inductive Follow where
  | nothing
  /-- an ERASE_INTENT is programmed: the sector may be erased -/
  | intent (sector jseq : Nat)
  /-- a sector header is programmed -/
  | header (sector jseq : Nat)
  /-- an ERASE_DONE is programmed -/
  | done (sector : Nat)
  /-- a repair map record of this SEQ is programmed (R459) -/
  | map (seq : Nat)
  /-- a user calibration record is programmed (R577) -/
  | cal
  /-- an audit record of this SEQ is programmed (R570) -/
  | audit (seq : Nat)
  /-- an accounting record is programmed -/
  | acct
  /-- the dump slot is programmed (R537) -/
  | dump
  /-- a step of an image update is programmed (R513) -/
  | update (step : Nat)
deriving DecidableEq, Repr

/-- An operation of the flash: a program of bytes, or an erase of a sector. -/
structure FlashOp where
  prio : Nat
  erase : Bool
  addr : Nat
  bytes : List Byte
  tries : Nat
  follow : Follow
deriving DecidableEq, Repr

/-- A journal entry to be written (Table 16.11). -/
structure JReq where
  type : Nat
  flags : Nat
  arg0 : Nat
  arg1 : Nat
  follow : Follow
deriving DecidableEq, Repr

/-- A record that waits for a sector (R497). -/
structure Held where
  region : Nat
  bytes : List Byte
  follow : Follow
  /-- SEQ + 1 where the record needs acknowledgement, else 0 -/
  ack : Nat
deriving DecidableEq, Repr

/-- An image update in progress (R513). -/
structure Upd where
  slot : Nat
  bytes : List Byte
  activate : Bool
  /-- sectors still to erase -/
  todo : List Nat
  /-- how the reads of the source end -/
  how : ReadEnd
deriving DecidableEq, Repr

/-- Non-volatile storage: the flash's bytes (unlisted: 0xFF) and the operations on them. -/
structure Nv where
  flash : SMap Byte
  ops : List FlashOp
  cur : Option FlashOp
  susp : Option FlashOp
  /-- SFDP advertises erase suspend (R511) -/
  canSuspend : Bool
  jseq : Nat
  jSector : Nat
  jPtr : Nat
  jHold : List JReq
  jSwitch : Bool
  /-- open sector and next offset of each ring region; sector 0: none open -/
  ptrs : SMap (Nat × Nat)
  bad : List Nat
  half : List Nat
  erasing : List Nat
  held : List Held
  /-- one above the highest SEQ that needs acknowledgement, by sector (R496) -/
  topSeq : SMap Nat
  /-- a repair map record not yet written, and when its last write failed (R459) -/
  mapWait : Option (Nat × Dword)
  upd : Option Upd
  /-- a flash answers -/
  present : Bool
deriving DecidableEq, Repr

/-- A blank flash with no operation. -/
def Nv.zero : Nv := ⟨[], [], none, none, false, 0, 2, 0x100, [], false, [], [], [], [], [], [], none, none, true⟩

end Sys2Proof.Machine
end

