-- ==== Sys2Proof/Machine/PlatTypes.lean ====
section
/-! DEFINITION. The state of boot, resets and power states (R490 to R504, R580 to R601, R628 to R634). -/
namespace Sys2Proof.Machine

/-- A step of a power-state transition (R590 to R594): none; SLEEP or STANDBY accepted; entering; in SLEEP; leaving. -/
inductive LpPhase where
  | none | accepted | asleep | leaving
deriving DecidableEq, Repr

/-- What a tick still has to do while its step 3 waits for the mesh to empty (R100): outcomes that wait for the next tick, the operands of
its later steps, whether GRID_BASE was applied before it, and whether step 3 has changed the map already. -/
structure TickRest where
  late : List Nat
  sensors : List Int
  temps : List (Nat × Int)
  places : List (Nat × Option (Placement × List Byte))
  done : Bool
  changed : Bool
deriving DecidableEq, Repr

/-- Boot, reset and power state that no register shows. -/
structure Sys where
  /-- every domain has power and is out of POR -/
  on_ : Bool
  /-- firmware of an image runs and its settings are applied (R500) -/
  booted : Bool
  /-- GRID_BASE is applied and the first tick has not run (R506) -/
  bootOkDue : Bool
  bootRecordDue : Bool
  recovery : Bool
  /-- the image that runs: slot (2: staged), IMAGE_ID, SEC_VER, and its bytes -/
  slot : Nat
  imageId : Nat
  secVer : Nat
  image : List Byte
  /-- a reset asked for through TOP.RST: kind, instant of the write (R581) -/
  rst : Option (Nat × Dword)
  /-- a SLEEP or STANDBY request: state code, instant of the write (R589) -/
  lpReq : Option (Nat × Dword)
  lpPhase : LpPhase
  /-- a RUN request that came during an entry -/
  runReq : Bool
  lpTarget : Nat
  suspendTb : Dword
  /-- self-refresh keeps the module contents for the next boot (R582) -/
  keepModules : Bool
  /-- T_cut (R433), and whether PWRFAIL_N has gone high since (R437) -/
  cut : Option Dword
  /-- the clocks are stopped by THERMTRIP_N (R416) -/
  tripped : Bool
  /-- REFCLK_SYS is lost (R521) -/
  refLost : Bool
  /-- the frame engine starts at the first tick instant after this one (R30) -/
  resumeAt : Option Dword
  /-- the refill after a re-form (R455): 0 none, 1 by the host, 2 ended and waiting for the tick, 3 from the peer -/
  refill : Nat
  /-- a channel or a core was lost and its repair map record waits for the tick (R454, R456) -/
  mapDue : Bool
  /-- TOP.STS.DEGRADED at the last tick (Table 10.13) -/
  degWas : Bool
  /-- firmware applies GRID_BASE at the next tick (R500, R581, R592), with the placements it chose for its sections -/
  gridDue : Bool
  gridPlace : List Placement
  /-- the host's HDM decoder is committed (R315) -/
  hdmCommitted : Bool
  /-- the range size, in GiB, that the CXL DVSEC range registers report (R315) -/
  dvsecGib : Nat
  /-- a CLUSTER reset of a booted device kept what Table 19.5 marks K -/
  kept : Bool
  /-- sessions that a reset closed, whose records are written after boot (R552): bank, role -/
  closeDue : List (Nat × Nat)
  /-- a tick whose step 3 waits (R100) -/
  tickRest : Option TickRest
deriving DecidableEq, Repr

def Sys.zero : Sys :=
  ⟨true, false, false, false, false, 0, 0, 0, [], none, none, .none, false, 0, 0, false, none, false, false, none, 0, false, false, false, [], false, 0, false, [], none⟩

end Sys2Proof.Machine
end

