-- ==== Sys2Proof/Machine/SysTypes.lean ====
section
/-! DEFINITION. The state of the register bus, RAS, Rind and the audit log (R438 to R445, R541 to R579, R602 to R614). -/
namespace Sys2Proof.Machine

/-- An entry of an MSI-X table; PCI Express sets the mask bit at reset (R608). -/
structure MsixEntry where
  addr : Dword
  data : Word
  masked : Bool
deriving DecidableEq, Repr

/-- State of the register bus that no register shows: held low words and latched high words (R609), record window offsets
(R610), held table words (R614), vectors due at step 8 (R608), MSI-X tables and PBAs keyed by function · 2048 + vector. -/
structure Bus where
  hold : SMap Word
  latch : SMap (Option Word)
  winOff : SMap Nat
  winHeld : SMap Word
  due : List Nat
  msix : SMap MsixEntry
  pba : List Nat
  /-- pages whose CTL.RESET waits for the tick instant, with the instant of the write (R604, R601) -/
  pageResets : List (Nat × Dword)
deriving DecidableEq, Repr

/-- RAS: record number since POR (R441), and whether CE and UE records were written since their vectors' last message (R442). -/
structure Ras where
  seq : Nat
  newCe : Bool
  newUe : Bool
deriving DecidableEq, Repr

/-- The session bank of an interface (R548 to R553). `role` 0 none, 1 installer, 2 maker. -/
structure Sess where
  state : Nat
  role : Nat
  ctl : Nat
  nonce : List Byte
  nonceLive : Bool
  issued : Dword
  resp : SMap Byte
  fails : Nat
  lastFail : Dword
  lastAccess : Dword
  sk : List Byte
  kcnt : Nat
  key : Nat
deriving DecidableEq, Repr

/-- A row of the key fuse array (R556). -/
structure KeyRow where
  slot : Nat
  key : List Byte
  checkOk : Bool
  valid : Bool
  revoked : Bool
deriving DecidableEq, Repr

/-- A burn in progress: none, a key write or claim, a revocation. -/
inductive Burn where
  | write (slot : Nat) (key : List Byte) (claim : Bool)
  | revoke (slot : Nat)
deriving DecidableEq, Repr

/-- An action that waits for its audit record to be programmed (R570). -/
inductive Deferred where
  | key (iface : Iface) (b : Burn)
  | lifecycle (target : Nat)
  | secVer (v : Nat)
  | calSave
  | update
  | repairClear
deriving DecidableEq, Repr

/-- Rind: sessions, keys, lifecycle fuses, and the audit log's head (R547 to R571). -/
structure Rind where
  sess : SMap Sess
  rows : List KeyRow
  drk : List Byte
  drkOff : Bool
  /-- the factory OTP (R578) -/
  otp : List Byte
  mpk : SMap (List Byte)
  devUid : List Byte
  uidBurnt : Bool
  /-- TOP.PART as fused: ORDER and STEPPING (R3, R555) -/
  part : Nat
  partBurnt : Bool
  /-- the three copies of the four lifecycle bits, as a 4-bit number each (R563) -/
  lc0 : Nat
  lc1 : Nat
  lc2 : Nat
  secVer : Nat
  burn : Option Burn
  /-- the interface whose action the burn is -/
  burnBy : Iface
  /-- a lifecycle burn in progress: target state -/
  lcBurn : Option Nat
  blob : SMap Byte
  clear : SMap Byte
  mdata : SMap Byte
  attNonce : SMap Byte
  deferred : List (Nat × Deferred)
  nextSeq : Nat
  chain : List Byte
  headSeq : Nat
  headChain : List Byte
  /-- audit records formed and not yet programmed, oldest first -/
  queue : List (Nat × List Byte)
deriving DecidableEq, Repr

/-- A calibrated entry (R572 to R575): factory value and limits, user offset in force and pending. -/
structure CalEntry where
  f : Int
  lo : Int
  hi : Int
  u : Int
  uPend : Int
  /-- the value in force and whether it is clamped -/
  e : Int
  clamped : Bool
deriving DecidableEq, Repr

def MsixEntry.zero : MsixEntry := ⟨0, 0, true⟩
def Bus.zero : Bus := ⟨[], [], [], [], [], [], [], []⟩
def Ras.zero : Ras := ⟨0, false, false⟩
def Sess.zero : Sess := ⟨0, 0, 0, [], false, 0, [], 0, 0, 0, [], 0, 0⟩
def CalEntry.zero : CalEntry := ⟨0, 0, 0, 0, 0, 0, false⟩
/-- Rind with blank fuses but for the lifecycle, which assumption 7 sets to DEPLOYED, and no session. -/
def Rind.zero : Rind :=
  ⟨[], [], [], false, [], [], List.replicate 16 0, false, 0, false, 3, 3, 3, 0, none, .pf0, none, [], [], [], [], [], 1, [], 0, [], []⟩

end Sys2Proof.Machine
end

