-- ==== Sys2Proof/Machine/TyzTypes.lean ====
section
/-! DEFINITION. Tyzil ports, packets and collectives, the discipline of the timebase, Ethernet gateways (R17 to R23, R49 to R56, R331
to R374). -/
namespace Sys2Proof.Machine

/-- A Tyzil packet: 40 header bytes and payload, its poisoned granules (header granules counted), and where it entered the device: a
port, or 16. -/
structure TyzPkt where
  bytes : List Byte
  poison : List Nat
  src : Nat
deriving DecidableEq, Repr

/-- A Tyzil port (R331 to R343). The state, generation and lane map stand in TYZn.STS. -/
structure TyzPort where
  /-- failed lanes, 8 the spare -/
  failed : List Nat
  /-- retraining under R340 -/
  retraining : Bool
  /-- trained out of LOST, in service from the next tick -/
  due : Bool
  txSeq : Nat
  replay : List (Nat × List Byte)
  rxSeq : Nat
  /-- flits sent and not credited, by channel 2·TC + ESC -/
  used : SMap Nat
  /-- packets that wait for the port, and whether each is promoted (R342) -/
  queue : List (TyzPkt × Bool)
  lastTier : Nat
  lastKey : Nat
  /-- the packet being received: bytes, poisoned granules -/
  rx : List Byte
  rxPoison : List Nat
  naks : List Dword
  /-- reservations in force (R357): flow key, bytes per frame; bytes sent in this frame -/
  rsvTx : List (Nat × Nat)
  rsvRx : List (Nat × Nat)
  rsvUsed : SMap Nat
  /-- the last ALIGN flit received: its departure and arrival (R364) -/
  echo : Dword × Dword
  /-- what the neighbour announces: root, depth, when heard -/
  heard : Option (Nat × Nat × Dword)
deriving DecidableEq, Repr

/-- A collective's operands of one SEQ (R359): by port, 16 for LOCAL. -/
structure CollPend where
  id : Nat
  seq : Nat
  ops : List (Nat × TyzPkt)
deriving DecidableEq, Repr

/-- A remote request without its response (R353, R355): its tag, the engine and its descriptor, the unit, when it was sent. -/
structure Rma where
  tag : Nat
  engine : Nat
  ring : Nat
  kind : Nat
  unit : Nat
  write : Bool
  sentAt : Dword
deriving DecidableEq, Repr

/-- The Tyzil and routing state that no register of fixed offset shows. -/
structure Tyz where
  ports : SMap TyzPort
  /-- packets received whole, or ready to be routed here -/
  inbox : List TyzPkt
  /-- packets delivered to this device -/
  delivered : List TyzPkt
  /-- route entries as 128-bit numbers, by TABLE · 8192 + device (R347) -/
  routes : SMap Nat
  routesSh : SMap Nat
  swapDue : Bool
  /-- collective entries, three words each, by 4 · index + word (R358) -/
  coll : SMap Word
  collSh : SMap Word
  collShadowed : Bool
  pend : List CollPend
  rma : List Rma
  nextTag : Nat
  /-- reservations asked for: region, key, bytes per frame, ports of the route; and those refused (R357) -/
  rsvAsk : List (Nat × Nat × Nat × List Nat)
  rsvBad : List Nat
  /-- the parent's values differ (R366) -/
  mismatch : Bool
  /-- child devices of collectives, by COLL_ID · 16 + port (R360) -/
  kids : SMap Nat
  /-- what firmware has learnt of reachability since the last tick (R374) -/
  reachDue : List (Nat × Bool)
deriving DecidableEq, Repr

/-- A gateway's connection to another domain (R370, R371). -/
structure EthPeer where
  nextSeq : Nat
  unacked : List (Nat × List Byte)
  expect : Nat
  resends : Nat
  used : SMap Nat
  waiting : List TyzPkt
deriving DecidableEq, Repr

/-- An Ethernet port: the settings that took effect when it was enabled (R626), and its PTP measurement's last instant. -/
structure Eth where
  cfg : Word
  mac : List Word
  ip : List Word
deriving DecidableEq, Repr

/-- The discipline of the timebase and FRAME_SYNC_IN (R19 to R23, R49 to R56). -/
structure Disc where
  lastValid : Dword
  srcLost : Bool
  lostAt : Dword
  okTicks : Nat
  /-- edges seen and not yet settled: instant, tick number, signed offset -/
  edges : List (Dword × Nat × Int)
  /-- ALIGN mode of the pin takes effect (R55), tested at ticks -/
  pinAligns : Bool
  /-- why ALIGN_LOST is set: offset, holdover -/
  byOffset : Bool
  byHoldover : Bool
  /-- the rate adjustment in force, in parts per 10⁹, and the offset in ns it has still to remove (R20, R23) -/
  rate : Int
  left : Int
  /-- the device is its own root, as the last tick found it (R55, R363) -/
  ownRoot : Bool
  /-- the parent port whose ALIGN flit was last compared (R649) -/
  compared : Option Nat
deriving DecidableEq, Repr

def TyzPort.zero : TyzPort :=
  ⟨[], false, false, 0, [], 0, [], [], 0, 0, [], [], [], [], [], [], (0, 0), none⟩
def Tyz.zero : Tyz := ⟨[], [], [], [], [], false, [], [], false, [], [], 0, [], [], false, [], []⟩
def EthPeer.zero : EthPeer := ⟨0, [], 0, 0, [], []⟩
def Eth.zero : Eth := ⟨0, [], []⟩
def Disc.zero : Disc := ⟨0, false, 0, 0, [], false, false, false, 0, 0, false, none⟩

end Sys2Proof.Machine
end

