-- ==== Sys2Proof/Machine/WorkTypes.lean ====
section
/-! DEFINITION. Sections, loads, runs, descriptors and tenants (R198 to R235, R319 to R329, R375 to R402, R650 to R654). -/
namespace Sys2Proof.Machine

/-- A tree record of a section image (R231). -/
structure Tree where
  kind : Nat
  op : Nat
  id : Nat
  rootDx : Nat
  rootDy : Nat
  sat : Nat
  leaves : List (Nat × Nat)
deriving DecidableEq, Repr

/-- A stream record of a section image (Table 7.12). -/
structure StreamRec where
  id : Nat
  dir : Nat
  kind : Nat
  fmt : Nat
  slotSets : Nat
  dx : Nat
  dy : Nat
  peerDx : Nat
  peerDy : Nat
  feed : Nat
  bufOff : Nat
  bufLen : Nat
  param : List Byte
deriving DecidableEq, Repr

/-- A section (R198, R199, R222 to R233), loaded or arriving. -/
structure Sect where
  sid : Nat
  region : Nat
  ctx : Nat
  orgX : Nat
  orgY : Nat
  w : Nat
  h : Nat
  budget : Nat
  drainBound : Nat
  keyId : Nat
  /-- XIm: DX, DY, TI, VALID -/
  xi : List (Nat × Nat × Nat × Nat)
  trees : List Tree
  streams : List StreamRec
  place : Placement
  /-- XO number to the TIk of a cell of another section: REGION, dx, dy, ti (R208). -/
  xo : SMap (Option (Nat × Nat × Nat × Nat))
  /-- in service (released), or still arriving -/
  live : Bool
  /-- a reservation of the section met a held slot (R77) -/
  slotConflict : Bool
  /-- records whose reservations are not installed: they wait for step 6, or conflicted there -/
  slotsDue : List Nat
  /-- its reservations: record, position, port, slot sets -/
  slots : List (Nat × Nat × Nat × Nat)
  /-- its last run was cut and the continuation has not begun (R258) -/
  halted : Bool
  /-- reduction operands that waited in the mesh at a cut, by position (Table 3.8) -/
  redSaved : List (Nat × RedPend)
  /-- results contributed to each TAG since the section load (R292) -/
  contrib : SMap Nat
deriving DecidableEq, Repr

/-- Where a run stands within its frame (R36 to R43, R217 to R221). -/
inductive RunPhase where
  | scheduled | active | draining | ended
deriving DecidableEq, Repr

/-- A run of a section placed in a frame. -/
structure Run where
  /-- the descriptor's number -/
  item : Nat
  sid : Nat
  /-- start in fc after the admit phase -/
  startFc : Nat
  startTb : Dword
  /-- fc counted before `startTb`, at the clocks in force then (R36, R414) -/
  fcBefore : Nat
  phase : RunPhase
  /-- the run continues a cut one -/
  cont : Bool
  /-- 0 not cut, 1 BUDGET, 2 GUARD, 3 a fault -/
  cut : Nat
  fault : Option Ending
  poison : Bool
  usedFc : Nat
  fired : Bool
  frame : Dword
  /-- it ended as DRAIN_COMPLETE, DRAIN_TIMEOUT or its completion condition left it -/
  doneAt : Dword
deriving DecidableEq, Repr

/-- An outcome of a descriptor that waits for tick step 8 (R322c, R654). -/
structure Post where
  code : Nat
  reason : Nat
  detail : Nat
  final : Bool
  at_ : Dword
deriving DecidableEq, Repr

/-- Where a fetched descriptor stands: fetched; considered; carried out in steps of its own; discarded by a reset in this frame (R329). -/
inductive DescPhase where
  | ready | item | working | gone
deriving DecidableEq, Repr

/-- A descriptor in flight: fetched, without a final entry (R322). A RUN is an item (R383). -/
structure Desc where
  id : Nat
  tenant : Nat
  /-- SQ head after its fetch -/
  sqHead : Nat
  /-- the 64 bytes of the SQ entry; empty where it could not be read -/
  sq : List Byte
  /-- the argument table of a RUN, or the source bytes of a COPY from the host -/
  host : List Byte
  tdb : Dword
  readyAt : Dword
  phase : DescPhase
  /-- number in the order of first service; 0: a waiting item -/
  order : Nat
  firstFrame : Nat
  /-- E at first service, in ns -/
  est : Nat
  frames : Nat
  /-- served in the frame in progress -/
  served : Bool
  idle : Nat
  /-- n_est and cause of the last DEFERRED entry -/
  postedEst : Option Nat
  postedCause : Nat
  /-- sections of the group whose runs are done -/
  done : List Nat
  /-- sections of the group whose run was cut and waits for its continuation (R42) -/
  conts : List Nat
  /-- fc used in the last frame -/
  usedFc : Nat
  firstOut : Option Dword
  skipped : Bool
  post : Option Post
  /-- bytes delivered by each host-queue stream (R321c), keyed by (REGION · 4096 + record) · 2 + DIR; those not yet shown, with their
  PROG_ARG; bytes whose tokens are counted (R421) -/
  prog : SMap Nat
  progDue : List (Nat × Nat)
  counted : SMap Nat
  /-- KV records that are resident, and those being fetched, by ring index of engine 0 (R402) -/
  kv : List Nat
  kvWait : List (Nat × Nat)
  /-- the largest energy attributed to it in one frame, and the VID code of that frame (R412) -/
  eMax : Nat
  eVid : Nat
  /-- its argument table has been checked against its group's streams (R321b, R321c) -/
  checked : Bool
deriving DecidableEq, Repr

/-- A load between its descriptor and its release (R222 to R226); `desc` is none for a load of GRID_BASE or a re-placement. -/
structure Load where
  desc : Option Nat
  image : List Byte
  place : Placement
  region : Nat
  accepted : Bool
  sid : Nat
  w : Nat
  h : Nat
  /-- the section key its slot held at the first byte (R561) -/
  key : Option (List Byte)
  /-- verified at this instant (R225) -/
  verified : Option Dword
  /-- the loaded section of the same SECTION_ID shares its context (R653) -/
  shares : Bool
deriving DecidableEq, Repr

/-- What no register shows of a tenant's queues and state (R319 to R328, R375, R382). -/
structure Tenant where
  createPend : Bool
  sqTail : Nat
  cqHead : Nat
  /-- CQ entries written and not yet freed -/
  occ : Nat
  /-- tails rung since the queue was enabled, counted from its enabling, with their instants (R392) -/
  bells : List (Nat × Dword)
  fetched : Nat
  fetching : Bool
  /-- entries written and not signalled, and ticks since the oldest was written (R326) -/
  unsig : Nat
  unsigAge : Nat
  finalI : Bool
  /-- notices raised and not yet written -/
  notices : List Nat
  /-- energy and tokens of the demand interval, and whether their notices were given -/
  uj : Nat
  tok : Nat
  warned : Nat
deriving DecidableEq, Repr

/-- A profile entry (R393, R412). -/
structure Profile where
  sid : Nat
  cls : Nat
  /-- frames from first service to first output of the last 16 completed items -/
  f1s : List Nat
  add : Nat
  /-- largest energy of one frame and its VID code, of the last 16 completed items -/
  es : List (Nat × Nat)
  used : Nat
deriving DecidableEq, Repr

/-- A demand of the policy engine's adaptation window, per class (R399). -/
structure Adapt where
  frames : Nat
  /-- classes with a GRID deferral or refusal in the frame in progress -/
  hit : List Nat
  grid : SMap Nat
  used : SMap Nat
  /-- POLICY words written since step 9 last looked (R380): 0 none, 1 some, 2 class words among them -/
  due : Nat
  /-- a move decided, for the next step 9: donor, receiver, STEP (R399) -/
  move : Option (Nat × Nat × Nat)
deriving DecidableEq, Repr

def Tenant.zero : Tenant := ⟨false, 0, 0, 0, [], 0, false, 0, 0, false, [], 0, 0, 0⟩
def Adapt.zero : Adapt := ⟨0, [], [], [], 0, none⟩
def Profile.zero : Profile := ⟨0, 0, [], 0, [], 0⟩

end Sys2Proof.Machine
end

