-- ==== Sys2Proof/Machine/State.lean ====
section
/-! DEFINITION. The state of the KZ-880, the reasons a command can stop, and the state after reset. -/
namespace Sys2Proof.Machine

/-- The grid (R57 to R267): cells and routers by physical position py · 68 + px, packets and tokens in flight, repairs. -/
structure Grid where
  cells : SMap Cell
  routers : SMap Router
  strikes : SMap Strikes
  /-- packets on their way to a router: position, input port, packet -/
  flight : List (Nat × Nat × MeshPacket)
  /-- tokens on their way to a queue of their own cell: position, context, TI, value (R207) -/
  tokens : List (Nat × Nat × Nat × Token)
  /-- packets that left by an outward port to a stream engine: engine, packet (R252) -/
  toEngine : List (Nat × MeshPacket)
  /-- while injection is paused at a swap (R100): packets held at their sources (position, and the port of an engine's link), and BAR4
  accesses held at the host link -/
  heldInj : List (Nat × Option Nat × MeshPacket)
  heldBar4 : List Bar4Req
  /-- shifts decided: quadrant, row, local column, and stage (0 decided, 1 cells excluded and copying, 2 copied) (R449) -/
  shifts : List (Nat × Nat × Nat × Nat)
  /-- removals decided: quadrant, row (R452) -/
  removals : List (Nat × Nat)
  /-- spare positions to mark SPARE_BAD at the next step 3 (R62, R447) -/
  spareBads : List (Nat × Nat)
  /-- faulty positions waiting for REPAIR.APPLY (R448) -/
  awaiting : List Nat
  nap : Bool
  stayAwake : Bool
  heldReset : Bool
  on_ : Bool
  /-- when the grid last left its reset: scrub passes begin there (R129) -/
  scrubFrom : Dword
deriving DecidableEq, Repr

/-- Sections, runs, descriptors, tenants and the policy engine's records. -/
structure Work where
  sects : List Sect
  runs : List Run
  loads : List Load
  descs : List Desc
  tenants : SMap Tenant
  nextDesc : Nat
  nextOrder : Nat
  /-- UNLOADs to carry out at tick step 4: descriptor, SECTION_ID -/
  unloads : List (Nat × Nat)
  /-- sections whose HELD contexts firmware releases at tick step 4 (Table 7.1) -/
  releases : List Nat
  profile : SMap Profile
  adapt : Adapt
  /-- sections that lost cells and wait to be re-placed (R400) -/
  replacing : List Nat
  /-- sections for which no placement exists (R400) -/
  noCells : List Nat
  /-- the energy of the runs served in the frame, µJ (R386) -/
  energyServed : Nat
deriving DecidableEq, Repr

/-- Why the block stops. The spec gives every command an effect on every state, so no command raises this. -/
inductive Fault where
  /-- The block has stopped. Raised by no command: every meaning answers a next state. Safe: no claim rests on it. -/
  | stopped
deriving DecidableEq, Repr

/-- Why a command is refused. -/
inductive Refusal where
  /-- The command has no meaning yet. Safe. -/
  | notModelled (mnemonic : String)
deriving DecidableEq, Repr

/-- The state of the block. -/
structure State where
  /-- commands waiting, first in, first out -/
  pending : List Instr
  /-- how many free values have been taken -/
  free : Nat
  /-- what has left the block, newest first -/
  out : List Emit
  /-- the timebase (R17) -/
  tb : Dword
  /-- the register file, by BAR0 address; an unlisted word holds its reset value -/
  regs : SMap Word
  bus : Bus
  ras : Ras
  rind : Rind
  /-- calibration entries, keyed by QTY · 512 + INDEX, and the selected entry per interface -/
  cal : SMap CalEntry
  calSel : SMap Nat
  /-- values in force of the registers that ticks apply and that have no _EFF counterpart (R47), by BAR0 address -/
  eff : SMap Word
  grid : Grid
  work : Work
  mods : SMap Module
  /-- the byte values that module memory has held, bit by value: what an undefined byte may read as (R276) -/
  modHeld : BitVec 256
  press : SMap Press
  ses : SMap SEngine
  /-- control SRAM, by offset from 0x1000_0000 (R468) -/
  sram : EccMem
  /-- the control cores' caches and their bus (R464 to R488) -/
  cl : Cluster
  nv : Nv
  tyz : Tyz
  /-- Ethernet ports, and the peers by domain -/
  eth : SMap Eth
  peers : SMap EthPeer
  disc : Disc
  sys : Sys
  meter : Meter
  acct : Acct
  trace : Trace
  wdt : Wdt
  jtag : Jtag
deriving DecidableEq, Repr

def Grid.zero : Grid := ⟨[], [], [], [], [], [], [], [], [], [], [], [], false, false, false, true, 0⟩
def Work.zero : Work := ⟨[], [], [], [], [], 0, 1, [], [], [], Adapt.zero, [], [], 0⟩

/-- The block right after reset. -/
def State.reset : State :=
  { pending := [], free := 0, out := [], tb := 0, regs := [(0xC0048, 0x5554)], bus := Bus.zero, ras := Ras.zero, rind := Rind.zero,
    cal := [], calSel := [], eff := [], grid := Grid.zero, work := Work.zero, mods := [], modHeld := 1, press := [], ses := [],
    sram := EccMem.zero, cl := Cluster.zero, nv := Nv.zero, tyz := Tyz.zero, eth := [], peers := [], disc := Disc.zero, sys := Sys.zero,
    meter := Meter.zero, acct := Acct.zero, trace := Trace.zero, wdt := Wdt.zero, jtag := Jtag.zero }

end Sys2Proof.Machine
end

