-- ==== Sys2Proof/Machine/Regs.lean ====
section
/-! DEFINITION. The register file: pages (Table 20.2), words and fields, counters (R443), first-error capture (R440, R607),
events and their vectors (R608, R611), MSI-X messages. -/
namespace Sys2Proof

/-- Does a field description cover the word at offset `off`? -/
def FieldDesc.covers (d : FieldDesc) (off : Nat) : Bool :=
  decide (d.off ≤ off) && decide (off < d.off + 4 * d.count) && (off - d.off) % 4 == 0
/-- The same field `n` bytes further on: an array or a numbered copy of a register. -/
def Fld.up (f : Fld) (n : Nat) : Fld := { f with off := f.off + n }

end Sys2Proof

namespace Sys2Proof.Machine

/-! ### Pages. A page is named by its number, its BAR0 address divided by 0x1000. -/

def pgTop : Nat := 0x0
def pgFrame : Nat := 0x1
def pgSched : Nat := 0x2
def pgPolicy : Nat := 0x3
def pgPower : Nat := 0x4
def pgEnergy : Nat := 0x5
def pgTherm : Nat := 0x6
def pgWdt : Nat := 0x8
def pgTrace : Nat := 0x9
def pgRas : Nat := 0xA
def pgRepair : Nat := 0xB
def pgNv : Nat := 0xC
def pgRind : Nat := 0xD
def pgCal : Nat := 0xE
def pgAudit : Nat := 0xF
def pgHost : Nat := 0x10
def pgMsix : Nat := 0x20
def pgMem (c : Nat) : Nat := 0x40 + c
def pgPress (c : Nat) : Nat := 0x50 + c
def pgTyz (n : Nat) : Nat := 0x80 + n
def pgEth (k : Nat) : Nat := 0x90 + k
def pgCluster : Nat := 0xC0
def pgStream : Nat := 0xD0
def pgCell (pos : Nat) : Nat := 0x1000 + pos
def pgTenant (t : Nat) : Nat := 0x2000 + t

/-- The kind of a page; none where Table 20.2 names no page. -/
def pageKind (pg : Nat) : Option PageKind :=
  match pg with
  | 0x0 => some .top | 0x1 => some .frame | 0x2 => some .sched | 0x3 => some .policy | 0x4 => some .power
  | 0x5 => some .energy | 0x6 => some .therm | 0x8 => some .wdt | 0x9 => some .trace | 0xA => some .ras
  | 0xB => some .repair | 0xC => some .nv | 0xD => some .rind | 0xE => some .cal | 0xF => some .audit
  | 0x10 => some .host | 0x20 => some .msix | 0xC0 => some .cluster | 0xD0 => some .stream
  | _ =>
    if 0x40 ≤ pg ∧ pg < 0x50 then some .mem
    else if 0x50 ≤ pg ∧ pg < 0x60 then some .press
    else if 0x80 ≤ pg ∧ pg < 0x90 then some .tyz
    else if 0x90 ≤ pg ∧ pg < 0x92 then some .eth
    else if 0x1000 ≤ pg ∧ pg < 0x1000 + 2176 then some .cell
    else if 0x2000 ≤ pg ∧ pg < 0x2400 then some .tenant
    else none

/-- First page of a kind and the instance number of a page (R602). -/
def pageBase (k : PageKind) : Nat :=
  match k with
  | .top => 0x0 | .frame => 0x1 | .sched => 0x2 | .policy => 0x3 | .power => 0x4 | .energy => 0x5 | .therm => 0x6
  | .wdt => 0x8 | .trace => 0x9 | .ras => 0xA | .repair => 0xB | .nv => 0xC | .rind => 0xD | .cal => 0xE | .audit => 0xF
  | .host => 0x10 | .msix => 0x20 | .mem => 0x40 | .press => 0x50 | .tyz => 0x80 | .eth => 0x90 | .cluster => 0xC0
  | .stream => 0xD0 | .cell => 0x1000 | .tenant => 0x2000

/-- Block control and status bits that lie in the common header (Tables 20.6, 20.12, 20.13, 20.15, 20.18). -/
def headerExtra (k : PageKind) : List FieldDesc :=
  match k with
  | .wdt => [⟨0x8, 1, 8, 8, .rw, 0, .any, .single⟩, ⟨0xC, 1, 31, 8, .ro, 0, .any, .single⟩]
  | .trace => [⟨0x8, 1, 8, 8, .rw, 0, .any, .single⟩, ⟨0xC, 1, 31, 8, .ro, 0, .any, .single⟩]
  | .repair => [⟨0x8, 1, 8, 8, .rw, 1, .any, .single⟩, ⟨0xC, 1, 31, 8, .ro, 0, .any, .single⟩]
  | .cal => [⟨0x8, 1, 9, 8, .special, 0, .any, .single⟩, ⟨0xC, 1, 31, 8, .ro, 0, .any, .single⟩]
  | _ => [⟨0xC, 1, 31, 8, .ro, 0, .any, .single⟩]

/-- The block fields of a page kind; TYZ0's own follow the common TYZn fields (R624), MEM0's own are MEMn's last (R621). -/
def blockFields (k : PageKind) (inst : Nat) : List FieldDesc :=
  match k with
  | .top => topFields | .frame => frameFields | .sched => schedFields | .policy => policyFields | .power => powerFields
  | .energy => energyFields | .therm => thermFields | .wdt => wdtFields | .trace => traceFields | .ras => rasFields
  | .repair => repairFields | .nv => nvFields | .rind => rindFields | .cal => calFields | .audit => auditFields
  | .host => hostFields | .msix => msixFields
  | .mem => if inst = 0 then memFields else memFields.filter fun d => decide (d.off < 0x80)
  | .press => pressFields
  | .tyz => if inst = 0 then tyzFields ++ tyz0Fields else tyzFields
  | .eth => ethFields | .cluster => clusterFields | .stream => streamFields | .cell => cellFields | .tenant => tenantFields

/-- Every field of a page. -/
def pageFields (k : PageKind) (inst : Nat) : List FieldDesc := hdrFields ++ headerExtra k ++ blockFields k inst

/-- The fields of the word at `off` of page `pg`. -/
def fieldsAt (pg off : Nat) : List FieldDesc :=
  match pageKind pg with
  | none => []
  | some k => (pageFields k (pg - pageBase k)).filter fun d => d.covers off

/-- Reset value of the word at a BAR0 address: the reset values of its fields. CTL.ENABLE of TRACE resets to 0. -/
def regReset (addr : Nat) : Word :=
  let pg := addr / 0x1000
  let off := addr % 0x1000
  if pg = pgTrace ∧ off = 8 then 0
  else BitVec.ofNat 32 ((fieldsAt pg off).foldl (fun a d => a + (d.rst % 2 ^ (d.hi + 1 - d.lo)) * 2 ^ d.lo) 0)

/-- Read a word of the register file: an unlisted word holds its reset value. -/
def State.reg (s : State) (addr : Nat) : Word := mapGet (regReset addr) s.regs addr
/-- Write a word of the register file, keeping the canonical form. -/
def State.setReg (s : State) (addr : Nat) (v : Word) : State :=
  { s with regs := mapSet (regReset addr) s.regs addr v }
/-- A field of a page, as a number. -/
def State.fld (s : State) (pg : Nat) (f : Fld) : Nat := bitsOf (s.reg (pg * 0x1000 + f.off)).toNat f.hi f.lo
/-- Set a field of a page. -/
def State.setFld (s : State) (pg : Nat) (f : Fld) (v : Nat) : State :=
  let a := pg * 0x1000 + f.off
  s.setReg a (BitVec.ofNat 32 (setBits (s.reg a).toNat f.hi f.lo v))
/-- The 64-bit register whose low word is `f`. -/
def State.fld64 (s : State) (pg : Nat) (f : Fld) : Nat := s.fld pg f + s.fld pg (f.up 4) * 2 ^ 32
def State.setFld64 (s : State) (pg : Nat) (f : Fld) (v : Nat) : State :=
  (s.setFld pg f (v % 2 ^ 32)).setFld pg (f.up 4) (v / 2 ^ 32 % 2 ^ 32)
def State.flag (s : State) (pg : Nat) (f : Fld) : Bool := s.fld pg f != 0

/-- One bit of a word of the register file. -/
def State.regBit (s : State) (addr k : Nat) : Bool := bitOf (s.reg addr).toNat k
def State.setRegBit (s : State) (addr k : Nat) (b : Bool) : State :=
  s.setReg addr (BitVec.ofNat 32 (setBits (s.reg addr).toNat k k (b2n b)))

/-! ### Free values and what leaves the block -/

/-- Take a free value. -/
def State.takeFree (s : State) : BitVec 64 × State := (Config.freeValue s.free, { s with free := s.free + 1 })
/-- What leaves by the host link, a Tyzil port or an Ethernet port. -/
def emitOnLink : Emit → Bool
  | .regData rq _ => rq.iface == .pf0 || rq.iface == .fn
  | .msix _ _ _ _ | .hostWrite _ _ | .hostRead _ _ _ | .completion _ _ | .unsupported | .cxl _ _ _ _ => true
  | .tyzil _ _ | .tyzAlign _ _ | .tyzLaneMap _ _ | .eth _ _ _ _ _ => true
  | .pin _ _ _ | .uart _ | .mgmt _ _ | .jtag _ | .jtagPins _ _ | .coreIrq _ _ | .coreData _ _ _ | .memCmd _ _ => false
/-- The links are quiet: after T_cut the Tyzil and Ethernet transmitters are off and the host link is in electrical idle (R433, R638);
under THERMTRIP_N their clocks are stopped (R416). -/
def State.linksQuiet (s : State) : Bool := s.sys.cut.isSome || s.sys.tripped
/-- Something leaves the block; quiet links let nothing out. -/
def State.emit (s : State) (e : Emit) : State := { s with out := if emitOnLink e && s.linksQuiet then s.out else e :: s.out }

/-! ### Events and vectors (R608, R611) -/

/-- The PF0 vector of an event bit (Table 20.2); 0x3F none. -/
def eventVector (pg bit : Nat) : Nat :=
  match pageKind pg with
  | none => 0x3F
  | some k => match k with
    | .top => 0 | .frame => 1 | .sched => 2 | .policy => 3 | .power => 4 | .energy => 5 | .therm => 6 | .wdt => 7 | .trace => 8
    | .ras => if bit = 0 then 9 else if bit = 2 then 11 else 10
    | .repair => if bit = 1 then 13 else 12
    | .nv => 14 | .rind => 15 | .cal => 16 | .audit => 17 | .host => 18 | .msix => 19 | .mem => 20 | .press => 21
    | .tyz => 22 | .eth => 23 + (pg - 0x90) | .cluster => 25 | .stream => 26 | .cell => 27 | .tenant => 0x3F

/-- Vectors sent in the fc in which the bit is set (Table 20.2). -/
def atOnce (vec : Nat) : Bool := vec == 6 || vec == 7 || vec == 11

/-- Increment a counter by `n` (R443): past the maximum it stays there, its CNT_OVF bit is set, and the first such increment
raises COUNTER_SAT, which the answer's second part tells. -/
def State.bumpRaw (s : State) (pg : Nat) (f : Fld) (bit n : Nat) : State × Bool :=
  let a := pg * 0x1000 + f.off
  let v := (s.reg a).toNat + n
  if v < 2 ^ 32 then (s.setReg a (BitVec.ofNat 32 v), false)
  else
    let s1 := s.setReg a 0xFFFFFFFF
    if s.regBit (pg * 0x1000 + 0x40) bit then (s1, false)
    else (s1.setRegBit (pg * 0x1000 + 0x40) bit true, true)

/-! ### Reports of events that have not arisen -/

/-- A command reports an internal event whose stated condition does not hold in this state: no such event arises, so the rules change
nothing, and the report is passed over (log entry 6). The text names the condition that fails. -/
def State.passOver (s : State) (_why : String) : Host.Outcome State Fault Refusal := .next s

/-- The word whose bytes are `bs`, little-endian. -/
def wordOf (bs : List Byte) : Word := BitVec.ofNat 32 (leNat bs)

end Sys2Proof.Machine
end

