-- ==== Sys2Proof/Machine/Sram.lean ====
section
/-! DEFINITION. Granules of an ECC memory, and control SRAM as the device's blocks read and write it through the agent port (R468, R475). -/
namespace Sys2Proof.Machine

/-- Read `n` bytes. -/
def EccMem.read (m : EccMem) (a n : Nat) : List Byte := mapRead 0 m.bytes a n
/-- Write bytes, leaving the granules' classes. -/
def EccMem.write (m : EccMem) (a : Nat) (bs : List Byte) : EccMem := { m with bytes := mapWrite 0 m.bytes a bs }
/-- The class of a granule. -/
def EccMem.cls (m : EccMem) (g : Nat) : EccClass := mapGet .clean m.marks g
def EccMem.setCls (m : EccMem) (g : Nat) (c : EccClass) : EccMem := { m with marks := mapSet .clean m.marks g c }

/-- The dirty copies of a core, in cache or buffer: line number and line. -/
def Core.dirty (c : Core) : List (Nat × CLine) := (c.l1d.filter fun e => e.2.st == .m || e.2.st == .o) ++ c.wb
/-- Lines of a range lose every cached copy. -/
def Core.lose (first last : Nat) (c : Core) : Core :=
  let keep := fun l => decide (l < first) || decide (last < l)
  { c with
    l1d := c.l1d.filter fun e => keep e.1
    wb := c.wb.filter fun e => keep e.1
    lr := match c.lr with | some l => if keep l then some l else none | none => none }

/-- Read granules of home (R120): CE and UE are noted, and a UE is rewritten as POISON. -/
def EccMem.noteRead (m : EccMem) (who g n : Nat) : EccMem × List SramNote :=
  (List.range n).foldl (fun (a : EccMem × List SramNote) i =>
    match a.1.cls (g + i) with
    | .ce => (a.1, a.2 ++ [SramNote.ce])
    | .ue => (a.1.setCls (g + i) .poison, a.2 ++ [SramNote.ue who (8 * (g + i))])
    | .clean | .poison => a) (m, [])
/-- Write bytes home (Tables 4.7 and 4.7a): each granule resolves by its old class; `poison` names the granules whose data are poisoned. -/
def EccMem.noteWrite (m : EccMem) (who off : Nat) (bs : List Byte) (poison : List Nat) : EccMem × List SramNote :=
  let last := off + bs.length
  let gs := if bs.isEmpty then [] else (List.range ((last + 7) / 8 - off / 8)).map (· + off / 8)
  gs.foldl (fun (a : EccMem × List SramNote) g =>
    let whole := decide (off ≤ 8 * g) && decide (8 * g + 8 ≤ last)
    let old := m.cls g
    let bad := poison.contains g || (!whole && (old == .ue || old == .poison))
    let found := match old with | .ce => [SramNote.ce] | .ue => [SramNote.ue who (8 * g)] | .clean | .poison => []
    (a.1.setCls g (if bad then .poison else .clean), a.2 ++ found)) (m.write off bs, [])

/-- A control core's state in CLUSTER.CORE_STS (R486): 0 RUN, 1 HELD, 2 LOST. -/
def State.coreState (s : State) (k : Nat) : Nat := bitsOf (s.fld pgCluster R.cluster_CORE_STS) (2 * k + 1) (2 * k)
def State.addNotes (s : State) (ns : List SramNote) : State :=
  if ns.isEmpty then s else { s with cl := { s.cl with notes := s.cl.notes ++ ns.map fun n => (n, s.tb) } }
/-- Lines that a core out of service owns: home is poisoned, their tags are I, and the timeouts are noted (R484, R485). -/
def State.settleDead (s : State) (first last : Nat) : State :=
  let owned := s.cl.cores.flatMap fun c => if s.coreState c.1 = 0 then [] else
    (c.2.dirty.filter fun e => decide (first ≤ e.1) && decide (e.1 ≤ last)).map fun e => (c.1, e.1)
  owned.foldl (fun (a : State) e =>
    let (k, l) := e
    let poisoned := (List.range 8).foldl (fun (m : EccMem) i => m.setCls (8 * l + i) .poison) a.sram
    { a with
      sram := poisoned
      cl := { a.cl with
        cores := a.cl.cores.map fun (c : Nat × Core) => if c.1 = k then (c.1, c.2.lose l l) else c
        notes := a.cl.notes ++ [(SramNote.dead k l, a.tb)] } }) s
/-- A block of the device reads control SRAM: owners supply their lines (BusRdCur). -/
def State.sramRead (s : State) (off n : Nat) : State × List Byte :=
  let s0 := s.settleDead (off / 64) ((off + n - 1) / 64)
  let (home, notes) := s0.sram.noteRead 8 (off / 8) ((off + n + 7) / 8 - off / 8)
  let bytes := s0.cl.cores.foldl (fun bs c => c.2.dirty.foldl (fun bs e =>
    (List.range 64).foldl (fun bs i =>
      let a := 64 * e.1 + i
      if off ≤ a then listSet bs (a - off) (e.2.data.getD i 0) else bs) bs) bs) (home.read off n)
  ({ s0 with sram := home }.addNotes notes, bytes)
/-- A block of the device writes control SRAM: lines written in part merge with their owners' data first, and every copy is invalidated
(BusWrMrg, BusWrInv). -/
def State.sramWrite (s : State) (off : Nat) (bs : List Byte) : State :=
  let first := off / 64
  let last := (off + bs.length - 1) / 64
  if bs.isEmpty then s
  else
    let part := fun l => decide (64 * l < off) || decide (off + bs.length < 64 * l + 64)
    let s0 := if part first then s.settleDead first first else s
    let s1 := if part last then s0.settleDead last last else s0
    let owned := s1.cl.cores.flatMap fun c => c.2.dirty.filter fun e => decide (first ≤ e.1) && decide (e.1 ≤ last) && part e.1
    let merged := owned.foldl (fun (a : EccMem × List SramNote) e =>
      let (m, ns) := a.1.noteWrite 8 (64 * e.1) e.2.data (e.2.poison.map (· + 8 * e.1))
      (m, a.2 ++ ns)) (s1.sram, [])
    let (home, ns) := merged.1.noteWrite 8 off bs []
    { s1 with
      sram := home
      cl := { s1.cl with cores := s1.cl.cores.map fun (c : Nat × Core) => (c.1, c.2.lose first last) } }.addNotes (merged.2 ++ ns)

end Sys2Proof.Machine
end

