-- ==== Sys2Proof/Machine/Ras.lean ====
section
/-! DEFINITION. RAS reports, saturating counters, events, first-error capture and MSI-X messages (R438 to R445, R607, R608). -/
namespace Sys2Proof.Machine

/-- A vector is held for tick step 8. -/
def State.holdVector (s : State) (vec : Nat) : State :=
  if vec = 0x3F ∨ s.bus.due.contains vec then s else { s with bus := { s.bus with due := vec :: s.bus.due } }

/-- Set an event bit; a bit of EVT_PEND that rises makes its vector due (R608). The vector is held for step 8. -/
def State.eventHeld (s : State) (pg bit : Nat) : State :=
  let raw := pg * 0x1000 + 0x10
  let rises := !s.regBit raw bit && s.regBit (pg * 0x1000 + 0x14) bit
  let s1 := s.setRegBit raw bit true
  if rises then s1.holdVector (eventVector pg bit) else s1

/-- Bring record `i` of the ring before the records of the same nanosecond that come from later source pages (Table 14.3); the SEQ fields
keep their places. `n` records before it are unacknowledged. -/
def State.rasOrder (s : State) (i : Nat) : Nat → State
  | 0 => s
  | n + 1 =>
    let slot := fun k => Config.rasLogBase + 32 * (k % 256)
    let j := (i + 511) % 512
    let a := s.sram.read (slot j) 32
    let b := s.sram.read (slot i) 32
    if a.take 8 = b.take 8 ∧ leNat ((b.drop 14).take 2) < leNat ((a.drop 14).take 2) then
      ((s.sramWrite (slot j) (b.take 8 ++ (a.drop 8).take 4 ++ b.drop 12)).sramWrite (slot i)
        (a.take 8 ++ (b.drop 8).take 4 ++ a.drop 12)).rasOrder j n
    else s
/-- Write a 32-byte record (Table 14.2) into the log ring of control SRAM, or count it in LOG_LOST while 256 records are
unacknowledged (R441). -/
def State.rasRecord (s : State) (cls code src : Nat) (loc : Dword) (detail : Nat) : State :=
  let head := s.fld pgRas R.ras_LOG_HEAD
  let ack := s.fld pgRas R.ras_LOG_ACK
  let s0 := { s with ras := { s.ras with seq := s.ras.seq + 1 } }
  if (head + 512 - ack) % 512 = 256 then
    let (s1, sat) := s0.bumpRaw pgRas R.ras_LOG_LOST 2 1
    if sat then s1.eventHeld pgRas 31 else s1
  else
    let rec_ := leBytes 8 s.tb.toNat ++ leBytes 4 s.ras.seq ++ leBytes 1 cls ++ leBytes 1 code ++ leBytes 2 src
      ++ leBytes 8 loc.toNat ++ leBytes 4 detail ++ leBytes 4 0
    let s1 := ((s0.sramWrite (Config.rasLogBase + 32 * (head % 256)) rec_).rasOrder head ((head + 512 - ack) % 512)).setFld pgRas
      R.ras_LOG_HEAD ((head + 1) % 512)
    if cls = 1 then s1.holdVector 9 else if cls = 2 then s1.holdVector 10 else s1

/-- A counter has saturated: COUNTER_SAT in EVT_RAW and a COUNTER_SAT record (R443). -/
def State.counterSat (s : State) (pg off : Nat) : State :=
  (s.eventHeld pg 31).rasRecord 0 0x50 pg (Config.rasLoc [0x50, pg, off]) 0

/-- Increment a counter of a page by `n` (R443). -/
def State.bump (s : State) (pg : Nat) (f : Fld) (bit n : Nat) : State :=
  let (s1, sat) := s.bumpRaw pg f bit n
  if sat then s1.counterSat pg f.off else s1

/-- Add to a 64-bit accumulator, which saturates as a counter does (R422). -/
def State.accumulate (s : State) (pg : Nat) (f : Fld) (bit n : Nat) : State :=
  let v := s.fld64 pg f + n
  if v < 2 ^ 64 then s.setFld64 pg f v
  else
    let s1 := s.setFld64 pg f (2 ^ 64 - 1)
    if s.regBit (pg * 0x1000 + 0x40) bit then s1
    else (s1.setRegBit (pg * 0x1000 + 0x40) bit true).counterSat pg f.off

/-- Send an MSI-X message on a vector of a function: masked, it is held in the PBA (R608, R623). -/
def State.sendMsix (s : State) (fn vec : Nat) : State :=
  let key := fn * 2048 + vec
  let e := mapGet MsixEntry.zero s.bus.msix key
  if e.masked then
    if s.bus.pba.contains key then s
    else { s with bus := { s.bus with pba := key :: s.bus.pba } }.bump pgMsix R.msix_PBA_HELD 1 1
  else (s.emit (.msix fn vec e.addr e.data)).bump pgMsix R.msix_SENT 0 1

/-- A PF0 vector is due: sent in this fc where Table 20.2 says at once, else held for step 8. -/
def State.vectorDue (s : State) (vec : Nat) : State := if atOnce vec then s.sendMsix 0 vec else s.holdVector vec

/-- Set an event bit of a page (R608). -/
def State.event (s : State) (pg bit : Nat) : State :=
  let raw := pg * 0x1000 + 0x10
  let rises := !s.regBit raw bit && s.regBit (pg * 0x1000 + 0x14) bit
  let s1 := s.setRegBit raw bit true
  if rises then s1.vectorDue (eventVector pg bit) else s1

/-- Count and capture an error of a page (R440, R607): ERR_CNT +1, and ERR_LOG0 and ERR_LOG1 where none is held. -/
def State.pageError (s : State) (pg offset iface cause : Nat) (log1 : Word) : State :=
  let s1 := s.bump pg R.hdr_ERR_CNT 31 1
  let a := pg * 0x1000 + 0x24
  if s1.regBit a 31 then s1
  else
    let w := offset % 4096 + (iface % 16) * 4096 + (cause % 256) * 65536 + 2 ^ 31
    ((s1.setReg a (BitVec.ofNat 32 w)).setReg (pg * 0x1000 + 0x28) log1).event pg 30

/-- First-error capture of RAS: the first CE, UE or FATAL report since it was cleared (R440). -/
def State.rasFirst (s : State) (cls code src : Nat) (loc : Dword) : State :=
  let a := pgRas * 0x1000 + 0x60
  if cls = 0 ∨ s.regBit a 31 then s
  else
    (((s.setReg a (BitVec.ofNat 32 (code + cls * 256 + 2 ^ 31))).setFld pgRas R.ras_FIRST0_SRC src).setFld64 pgRas R.ras_FIRST0_TB
      s.tb.toNat).setFld64 pgRas R.ras_FIRST1 loc.toNat

/-- Pins of the block that this model drives. -/
def pinAlert : Nat := 0
def pinThermtrip : Nat := 1
def pinFrameSync : Nat := 2
def pinCtlPwr : Nat := 3
def pinGridPwr : Nat := 4
def pinVid : Nat := 5

/-- The order of trace sources within one nanosecond (R532): watchdog, RAS, debug, cores by number, trace unit. -/
def traceRank (src : Nat) : Nat := if src = 0x11 then 0 else if src = 0x10 then 1 else if src = 0x12 then 2 else if src < 8 then 3 + src else 11
/-- A record takes its place in the buffer (newest first): before those of the same nanosecond that come from later sources; the SEQ fields
keep their places. -/
def traceInsert (r : List Byte) : List (List Byte) → List (List Byte)
  | [] => [r]
  | x :: xs =>
    if x.take 8 = r.take 8 ∧ traceRank (leNat ((r.drop 13).take 1)) < traceRank (leNat ((x.drop 13).take 1)) then
      (x.take 8 ++ (r.drop 8).take 4 ++ x.drop 12) :: traceInsert (r.take 8 ++ (x.drop 8).take 4 ++ r.drop 12) xs
    else r :: x :: xs
/-- Form a trace record (R531, R532, R534): filtered, it is not formed; past 64 buffered records it is dropped. -/
def State.traceRec (s : State) (typ src : Nat) (payload : List Byte) : State :=
  if !s.regBit (pgTrace * 0x1000 + 8) 0 || !bitOf (s.fld pgTrace R.trace_FILTER) typ then s
  else if 64 ≤ s.trace.buf.length then
    { s with trace := { s.trace with
        seq := (s.trace.seq + 1) % 2 ^ 32
        dropped := s.trace.dropped + 1 } }.bump pgTrace R.trace_LOST 0 1
  else
    let rec_ := leBytes 8 s.tb.toNat ++ leBytes 4 s.trace.seq ++ leBytes 1 typ ++ leBytes 1 src ++ leBytes 2 0 ++ (payload ++ List.replicate 16 0).take 16
    { s with trace := { s.trace with
        seq := (s.trace.seq + 1) % 2 ^ 32
        buf := (traceInsert rec_ s.trace.buf.reverse).reverse } }

/-- Activity of an owner: a tenant, or the device account (R418). -/
def State.actOwner (s : State) (owner : Nat) (f : Activity → Activity) : State :=
  { s with meter := { s.meter with act := mapSet Activity.zero s.meter.act owner (f (mapGet Activity.zero s.meter.act owner)) } }
def State.actItem (s : State) (item : Nat) (f : Activity → Activity) : State :=
  { s with meter := { s.meter with items := mapSet Activity.zero s.meter.items item (f (mapGet Activity.zero s.meter.items item)) } }

/-- Report an error to RAS (R438 to R442): totals, first-error capture, log record, events and vectors. -/
def State.rasReport (s : State) (cls code src : Nat) (loc : List Nat) (detail : Nat) : State :=
  let l := Config.rasLoc (code :: loc)
  let s1 := if cls = 1 then s.bump pgRas R.ras_CE_TOTAL 0 1 else if cls = 2 then s.bump pgRas R.ras_UE_TOTAL 1 1 else s
  let s2 := ((s1.rasFirst cls code src l).rasRecord cls code src l detail).traceRec 6 0x10
    (leBytes 1 code ++ leBytes 1 cls ++ leBytes 6 0 ++ leBytes 8 l.toNat)
  if cls = 1 then s2.event pgRas 0
  else if cls = 2 then s2.event pgRas 1
  else if cls = 3 then ((s2.setFld pgRas R.ras_FATAL_STS 1).emit (.pin pinAlert 0 s.tb)).event pgRas 2
  else s2

/-- A byte address of control SRAM as the cores see it (Table 15.1). -/
def sramAddr (off : Nat) : Nat := 0x10000000 + off
/-- Report a line that its owner did not supply in time (R484, steps 4 and 5). -/
def State.homeTimedOut (s : State) (core line : Nat) : State :=
  let a := sramAddr (64 * line)
  let s1 := (s.setFld pgCluster R.cluster_POISON_LOG (core % 8 + 2 ^ 31)).setFld pgCluster (R.cluster_POISON_LOG.up 4) a
  ((s1.rasReport 2 0x31 pgCluster [core, a] 0).bump pgCluster R.cluster_HOME_TO 0 1).event pgCluster 0
/-- Whole nanoseconds, rounded up, that cover tHOME (4,096 cc of 1.2 GHz, R484). -/
def tHomeNs : Nat := 3414
/-- Count and report one note of an access to control SRAM (R468, R484). -/
def State.reportNote (s : State) : SramNote → State
  | .ce => s.bump pgCluster R.cluster_SRAM_CE 2 1
  | .ue who off => (s.bump pgCluster R.cluster_SRAM_UE 3 1).rasReport 2 0x31 pgCluster [who, sramAddr off] 0
  | .dead core line => s.homeTimedOut core line
/-- At least tHOME has passed since an instant, differences taken modulo 2^64 (R28). -/
def State.homeLate (s : State) (t : Dword) : Bool := decide (tHomeNs ≤ (s.tb - t).toNat) && decide ((s.tb - t).toNat < 2 ^ 63)
/-- Count and report the notes that are due: a timeout's tHOME after its access. -/
def State.flushNotes (s : State) : State :=
  let due := fun (n : SramNote × Dword) => match n.1 with | .dead _ _ => s.homeLate n.2 | .ce | .ue _ _ => true
  (s.cl.notes.filter due).foldl (fun (a : State) n => a.reportNote n.1)
    { s with cl := { s.cl with notes := s.cl.notes.filter fun n => !due n } }

end Sys2Proof.Machine
end

