-- ==== Sys2Proof/Machine/Grid.lean ====
section
/-! DEFINITION. Coordinates and bypass (R57 to R63), access to cells, contexts and routers, the runs they belong to, faults of
runs (R650), and the repair events of a position (R446, R447). -/
namespace Sys2Proof.Machine

/-- The QROW_MAP byte of quadrant-row (q, y) (Table 20.15). -/
def State.qrow (s : State) (q y : Nat) : Nat :=
  let i := q * 32 + y
  bitsOf (s.reg (pgRepair * 0x1000 + 0x100 + i / 4 * 4)).toNat (8 * (i % 4) + 7) (8 * (i % 4))
def State.setQrow (s : State) (q y v : Nat) : State :=
  let i := q * 32 + y
  let a := pgRepair * 0x1000 + 0x100 + i / 4 * 4
  s.setReg a (BitVec.ofNat 32 (setBits (s.reg a).toNat (8 * (i % 4) + 7) (8 * (i % 4)) v))
/-- The fuse bypass value of a quadrant-row (R458). -/
def State.qhard (s : State) (q y : Nat) : Nat :=
  let i := q * 32 + y
  bitsOf (s.reg (pgRepair * 0x1000 + 0x180 + i / 4 * 4)).toNat (8 * (i % 4) + 4) (8 * (i % 4))
def State.bypass (s : State) (q y : Nat) : Nat := s.qrow q y % 32
def State.removed (s : State) (q y : Nat) : Bool := bitOf (s.qrow q y) 5
def State.spareBad (s : State) (q y : Nat) : Bool := bitOf (s.qrow q y) 6

/-- Physical position of a logical cell (R59). -/
def State.physOf (s : State) (x y : Nat) : Nat :=
  let q := x / 16
  let l := x % 16
  y * 68 + 17 * q + (if l < s.bypass q y then l else l + 1)

def posPx (pos : Nat) : Nat := pos % 68
def posPy (pos : Nat) : Nat := pos / 68
def posQ (pos : Nat) : Nat := pos % 68 / 17

/-- What a position holds (R63, Table 21.2): KIND 0 with its logical cell, 1 BYPASSED, 2 REMOVED. -/
def State.logicalOf (s : State) (pos : Nat) : Nat × Nat × Nat :=
  let q := posQ pos
  let y := posPy pos
  let l := posPx pos - 17 * q
  let b := s.bypass q y
  if s.removed q y then (2, 0, 0)
  else if l = b then (1, 0, 0)
  else (0, 16 * q + (if l < b then l else l - 1), y)
def State.holdsLogical (s : State) (pos : Nat) : Bool := (s.logicalOf pos).1 == 0

def State.cell (s : State) (pos : Nat) : Cell := mapGet Cell.zero s.grid.cells pos
def State.setCell (s : State) (pos : Nat) (c : Cell) : State :=
  { s with grid := { s.grid with cells := mapSet Cell.zero s.grid.cells pos c } }
def State.router (s : State) (pos : Nat) : Router := mapGet Router.zero s.grid.routers pos
def State.setRouter (s : State) (pos : Nat) (r : Router) : State :=
  { s with grid := { s.grid with routers := mapSet Router.zero s.grid.routers pos r } }
/-- Both banks released (R193). -/
def Matrix.released (m : Matrix) : Matrix := { m with a0 := { m.a0 with taken := false }, a1 := { m.a1 with taken := false } }
def Cell.ctx (c : Cell) (n : Nat) : Ctx := mapGet Ctx.blank c.ctxs n
def Cell.setCtx (c : Cell) (n : Nat) (x : Ctx) : Cell := { c with ctxs := mapSet Ctx.blank c.ctxs n x }
def State.ctx (s : State) (pos n : Nat) : Ctx := (s.cell pos).ctx n
def State.setCtx (s : State) (pos n : Nat) (x : Ctx) : State := s.setCell pos ((s.cell pos).setCtx n x)

/-- Positions of a section's cells, row by row. -/
def State.sectPositions (s : State) (t : Sect) : List Nat :=
  (List.range t.h).flatMap fun j => (List.range t.w).map fun i => s.physOf (t.orgX + i) (t.orgY + j)

/-- The section that context `n` of a position holds. -/
def State.sectAt (s : State) (pos n : Nat) : Option Sect :=
  let c := s.ctx pos n
  if c.state = .empty then none else s.work.sects.find? fun t => t.region == c.region && t.ctx == n
def State.sectByRegion (s : State) (region : Nat) : Option Sect := s.work.sects.find? fun t => t.region == region
def State.sectById (s : State) (sid : Nat) : Option Sect := s.work.sects.find? fun t => t.sid == sid && t.live

def Run.going (r : Run) : Bool := r.phase == .active || r.phase == .draining

/-- Change the runs of a section that are in progress. -/
def State.onRuns (s : State) (sid : Nat) (f : Run → Run) : State :=
  { s with work := { s.work with runs := s.work.runs.map fun r => if r.sid == sid && r.going then f r else r } }

def endPoison : Ending := ⟨0x30, 0, 0⟩
/-- fc since an instant at the clock now set. -/
def State.fcSince (s : State) (t0 : Dword) : Nat := (s.tb - t0).toNat * s.fld pgPower R.power_DVFS2 / 1000
/-- fc a run has used (R36). -/
def State.runUsed (s : State) (r : Run) : Nat := r.fcBefore + s.fcSince r.startTb

/-- Which of two final outcomes of one fc is written: FAULT, then REFUSED, then DONE. -/
def postRank (code : Nat) : Nat := if 0x30 ≤ code then 2 else if 0x20 ≤ code then 1 else 0
/-- Combine an outcome with one that waits (R654). -/
def postMerge (old : Option Post) (p : Post) : Option Post :=
  match old with
  | none => some p
  | some o =>
    if o.final then
      (if p.final && p.at_ == o.at_ && decide (postRank o.code < postRank p.code) then some p else some o)
    else some p

/-- A run met its completion condition in this fc. -/
def State.justDone (s : State) (r : Run) : Bool :=
  r.phase == .ended && r.cut == 0 && r.fault.isNone && !r.poison && s.fcSince r.doneAt == 0
/-- A fault detected in the fc of a run's completion condition prevails over DONE (R38). -/
def State.faultDone (s : State) (sid : Nat) (e : Ending) : State :=
  match s.work.runs.find? fun r => r.sid == sid && s.justDone r with
  | none => s
  | some r => { s with work := { s.work with
      runs := s.work.runs.map fun x => if x = r then { x with fault := some e } else x
      descs := s.work.descs.map fun d => if d.id = r.item then { d with
        done := d.done.filter (· != sid)
        conts := []
        post := postMerge d.post ⟨e.code, e.reason, e.detail, true, r.doneAt⟩ } else d } }
/-- A fault detected in a run (R650): its drain starts. The first fault detected is the run's: where the run consumed poison before, that is
FAULT_POISON (Table 5.10), and a second fault changes nothing. -/
def Run.faulted (e : Ending) (r : Run) : Run :=
  match r.fault with
  | some _ => r
  | none => { r with fault := some (if r.poison then endPoison else e), phase := .draining, cut := if r.cut = 0 then 3 else r.cut }
/-- A section's run in progress is cut: its engines stop until a run of it starts (R258). -/
def State.haltSection (s : State) (sid : Nat) : State :=
  if s.work.runs.any fun r => r.sid == sid && r.going then
    { s with work := { s.work with sects := s.work.sects.map fun (t : Sect) => if t.sid = sid then { t with halted := true } else t } }
  else s
def State.faultSection (s : State) (sid : Nat) (e : Ending) : State := ((s.faultDone sid e).haltSection sid).onRuns sid (Run.faulted e)
def State.faultRunAt (s : State) (pos n : Nat) (e : Ending) : State :=
  match s.sectAt pos n with
  | none => s
  | some t => s.faultSection t.sid e
def State.faultRegion (s : State) (region : Nat) (e : Ending) : State :=
  match s.sectByRegion region with
  | none => s
  | some t => s.faultSection t.sid e
/-- A run consumes a poisoned granule or element (R124, R125). -/
def State.poisonRunAt (s : State) (pos n : Nat) : State :=
  match s.sectAt pos n with
  | none => s
  | some t => (s.faultDone t.sid endPoison).onRuns t.sid fun r => { r with poison := true }

/-- Activity of the run that is in progress on a region, or of the device account (R418). -/
def State.actRegion (s : State) (region : Nat) (f : Activity → Activity) : State :=
  match s.sectByRegion region with
  | none => s.actOwner 1024 f
  | some t =>
    match s.work.runs.find? fun r => r.sid == t.sid && r.going with
    | none => s.actOwner 1024 f
    | some r =>
      match s.work.descs.find? fun d => d.id == r.item with
      | none => s.actOwner 1024 f
      | some d => (s.actOwner d.tenant f).actItem d.id f
def Activity.addUnits (n : Nat) (a : Activity) : Activity := { a with units := a.units + n }
def Activity.addFlits (n : Nat) (a : Activity) : Activity := { a with flits := a.flits + n }
def Activity.addEth (n : Nat) (a : Activity) : Activity := { a with ethBytes := a.ethBytes + n }

def endDone : Ending := ⟨0x00, 0, 0⟩
def endBound : Ending := ⟨0x31, 0, 0⟩
def endTag : Ending := ⟨0x32, 0, 0⟩
def endTimeout : Ending := ⟨0x33, 0, 0⟩
def endFormat (reason : Nat) : Ending := ⟨0x34, reason, 0⟩
def endInternal : Ending := ⟨0x3F, 0, 0⟩

/-- The low half of the SECTION_ID of the run at a position, for a RAS record's DETAIL. -/
def State.detailAt (s : State) (pos n : Nat) : Nat :=
  match s.sectAt pos n with
  | none => 0
  | some t => t.sid % 2 ^ 32

/-- A degradation cause of Table 14.12 arises or ends; TOP's DEG_CHANGE event follows a change (R462). -/
def State.setCause (s : State) (bit : Nat) (b : Bool) : State :=
  let a := pgTop * 0x1000 + 0x50
  if s.regBit a bit = b then s else (s.setRegBit a bit b).event pgTop 0

def State.setPosFaulty (s : State) (pos : Nat) : State :=
  s.setRegBit (pgRepair * 0x1000 + 0x200 + pos / 32 * 4) (pos % 32) true

/-- Decide what a faulty position that holds a logical cell leads to (R447). -/
def State.decideRepair (s : State) (pos : Nat) : State :=
  let q := posQ pos
  let y := posPy pos
  let p := posPx pos - 17 * q
  let s1 := s.setCause 8 true
  let pendingHere := s.grid.shifts.any fun t => t.1 == q && t.2.1 == y
  if s.bypass q y = 16 ∧ s.spareBad q y = false ∧ s.grid.spareBads.contains (q, y) = false ∧ pendingHere = false then
    { s1 with grid := { s1.grid with shifts := s1.grid.shifts ++ [(q, y, p, 0)] } }
  else
    { s1 with grid := { s1.grid with
        shifts := s1.grid.shifts.filter fun t => !(t.1 == q && t.2.1 == y)
        removals := if s1.grid.removals.contains (q, y) then s1.grid.removals else s1.grid.removals ++ [(q, y)] } }

/-- A position is judged faulty (R446 to R448). -/
def State.makeFaulty (s : State) (pos : Nat) : State :=
  let k := mapGet Strikes.zero s.grid.strikes pos
  if k.faulty then s
  else
    let s1 := (({ s with grid := { s.grid with strikes := mapSet Strikes.zero s.grid.strikes pos { k with faulty := true } } }).setPosFaulty
      pos).event pgRepair 0
    if s1.holdsLogical pos then
      if s1.regBit (pgRepair * 0x1000 + 8) 8 then s1.decideRepair pos
      else { s1.setCause 8 true with grid := { (s1.setCause 8 true).grid with awaiting := s1.grid.awaiting ++ [pos] } }
    else
      let at_ := (posQ pos, posPy pos)
      let s2 := { s1 with grid := { s1.grid with spareBads := at_ :: s1.grid.spareBads } }
      if s2.grid.shifts.any fun t => (t.1, t.2.1) == at_ then
        { s2 with grid := { s2.grid with
            shifts := s2.grid.shifts.filter fun t => (t.1, t.2.1) != at_
            removals := s2.grid.removals ++ [at_] } }
      else s2

/-- Instants within `w` ns before now. -/
def recent (now : Dword) (w : Nat) (ts : List Dword) : List Dword := ts.filter fun t => decide ((now - t).toNat ≤ w)

/-- A strike at a position (R446): faulty once STRIKE_THR strikes lie within STRIKE_WIN_H hours. -/
def State.strike (s : State) (pos : Nat) : State :=
  let k := mapGet Strikes.zero s.grid.strikes pos
  let ts := recent s.tb (s.fld pgRepair R.repair_THR0_STRIKE_WIN_H * 3600000000000) (s.tb :: k.times)
  let s1 := { s with grid := { s.grid with strikes := mapSet Strikes.zero s.grid.strikes pos { k with times := ts } } }
  if s.fld pgRepair R.repair_THR0_STRIKE_THR ≤ ts.length then s1.makeFaulty pos else s1

/-- An SP_CE report at a position (R446): CE_THR of them within CE_WIN_S make a strike, and the count restarts. -/
def State.ceReport (s : State) (pos : Nat) : State :=
  let k := mapGet Strikes.zero s.grid.strikes pos
  let ts := recent s.tb (s.fld pgRepair R.repair_THR2 * 1000000000) (s.tb :: k.ceTimes)
  if s.fld pgRepair R.repair_THR1 ≤ ts.length then
    ({ s with grid := { s.grid with strikes := mapSet Strikes.zero s.grid.strikes pos { k with ceTimes := [] } } }).strike pos
  else { s with grid := { s.grid with strikes := mapSet Strikes.zero s.grid.strikes pos { k with ceTimes := ts } } }

/-- The clocks outside the always-on domain run: power is on, no power cut has stopped them (R433, R638) and THERMTRIP_N is high
(R416), and the device is not in STANDBY (R593). -/
def State.clocked (s : State) : Bool :=
  s.sys.on_ && !s.sys.tripped && s.sys.cut.isNone && !(s.sys.lpPhase == .asleep && s.sys.lpTarget == 4)
/-- The grid is powered and clocked, out of GRID reset and not napping (R130, R134, R638). -/
def State.gridRuns (s : State) : Bool := s.grid.on_ && !s.grid.heldReset && !s.grid.nap && s.clocked
/-- A unit of the grid acts only while the grid clocks run. -/
def State.onGrid (s : State) (k : Host.Outcome State Fault Refusal) : Host.Outcome State Fault Refusal :=
  if s.gridRuns then k else s.passOver "the grid clocks do not run"
/-- A unit outside the always-on domain acts only while its clocks run. -/
def State.onClock (s : State) (k : Host.Outcome State Fault Refusal) : Host.Outcome State Fault Refusal :=
  if s.clocked then k else s.passOver "the clocks are stopped"

/-- SUSPEND on entry to a power state, and the flushed buffer is the caller's (R535): 1 NAP, 2 SLEEP, 3 STANDBY. -/
def State.suspendRec (s : State) (code : Nat) : State :=
  { s with sys := { s.sys with suspendTb := s.tb } }.traceRec 3 0x13 (leBytes 1 code)
/-- RESUME on exit (R535). -/
def State.resumeRec (s : State) (code : Nat) : State :=
  s.traceRec 4 0x13 (leBytes 1 code ++ List.replicate 7 0 ++ leBytes 8 s.sys.suspendTb.toNat)
/-- The grid clocks restart out of NAP (R588). -/
def State.endNap (s : State) : State :=
  if s.grid.nap then ({ s with grid := { s.grid with nap := false } }.setFld pgPower R.power_LP_STATE 0).resumeRec 1 else s
/-- A scratchpad access or an arriving image restarts the grid clocks, until the next tick. -/
def State.wakeGrid (s : State) : State :=
  if s.grid.nap then { s.endNap with grid := { s.endNap.grid with stayAwake := true } } else s

end Sys2Proof.Machine
end

