-- ==== Sys2Proof/Machine/Scratchpad.lean ====
section
/-! DEFINITION. Scratchpad memory (R101 to R135, R648): addressing and bound, syndrome classes on reads and writes, scrubbing,
remote accesses and BAR4. -/
namespace Sys2Proof.Machine

/-- A soft error strikes a granule: `cls` is the class its syndrome then has, `flips` the raw bits it turns. A granule that had at most one
bit turned and has one bit turned keeps its corrected bytes. -/
def EccMem.strikeOne (m : EccMem) (gsize : Nat) (u : Upset) : EccMem :=
  let old := m.cls u.granule
  if u.cls = .clean then m
  else if u.cls = .ce ∧ (old = .clean ∨ old = .ce) then m.setCls u.granule .ce
  else (m.write (u.granule * gsize) (leBytes gsize (leNat (m.read (u.granule * gsize) gsize) ^^^ u.flips))).setCls u.granule u.cls
def EccMem.strikeAll (m : EccMem) (gsize : Nat) (us : List Upset) : EccMem := us.foldl (fun a u => a.strikeOne gsize u) m
def State.strikeSlice (s : State) (pos : Nat) (us : List Upset) : State :=
  if us.isEmpty then s else let c := s.cell pos; s.setCell pos { c with slice := c.slice.strikeAll 8 us }

/-- Location of a scratchpad report (Table 14.1). -/
def spLoc (pos off : Nat) : List Nat := [posPx pos, posPy pos, off]

/-- Count and report a CE found in a granule (Table 4.6, R446). -/
def State.spCe (s : State) (pos off : Nat) : State :=
  (((s.bump (pgCell pos) R.cell_SP_CE 0 1).event (pgCell pos) 5).rasReport 1 0x01 (pgCell pos) (spLoc pos off) 0).ceReport pos
/-- Count and report a UE found in a granule: one strike of the position. -/
def State.spUe (s : State) (pos off : Nat) : State :=
  (((s.bump (pgCell pos) R.cell_SP_UE 1 1).event (pgCell pos) 6).rasReport 2 0x02 (pgCell pos) (spLoc pos off) 0).strike pos
def State.spPoisonRd (s : State) (pos : Nat) : State := s.bump (pgCell pos) R.cell_SP_POISON_RD 2 1
def State.spScrubOw (s : State) (pos : Nat) : State := s.bump (pgCell pos) R.cell_SP_SCRUB_OW 3 1

/-- Change the slice of a position. -/
def State.onSlice (s : State) (pos : Nat) (f : EccMem → EccMem) : State :=
  let c := s.cell pos
  s.setCell pos { c with slice := f c.slice }

/-- Read one granule (R120, R122): whether it is delivered with the poison syndrome. -/
def State.spReadGranule (s : State) (pos g : Nat) : State × Bool :=
  match (s.cell pos).slice.cls g with
  | .clean => (s, false)
  | .ce =>
    let c := s.cell pos
    ((s.setCell pos { c with wbq := if c.wbq.any (fun e => e.1 == g) then c.wbq else c.wbq ++ [(g, c.slice.read (g * 8) 8)] }).spCe
      pos (g * 8), false)
  | .poison => (s.spPoisonRd pos, true)
  | .ue => ((s.onSlice pos fun m => m.setCls g .poison).spUe pos (g * 8), true)

/-- Read granules `g`, `g + 1`, …; answers the poisoned ones. -/
def State.spReadGranules (s : State) (pos g : Nat) : Nat → State × List Nat
  | 0 => (s, [])
  | n + 1 =>
    let (s1, p) := s.spReadGranule pos g
    let (s2, ps) := s1.spReadGranules pos (g + 1) n
    (s2, if p then g :: ps else ps)

/-- How many granules of 8 bytes a range touches. -/
def granulesOf (off size : Nat) : Nat := if size = 0 then 0 else (off + size - 1) / 8 + 1 - off / 8

/-- Read `size` bytes at a slice offset: the bytes, the poisoned granules and the state. -/
def State.spRead (s : State) (pos off size : Nat) : State × List Byte × List Nat :=
  let (s1, ps) := s.spReadGranules pos (off / 8) (granulesOf off size)
  (s1, (s1.cell pos).slice.read off size, ps)

/-- Write part or all of one granule (Tables 4.7 and 4.7a). `poison`: the data arrives with the poison syndrome. A pending CE
write-back of the granule is cancelled (R122). -/
def State.spWriteGranule (s : State) (pos off : Nat) (bs : List Byte) (poison : Bool) : State :=
  let g := off / 8
  let full := decide (off % 8 = 0) && decide (8 ≤ bs.length)
  let c := s.cell pos
  let old := c.slice.cls g
  let cls : EccClass :=
    if poison then .poison
    else if full then .clean
    else match old with | .ue => .poison | .poison => .poison | _ => .clean
  let s1 := s.setCell pos { c with slice := (c.slice.write off bs).setCls g cls, wbq := c.wbq.filter fun e => e.1 != g }
  match old with
  | .clean => s1
  | .ce => s1.spCe pos (g * 8)
  | .ue => let s2 := s1.spUe pos (g * 8); if full && !poison then s2.spScrubOw pos else s2
  | .poison => if full then (if poison then s1 else s1.spScrubOw pos) else s1.spPoisonRd pos

/-- Write bytes at a slice offset, granule by granule; `poison` lists the granules whose data carries the poison syndrome.
`fuel` bounds the granules. -/
def State.spWriteFrom (s : State) (pos off : Nat) (bs : List Byte) (poison : List Nat) : Nat → State
  | 0 => s
  | fuel + 1 =>
    if bs.isEmpty then s
    else
      let n := 8 - off % 8
      (s.spWriteGranule pos off (bs.take n) (poison.contains (off / 8))).spWriteFrom pos (off + n) (bs.drop n) poison fuel
def State.spWrite (s : State) (pos off : Nat) (bs : List Byte) (poison : List Nat) : State :=
  s.spWriteFrom pos off bs poison (granulesOf off bs.length)

/-- Where a scratchpad address leads (R102 to R108). -/
inductive SpTarget where
  | slice (off : Nat)
  | remote (x y off : Nat)
  | bound
  | format
deriving DecidableEq, Repr

def accessSizeOk (size : Nat) : Bool :=
  size == 1 || size == 2 || size == 4 || size == 8 || size == 16 || size == 32 || size == 64

/-- Resolve a range of `size` bytes at a scratchpad address of a context, without the access-size rule. An address of 2^32 or
more stands for an effective OFFSET above 0x7_FFFF (R215). -/
def Ctx.range (c : Ctx) (addr size : Nat) : SpTarget :=
  let off := bitsOf addr 18 0
  let dx := bitsOf addr 24 19
  let dy := bitsOf addr 29 25
  if 2 ^ 32 ≤ addr then .bound
  else if bitOf addr 31 then .format
  else if bitOf addr 30 then
    (if dx < c.w ∧ dy < c.h then .remote (c.orgX + dx) (c.orgY + dy) off else .bound)
  else if dx ≠ 0 ∨ dy ≠ 0 then .format
  else if off + size ≤ c.bound * 1024 then .slice (c.base * 1024 + off)
  else .bound

/-- Resolve one access (R102): size and alignment first. -/
def Ctx.access (c : Ctx) (addr size : Nat) : SpTarget :=
  if accessSizeOk size && addr % size == 0 then c.range addr size else .format

/-- log2 of an access size. -/
def sizeLog (size : Nat) : Nat := Nat.log2 (max size 1)

/-- An out-of-bound access found at a position (R109, Table 21.3). -/
def State.boundFault (s : State) (pos n addr size : Nat) (target : Bool) : State :=
  (s.event (pgCell pos) 4).pageError (pgCell pos) (n % 4 + sizeLog size * 16 + b2n target * 256) 0xF 0x14 (BitVec.ofNat 32 addr)

/-- An engine's access that is out of bound, or malformed: it is not performed and the run is cut (R102, R109, R650). -/
def State.issuerBound (s : State) (pos n addr size : Nat) : State :=
  (s.boundFault pos n addr size false).faultRunAt pos n endBound
def State.issuerFormat (s : State) (pos n : Nat) : State := s.faultRunAt pos n (endFormat 4)

/-- A corrected granule is written back. Where the granule has become UE or POISON since it was read, the write resolves by that class
(Table 4.7). -/
def State.writeBack (s : State) (pos granule : Nat) (bs : List Byte) : State :=
  let c := s.cell pos
  match c.slice.cls granule with
  | .clean | .ce => s.setCell pos { c with
      wbq := c.wbq.filter fun e => e.1 != granule
      slice := (c.slice.write (8 * granule) bs).setCls granule .clean }
  | .ue | .poison => s.spWriteGranule pos (8 * granule) bs false
/-- CE_WRITEBACK (R122): a corrected granule is written back, unless a write has cancelled it. -/
def execCeWriteback (pos granule : Nat) (s : State) : Host.Outcome State Fault Refusal := s.onGrid <|
  match (s.cell pos).wbq.find? fun e => e.1 == granule with
  | some e => .next (s.writeBack pos granule e.2)
  | none => s.passOver "no CE write-back of this granule is pending"

/-- The lowest-numbered context of a position that holds a REGION (R108). An EMPTY context, whose REGION field reads 0, matches none:
the model's choice (log entry 86). -/
def State.ctxOfRegion (s : State) (pos region : Nat) : Option Nat :=
  [0, 1, 2, 3].find? fun n => (s.ctx pos n).state != .empty && (s.ctx pos n).region == region

/-- SCRUB_VISIT (R127, R128, R130): one granule is read and classified; the scrubber moves on. -/
def execScrubVisit (pos : Nat) (hits : List Upset) (s : State) : Host.Outcome State Fault Refusal :=
  if s.fld (pgCell pos) R.cell_SP_SCRUB_PERIOD_S = 0 then s.passOver "the scrubber is stopped"
  else if !(s.gridRuns && s.holdsLogical pos) then s.passOver "the scrubber does not run here"
  else
    let s0 := s.strikeSlice pos hits
    let g := (s0.cell pos).scrubPos
    let (s1, _) := s0.spReadGranule pos g
    let c := s1.cell pos
    .next (s1.setCell pos { c with scrubPos := (g + 1) % 65536, passStart := if g + 1 = 65536 then some s1.tb else c.passStart })

/-- When the scrubber's pass at a position began. -/
def State.passFrom (s : State) (pos : Nat) : Dword := (s.cell pos).passStart.getD s.grid.scrubFrom
/-- SCRUB_LATE (R129): the pass has not finished within its period. -/
def execScrubLate (pos : Nat) (s : State) : Host.Outcome State Fault Refusal :=
  let period := s.fld (pgCell pos) R.cell_SP_SCRUB_PERIOD_S
  if period = 0 ∨ !(s.gridRuns && s.holdsLogical pos) then s.passOver "the scrubber does not run here"
  else if (s.tb - s.passFrom pos).toNat < period * 1000000000 then s.passOver "the scrub pass is within its period"
  else .next (((s.setCell pos { s.cell pos with passStart := some s.tb }).setFld (pgCell pos) R.cell_SP_SCRUB_LATE 1).event (pgCell pos) 7)

/-- A logical cell moves in a shift, from the tick that excludes it until the swap (R449). -/
def State.moving (s : State) (x y : Nat) : Bool :=
  s.grid.shifts.any fun t => t.1 == x / 16 && t.2.1 == y && decide (t.2.2.1 ≤ x % 16) && decide (1 ≤ t.2.2.2)

/-- BAR4 reaches a logical cell in service (R134, R449). -/
def State.cellServed (s : State) (x y : Nat) : Bool :=
  s.grid.on_ && !s.grid.heldReset && !s.removed (x / 16) y && !s.moving x y

/-- An access to the scratchpad window: offset (y·64 + x)·524,288 + o of PF0's BAR4. PCI Express lets no request cross a 4 KiB boundary;
one that crosses a cell's 512 KiB completes as Unsupported Request, the model's choice (log entry 86). The data of a poisoned TLP are stored
with the poison syndrome (assumption 93). -/
def State.bar4Access (s : State) (write : Bool) (off size : Nat) (data : TlpData) (hits : List Upset) : State :=
  let i := off / 524288
  let x := i % 64
  let y := i / 64
  let o := off % 524288
  if 2048 ≤ i ∨ 524288 < o + size ∨ !s.cellServed x y then s.emit .unsupported
  else
    let pos := s.physOf x y
    let s0 := s.wakeGrid.strikeSlice pos hits
    if write then s0.spWrite pos o (takePad 0 size data.bytes) (if data.poison then (List.range (granulesOf o size)).map (· + o / 8) else [])
    else
      let (s1, bs, ps) := s0.spRead pos o size
      s1.emit (.completion bs (!ps.isEmpty))
/-- BAR4_SCRATCHPAD_ACCESS (R100, R131 to R135, R588): while a tick waits to apply a swap, the access is held at the host link. -/
def execBar4ScratchpadAccess (write : Bool) (off size : Nat) (data : TlpData) (hits : List Upset) (s : State) :
    Host.Outcome State Fault Refusal := s.onClock <|
  if s.sys.tickRest.isSome then .next { s with grid := { s.grid with heldBar4 := s.grid.heldBar4 ++ [⟨write, off, size, data, hits⟩] } }
  else .next (s.bar4Access write off size data hits)
/-- The BAR4 accesses held at the host link enter. -/
def State.releaseBar4 (s : State) : State :=
  s.grid.heldBar4.foldl (fun (a : State) e => a.bar4Access e.write e.off e.size e.data e.hits)
    { s with grid := { s.grid with heldBar4 := [] } }

end Sys2Proof.Machine
end

