-- ==== Sys2Proof/Machine/Time.lean ====
section
/-! DEFINITION. Tick instants and phases (R17, R28 to R33), outcomes of descriptors (R654). -/
namespace Sys2Proof.Machine

/-- The period and guard in force, in ns. -/
def State.periodNs (s : State) : Nat := s.fld pgFrame R.frame_PERIOD_EFF * 1000
def State.guardNs (s : State) : Nat := s.fld pgFrame R.frame_GUARD_EFF * 1000
def State.frameNo (s : State) : Nat := s.fld64 pgFrame R.frame_COUNT
def State.epoch (s : State) : Nat := s.fld64 pgFrame R.frame_EPOCH
/-- T(n) (R28). -/
def State.tickAt (s : State) (n : Nat) : Dword := BitVec.ofNat 64 (s.epoch + n * s.periodNs)
/-- The instant at which the guard of the frame in progress starts. -/
def State.guardStart (s : State) : Dword := s.tickAt (s.frameNo + 1) - BitVec.ofNat 64 s.guardNs
/-- `a` lies strictly before `b`, differences taken modulo 2^64 (R28). -/
def before (a b : Dword) : Bool := decide ((b - a).toNat ≠ 0) && decide ((b - a).toNat < 2 ^ 63)
/-- The timebase moves forward to an instant, never back (R17; assumption 4); without REFCLK_SYS it stands (Table 22.6). -/
def State.advance (s : State) (t : Dword) : State := if !s.sys.refLost && before s.tb t then { s with tb := t } else s
/-- A write of FRAME.TB (R21): the watchdog's t_last, and the instant its count was stopped at, move by the same amount (R522). -/
def State.setTimebase (s : State) (v : Dword) : State :=
  { s with
    tb := v
    wdt := { s.wdt with
      tLast := s.wdt.tLast + (v - s.tb)
      frozenAt := s.wdt.frozenAt.map fun t => t + (v - s.tb) } }
def State.curMhz (s : State) : Nat := s.fld pgPower R.power_DVFS2
/-- ns that `n` fc take at the clock in force, rounded up. -/
def State.nsOfFc (s : State) (n : Nat) : Nat := (n * 1000 + s.curMhz - 1) / max s.curMhz 1
/-- Run-phase length in fc, F (R378). -/
def State.runFc (s : State) : Nat := (s.periodNs - 2000 - s.guardNs) * s.curMhz / 1000
/-- The clocks of the control domain run: the device has power, THERMTRIP_N is high, REFCLK_SYS runs, no power cut (R416, R433, R521). -/
def State.alive (s : State) : Bool := s.sys.on_ && !s.sys.tripped && !s.sys.refLost && s.sys.cut.isNone
/-- The frame engine runs (R31). -/
def State.frameOn (s : State) : Bool := s.alive && s.flag pgFrame R.hdr_CTL_ENABLE && decide (s.fld pgPower R.power_LP_STATE < 3)

/-- An outcome arises for a descriptor in flight. -/
def State.post (s : State) (d code reason detail : Nat) (final : Bool) : State :=
  { s with work := { s.work with descs := s.work.descs.map fun x =>
      if x.id = d then { x with post := postMerge x.post ⟨code, reason, detail, final, s.tb⟩ } else x } }
def State.postEnd (s : State) (d : Nat) (e : Ending) : State := s.post d e.code e.reason e.detail true
/-- Change a descriptor. -/
def State.onDesc (s : State) (d : Nat) (f : Desc → Desc) : State :=
  { s with work := { s.work with descs := s.work.descs.map fun x => if x.id = d then f x else x } }
def State.desc (s : State) (d : Nat) : Option Desc := s.work.descs.find? fun x => x.id == d

/-- Fields of an SQ entry (Tables 10.7, 10.8). -/
def Desc.type (d : Desc) : Nat := leNat (d.sq.take 1)
def Desc.at_ (d : Desc) (o k : Nat) : Nat := leNat ((d.sq.drop o).take k)
def Desc.cls (d : Desc) : Nat := d.at_ 1 1
def Desc.noDefer (d : Desc) : Bool := bitOf (d.at_ 2 2) 0
def Desc.cmdId (d : Desc) : Nat := if d.sq.isEmpty then 0xFFFFFFFF else d.at_ 4 4
def Desc.deadlineUs (d : Desc) : Nat := d.at_ 8 4
def Desc.sid (d : Desc) : Nat := d.at_ 0x10 8
def Desc.maxFrames (d : Desc) : Nat := d.at_ 0x20 4
/-- Argument table entry `k` (R321b): ADDR, LEN, KIND. -/
def Desc.arg (d : Desc) (k : Nat) : Nat × Nat × Nat :=
  let b := d.host.drop (16 * k)
  (leNat (b.take 8), leNat ((b.drop 8).take 4), leNat ((b.drop 12).take 1))
def Desc.isRun (d : Desc) : Bool := d.type == 1

/-- Completion statuses of refusals (Table 10.10). -/
def refCapacity : Nat := 0x20
def refQuota : Nat := 0x21
def refPower : Nat := 0x22
def refMemory : Nat := 0x23
def refDeadline : Nat := 0x24
def refDegraded : Nat := 0x25

end Sys2Proof.Machine
end

