-- ==== Sys2Proof/Machine/Modules.lean ====
section
/-! DEFINITION. Module memory (R268 to R281, R302, R310 to R312, R316, R344): address views, granules and their classes, BAR4 and
CXL.mem accesses, patrol scrubbing, write CRC errors. -/
namespace Sys2Proof.Machine

def State.module (s : State) (c : Nat) : Module := mapGet Module.zero s.mods c
def State.setModule (s : State) (c : Nat) (m : Module) : State := { s with mods := mapSet Module.zero s.mods c m }

/-! ### Bits of MEMn.STS (Table 21.7) -/
def memStsAddr (c : Nat) : Nat := pgMem c * 0x1000 + 0x48
def State.memTrained (s : State) (c : Nat) : Bool := s.regBit (memStsAddr c) 0
def State.inService (s : State) (c : Nat) : Bool := s.regBit (memStsAddr c) 1
def State.memLost (s : State) (c : Nat) : Bool := s.regBit (memStsAddr c) 4
def State.moduleGib (s : State) (c : Nat) : Nat := bitsOf (s.reg (memStsAddr c)).toNat 16 8
def State.servedChannels (s : State) : List Nat := (List.range 16).filter s.inService

/-- The interleave set and the capacity S in force (R271, R274). -/
def State.ilvSet (s : State) : List Nat := (List.range 16).filter fun c => bitOf (s.fld (pgMem 0) R.mem_ILV) c
def State.ilvS (s : State) : Nat := s.fld (pgMem 0) (R.mem_ILV.up 4) % 512 * 2 ^ 30
/-- Host-exposed bytes per channel in force (R302). -/
def State.hdmBytes (s : State) : Nat := s.fld (pgMem 0) R.mem_HDM * 2 ^ 30

/-- A module sits in a channel that is not in service: it failed training, is not supported, or was lost (R268, R454, Table 9.2). -/
def State.moduleOut (s : State) (c : Nat) : Bool :=
  !s.inService c && (s.memLost c || s.regBit (memStsAddr c) 3 || decide (0 < (s.module c).trainFails))
/-- The population is full and every module of it is in service (R272, R462). -/
def State.channelsWhole (s : State) : Bool :=
  (s.servedChannels == List.range 16 || s.servedChannels == [0, 2, 4, 6, 8, 10, 12, 14]) && !(List.range 16).any s.moduleOut
def State.channelCause (s : State) : State := s.setCause 3 (!s.channelsWhole)

/-- Where a local address leads (R274, R275, R345, Tables 9.3 and 11.7). -/
inductive MemLoc where
  | module (ch off : Nat) (interleaved : Bool)
  | scratch (x y off : Nat)
  | lost
  | bound
deriving DecidableEq, Repr

def State.memLoc (s : State) (a : Nat) : MemLoc :=
  if a < 0x100000000000 then
    let l := s.ilvSet
    if l.isEmpty ∨ l.length * s.ilvS ≤ a then .bound
    else
      let i := a / 256
      let c := l.getD (i % l.length) 0
      if s.inService c then .module c (i / l.length * 256 + a % 256) true else .lost
  else if a < 0x180000000000 then
    let c := a / 0x4000000000 - 64
    let o := a % 0x4000000000
    if c < 16 ∧ o < s.ilvS ∧ s.inService c then .module c o false else .bound
  else if 0x200000000000 ≤ a ∧ a < 0x200000000000 + 2048 * 0x80000 then
    let i := a % 0x200000000000 / 0x80000
    .scratch (i % 64) (i / 64) (a % 0x80000)
  else .bound

/-- The pieces of a range, cut at 64-byte boundaries: address, length. -/
def memPieces (a n : Nat) : List (Nat × Nat) :=
  if n = 0 then [] else
    (List.range ((a + n - 1) / 64 - a / 64 + 1)).map fun i =>
      let lo := max a (64 * (a / 64 + i))
      (lo, min (a + n) (64 * (a / 64 + i + 1)) - lo)

/-- Byte values that module memory comes to hold (R276). -/
def State.holdBytes (s : State) (bs : List Byte) : State :=
  { s with modHeld := bs.foldl (fun (h : BitVec 256) b => h ||| BitVec.twoPow 256 b.toNat) s.modHeld }
/-- Bytes of a channel view as a view shows them: through the interleaved view, a byte not written since the set was re-formed is
undefined, a free one of those module memory has held, or zero (R276). -/
def State.viewBytes (s : State) (c off : Nat) (interleaved : Bool) : Nat → State × List Byte
  | 0 => (s, [])
  | n + 1 =>
    let m := s.module c
    if interleaved && m.reformed && !mapGet false m.written off then
      let (v, s1) := s.takeFree
      let (s2, r) := s1.viewBytes c (off + 1) interleaved n
      (s2, (if s.modHeld.getLsbD (v.toNat % 256) then BitVec.ofNat 8 v.toNat else 0) :: r)
    else
      let (s2, r) := s.viewBytes c (off + 1) interleaved n
      (s2, mapGet 0 m.mem.bytes off :: r)

/-- Report a CE or a UE of a module granule (R279, R280, Table 14.1). -/
def State.memCe (s : State) (c off : Nat) : State := (s.bump (pgMem c) R.mem_CE_CNT 0 1).rasReport 1 0x10 (pgMem c) [c, off] 0
def State.memUe (s : State) (c off : Nat) : State :=
  let m := s.module c
  (((s.setModule c { m with ueTimes := recent s.tb 3600000000000 (s.tb :: m.ueTimes) }).bump (pgMem c) R.mem_UE_CNT 1 1).event
    (pgMem c) 2).rasReport 2 0x11 (pgMem c) [c, off] 0

/-- Read one granule: classify it and deliver it, poisoned or not (R279, R280). -/
def State.memReadGranule (s : State) (c g : Nat) : State × Bool :=
  let m := s.module c
  match m.mem.cls g with
  | .clean => (s, false)
  | .ce => ((s.setModule c { m with wbq := if m.wbq.contains g then m.wbq else m.wbq ++ [g] }).memCe c (g * 64), false)
  | .poison => (s.bump (pgMem c) R.mem_POISON_RD 2 1, true)
  | .ue => ((s.setModule c { m with mem := m.mem.setCls g .poison }).memUe c (g * 64), true)

/-- Write within one granule, resolving by its old class (Tables 4.7 and 4.7a at 64 bytes). -/
def State.memWriteGranule (s : State) (c off : Nat) (bs : List Byte) (poison : Bool) : State :=
  let g := off / 64
  let full := decide (64 ≤ bs.length)
  let m := s.module c
  let old := m.mem.cls g
  let cls : EccClass :=
    if poison then .poison
    else if full then .clean
    else match old with | .ue => .poison | .poison => .poison | _ => .clean
  let s1 := (s.holdBytes bs).setModule c { m with
    mem := (m.mem.write off bs).setCls g cls
    wbq := m.wbq.filter (· != g)
    written := if m.reformed then mapWrite false m.written off (bs.map fun _ => true) else m.written }
  match old with
  | .clean => s1
  | .ce => s1.memCe c (g * 64)
  | .ue => let s2 := s1.memUe c (g * 64); if full && !poison then s2.bump (pgMem c) R.mem_SCRUB_OW 3 1 else s2
  | .poison =>
    if full then (if poison then s1 else s1.bump (pgMem c) R.mem_SCRUB_OW 3 1) else s1.bump (pgMem c) R.mem_POISON_RD 2 1

/-- Why an access to module memory is not performed: out of bound (R275), on a lost channel, or with no channel in service (R272). -/
inductive MemFail where
  | bound | lost | noModule
deriving DecidableEq, Repr
/-- How a descriptor whose access is not performed ends (Table 9.4, R272, R310). -/
def MemFail.ending (f : MemFail) : Ending :=
  match f with
  | .bound => endBound
  | .lost => ⟨refMemory, 0x03, 0⟩
  | .noModule => ⟨refMemory, 0x04, 0⟩
/-- How a stream engine's descriptor, or a load, ends (R259). -/
def MemFail.jobEnding (f : MemFail) : Ending :=
  match f with
  | .bound => endBound
  | .lost => endInternal
  | .noModule => ⟨refMemory, 0x04, 0⟩

/-- What an access came to: bytes piece by piece with their poison, or no access. -/
inductive MemAns where
  | ok (s : State) (pieces : List (List Byte × Bool))
  | fail (f : MemFail)

/-- Where every piece of a range lies, or why the access is not performed. -/
def State.memLocs (s : State) (a n : Nat) (fw : Bool) : Except MemFail (List (MemLoc × Nat × Nat)) :=
  let ps := (memPieces a n).map fun p => (s.memLoc p.1, p.1, p.2)
  let bad := fun (e : MemLoc × Nat × Nat) => match e.1 with
    | .bound => true
    | .scratch x y o => !fw || !s.cellServed x y || decide (524288 < o + e.2.2)
    | _ => false
  if s.servedChannels.isEmpty ∧ a < 0x180000000000 then .error .noModule
  else if ps.any bad then .error .bound
  else if ps.any fun e => e.1 == MemLoc.lost then .error .lost
  else .ok ps

/-- Read the pieces of a range. -/
def State.memReadPieces (s : State) : List (MemLoc × Nat × Nat) → State × List (List Byte × Bool)
  | [] => (s, [])
  | (l, _, n) :: r =>
    let (s1, b, p) := match l with
      | .module c off v =>
        let (t, p) := s.memReadGranule c (off / 64)
        let (t1, b) := t.viewBytes c off v n
        (t1, b, p)
      | .scratch x y o =>
        let (t, b, ps) := s.spRead (s.physOf x y) o n
        (t, b, !ps.isEmpty)
      | _ => (s, [], false)
    let (s2, rest) := s1.memReadPieces r
    (s2, (b, p) :: rest)

/-- Read `n` bytes at a local address; `fw`: the requester may reach scratchpad (R345). -/
def State.memRead (s : State) (a n : Nat) (fw : Bool) : MemAns :=
  match s.memLocs a n fw with
  | .error f => .fail f
  | .ok ps => let (t, r) := s.memReadPieces ps; .ok t r

/-- Write the pieces of a range; `poison` tells whether the bytes at an offset of the data carry poison. -/
def State.memWritePieces (s : State) (bs : List Byte) (poison : Nat → Nat → Bool) (at_ : Nat) : List (MemLoc × Nat × Nat) → State
  | [] => s
  | (l, _, n) :: r =>
    let s1 := match l with
      | .module c off _ => s.memWriteGranule c off (bs.take n) (poison at_ n)
      | .scratch x y o => s.spWrite (s.physOf x y) o (bs.take n)
          (if poison at_ n then (List.range (granulesOf o n)).map (· + o / 8) else [])
      | _ => s
    s1.memWritePieces (bs.drop n) poison (at_ + n) r
def State.memWrite (s : State) (a : Nat) (bs : List Byte) (poison : Nat → Nat → Bool) (fw : Bool) : MemAns :=
  match s.memLocs a bs.length fw with
  | .error f => .fail f
  | .ok ps => .ok (s.memWritePieces bs poison 0 ps) []

/-- Soft errors and device failures that have struck module granules: channel, granule. -/
def State.strikeModules (s : State) (hits : List (Nat × Upset)) : State :=
  hits.foldl (fun t h => let m := t.module h.1; t.setModule h.1 { m with mem := m.mem.strikeOne 64 h.2 }) s

/-! ### Host accesses (R310 to R312, R316) -/

/-- The tenant a function and slot hold (R328). -/
def State.tenantOf (s : State) (vf slot : Nat) : Option Nat :=
  (List.range 1024).find? fun t => s.fld (pgTenant t) R.tenant_FN_EFF == vf + slot * 256

/-- VF `v` is enabled (R330). -/
def State.vfEnabled (s : State) (v : Nat) : Bool :=
  bitOf (s.fld pgHost R.host_SRIOV) 16 && decide (1 ≤ v) && decide (v ≤ bitsOf (s.fld pgHost R.host_SRIOV) 7 0)

/-- Interleaved address of a BAR4 offset of function `fn` (0 PF0, 1 PF1, 1 + v VF v), within the largest BAR4 that Table 10.4 allows. -/
def State.bar4Address (s : State) (fn slot off : Nat) : Option Nat :=
  if (if fn ≤ 1 then 64 else 1) * 2 ^ 30 ≤ off then none
  else if fn = 0 then (if 0x40000000 ≤ off then some (off - 0x40000000) else none)
  else if fn = 1 then some off
  else if s.vfEnabled (fn - 1) = false then none
  else match s.tenantOf (fn - 1) slot with
    | none => none
    | some t =>
      if off < s.fld (pgTenant t) R.tenant_APER_LEN * 2 ^ 30 then some (s.fld (pgTenant t) R.tenant_APER_BASE * 2 ^ 30 + off) else none

/-- BAR4_MEMORY_ACCESS (R305, R310 to R312): `off` is the offset in PF0's or PF1's BAR4, or in slice `slot` of a VF's. The data of a poisoned
TLP are stored with the poison syndrome (assumption 93). -/
def execBar4MemoryAccess (fn slot : Nat) (write : Bool) (off size : Nat) (data : TlpData) (hits : List (Nat × Upset)) (s : State) :
    Host.Outcome State Fault Refusal := s.onClock <|
  let s0 := s.strikeModules hits
  let n := s0.ilvSet.length
  match s0.bar4Address fn slot off with
  | none => .next (s0.emit .unsupported)
  | some a =>
    if n * (s0.ilvS - s0.hdmBytes) < a + size ∨ 0x100000000000 < a + size then .next (s0.emit .unsupported)
    else if write then
      match s0.memWrite a (takePad 0 size data.bytes) (fun _ _ => data.poison) false with
      | .ok t _ => .next t
      | _ => .next (s0.emit .unsupported)
    else
      match s0.memRead a size false with
      | .ok t ps => .next (t.emit (.completion (ps.flatMap (·.1)) (ps.any (·.2))))
      | _ => .next (s0.emit .unsupported)

/-- Bytes the spec leaves open. -/
def State.freeBytes (s : State) : Nat → State × List Byte
  | 0 => (s, [])
  | n + 1 =>
    let (v, s1) := s.takeFree
    let (s2, r) := s1.freeBytes n
    (s2, BitVec.ofNat 8 v.toNat :: r)

/-- Kinds of CXL messages the block sends. -/
def cxlData : Nat := 0
def cxlDone : Nat := 1
def cxlNotHeld : Nat := 2
def cxlBiSnpData : Nat := 3
def cxlBiSnpInv : Nat := 4
def cxlRdCurr : Nat := 5
def cxlWrInv : Nat := 6
def cxlItoMWr : Nat := 7

/-- CXL_MEM_REQUEST (R302, R310, R316): `off` within the host-exposed range. Bytes on a lost channel read
poisoned, with data the spec leaves open, and are not written. -/
def execCxlMemRequest (write : Bool) (off size : Nat) (data : List Byte) (poison : Bool) (hits : List (Nat × Upset)) (s : State) :
    Host.Outcome State Fault Refusal := s.onClock <|
  let s0 := s.strikeModules hits
  let n := s0.ilvSet.length
  if n * s0.hdmBytes < off + size then s.passOver "the host decoder sends no request outside the host-exposed range"
  else
    let a := n * (s0.ilvS - s0.hdmBytes) + off
    if write then
      match s0.memWrite a (takePad 0 size data) (fun _ _ => poison) false with
      | .ok t _ => .next (t.emit (.cxl cxlDone a [] false))
      | _ => .next (s0.emit (.cxl cxlDone a [] false))
    else
      match s0.memRead a size false with
      | .ok t ps => .next (t.emit (.cxl cxlData a (ps.flatMap (·.1)) (ps.any (·.2))))
      | _ => let (t, bs) := s0.freeBytes size; .next (t.emit (.cxl cxlData a bs true))

/-- CXL_SNOOP (R308): the device holds no host line. -/
def execCxlSnoop (addr : Nat) (s : State) : Host.Outcome State Fault Refusal := s.onClock <| .next (s.emit (.cxl cxlNotHeld addr [] false))

/-! ### Module ECC (R279 to R281) -/

/-- MODULE_CE_WRITEBACK (R279): a corrected granule is written back unless a write has cancelled it. -/
def execModuleCeWriteback (c granule : Nat) (s : State) : Host.Outcome State Fault Refusal := s.onClock <|
  let m := s.module c
  if m.wbq.contains granule then
    .next (s.setModule c { m with wbq := m.wbq.filter (· != granule), mem := m.mem.setCls granule .clean })
  else s.passOver "no CE write-back of this granule is pending"

/-- MODULE_SCRUB_VISIT (R281): patrol scrub reads and classifies one granule. -/
def execModuleScrubVisit (c : Nat) (hits : List (Nat × Upset)) (s : State) : Host.Outcome State Fault Refusal := s.onClock <|
  if s.fld (pgMem c) R.mem_SCRUB = 0 then s.passOver "the scrubber is stopped"
  else if !s.inService c then s.passOver "the channel is not in service"
  else
    let s0 := s.strikeModules hits
    let g := (s0.module c).scrubPos
    let (s1, _) := s0.memReadGranule c g
    let m := s1.module c
    .next (s1.setModule c { m with scrubPos := (g + 1) % max 1 (s1.moduleGib c * 2 ^ 24) })

/-- Bytes of a granule become undefined (R280). -/
def State.scramble (s : State) (c off : Nat) : Nat → State
  | 0 => s
  | n + 1 =>
    let (v, s1) := s.takeFree
    let m := s1.module c
    ((s1.holdBytes [BitVec.ofNat 8 v.toNat]).setModule c { m with mem := m.mem.write off [BitVec.ofNat 8 v.toNat] }).scramble c (off + 1) n

/-- The retry of a write fails too (R280): the granule is stored poisoned, and where `thrice` tells that storing the poison fails as well,
its class is left open. -/
def State.wcrcAgain (s1 : State) (c off : Nat) (thrice : Bool) : State :=
  let g := off / 64
  let s2 := s1.scramble c (g * 64) 64
  let m := s2.module c
  let times := recent s1.tb 1000000000 (s1.tb :: m.wcrcTimes)
  let s3 := (s2.setModule c { m with
    mem := m.mem.setCls g .poison
    wcrcTimes := if thrice then recent s1.tb 1000000000 (s1.tb :: times) else times }).memUe c (g * 64)
  if thrice then
    let (v, s4) := s3.takeFree
    let m4 := s4.module c
    s4.setModule c { m4 with mem := m4.mem.setCls g (if v.getLsbD 0 then .poison else .clean) }
  else s3
/-- MEM_WCRC_ERROR (R280): the write of the granule at channel-view offset `off` fails its write CRC and is retried; `again`: the
retry fails too; `thrice`: storing the poison fails as well. -/
def execMemWcrcError (c off : Nat) (again thrice : Bool) (s : State) : Host.Outcome State Fault Refusal := s.onClock <|
  if !s.inService c then s.passOver "the channel is not in service"
  else
    let s1 := s.bump (pgMem c) R.mem_WCRC_RETRY 4 1
    if again then .next (s1.wcrcAgain c off thrice) else .next s1

end Sys2Proof.Machine
end

