-- ==== Sys2Proof/Machine/Nv.lean ====
section
/-! DEFINITION. Operations on the flash (R492 to R497, R505 to R511): journal, sector headers, erases, ring regions, and the repair map
record (R459). -/
namespace Sys2Proof.Machine

/-! ### Layout (Table 16.4) -/

def secSize : Nat := 0x10000
/-- Sectors of the flash. -/
def State.flashSectors (s : State) : Nat := 2 ^ (s.fld pgNv R.nv_FLASH_CFG / 2 ^ 24 % 32) / secSize
/-- First sector and sector count of a region: 1 JOURNAL, 2 CAL, 3 REPAIR, 4 LASTGASP, 5 AUDIT, 6 ACCT. -/
def State.region (s : State) (r : Nat) : Nat × Nat :=
  let f := s.flashSectors
  match r with
  | 1 => (2, 2)
  | 2 => (4, 2)
  | 3 => (6, 2)
  | 4 => (8, 4)
  | 5 => (268, f / 16)
  | _ => (268 + f / 16, f - (268 + f / 16))
def slotSector (slot : Nat) : Nat := if slot = 0 then 12 else 140
def State.regionOf (s : State) (sec : Nat) : Nat :=
  if sec < 2 then 0 else if sec < 4 then 1 else if sec < 6 then 2 else if sec < 8 then 3 else if sec < 12 then 4
  else if sec < 268 then 0 else if sec < 268 + s.flashSectors / 16 then 5 else 6

def flashRead (f : SMap Byte) (a n : Nat) : List Byte := mapRead 0xFF f a n
/-- Programming clears bits and sets none. -/
def flashProgram (f : SMap Byte) (a : Nat) : List Byte → SMap Byte
  | [] => f
  | b :: bs => flashProgram (mapSet 0xFF f a (mapGet 0xFF f a &&& b)) (a + 1) bs
/-- Erasing a sector sets every byte to 0xFF. -/
def flashErase (f : SMap Byte) (sec : Nat) : SMap Byte := f.filter fun e => e.1 / secSize != sec
/-- The sector holds only 0xFF from an offset on. -/
def blankFrom (f : SMap Byte) (sec o : Nat) : Bool := f.all fun e => e.1 / secSize != sec || decide (e.1 % secSize < o)

/-- A sector header (Table 16.5). -/
def sectorHeader (region state gen : Nat) : List Byte :=
  let a := leBytes 4 0x5345_5A4B ++ leBytes 1 region
  let g := leBytes 4 gen
  a ++ leBytes 1 state ++ [0xFF, 0xFF] ++ g ++ leBytes 4 (crc32 (a ++ g))
/-- STATE and GEN of a sector whose header is valid (R494). -/
def headerOf (f : SMap Byte) (sec region : Nat) : Option (Nat × Nat) :=
  let b := flashRead f (sec * secSize) 16
  let st := fieldAt b 5 1
  if fieldAt b 0 4 = 0x5345_5A4B ∧ fieldAt b 4 1 = region ∧ fieldAt b 12 4 = crc32 (b.take 5 ++ (b.drop 8).take 4)
      ∧ (st = 0xFE ∨ st = 0xFC ∨ st = 0xF8 ∨ st = 0xF0) then some (st, fieldAt b 8 4) else none
def State.maxGen (s : State) (region : Nat) : Nat :=
  let (a, n) := s.region region
  (List.range n).foldl (fun m i => match headerOf s.nv.flash (a + i) region with | some (_, g) => max m g | none => m) 0

/-! ### Requests -/

def State.flashOp (s : State) (op : FlashOp) : State := { s with nv := { s.nv with ops := s.nv.ops ++ [op] } }
def State.program (s : State) (prio addr : Nat) (bs : List Byte) (k : Follow) : State := s.flashOp ⟨prio, false, addr, bs, 0, k⟩

/-- A journal entry (Table 16.11). -/
def journalEntry (type flags jseq arg0 arg1 : Nat) (tb : Dword) : List Byte :=
  let b := leBytes 1 type ++ leBytes 1 flags ++ leBytes 2 0 ++ leBytes 4 jseq ++ leBytes 4 arg0 ++ leBytes 4 arg1 ++ leBytes 8 tb.toNat
    ++ leBytes 4 0
  b ++ leBytes 4 (crc32 b)

/-- Program an entry at the journal's next place. -/
def State.jPut (s : State) (q : JReq) : State :=
  let n := s.nv
  let k := match q.follow with | .intent sec _ => .intent sec n.jseq | f => f
  ({ s with nv := { n with jseq := (n.jseq + 1) % 2 ^ 32, jPtr := n.jPtr + 32 } }).program 1 (n.jSector * secSize + n.jPtr)
    (journalEntry q.type q.flags n.jseq q.arg0 q.arg1 s.tb) k

/-- Write a journal entry; without room for one more after it, the other sector is erased first (R507). -/
def State.jWrite (s : State) (q : JReq) : State :=
  if s.nv.jSwitch then { s with nv := { s.nv with jHold := s.nv.jHold ++ [q] } }
  else if secSize < s.nv.jPtr + 64 then
    let other := 5 - s.nv.jSector
    ({ s with nv := { s.nv with jSwitch := true, jHold := s.nv.jHold ++ [q] } }).jPut ⟨1, 0, other, 0, .intent other 0⟩
  else s.jPut q

/-- Ask for the erase of a sector (R508). -/
def State.eraseSector (s : State) (sec : Nat) : State :=
  if s.nv.erasing.contains sec ∨ s.nv.bad.contains sec then s
  else ({ s with nv := { s.nv with erasing := sec :: s.nv.erasing } }).jWrite ⟨1, 0, sec, 0, .intent sec 0⟩

/-! ### What the journal says (R505 to R507) -/

/-- The state the journal's entries spell. -/
structure JState where
  active : Nat
  incA : Bool
  incB : Bool
  trial : Bool
  started : Bool
  prev : Nat
  open_ : List (Nat × Nat)
  bad : List Nat
  torn : Nat
  last : Nat
deriving DecidableEq, Repr

def JState.zero : JState := ⟨0, false, false, false, false, 0, [], [], 0, 0⟩

def JState.entry (j : JState) (b : List Byte) : JState :=
  let t := fieldAt b 0 1
  let q := fieldAt b 4 4
  let a := fieldAt b 8 4
  let c := fieldAt b 12 4
  let j := { j with last := q + 1 }
  if t = 0x01 then { j with open_ := j.open_ ++ [(a, q)] }
  else if t = 0x02 then { j with open_ := j.open_.filter fun e => !(e.1 == a && e.2 == c) }
  else if t = 0x03 then { j with bad := a :: j.bad, open_ := j.open_.filter fun e => e.1 != a }
  else if t = 0x10 then (if a = 0 then { j with incA := true } else { j with incB := true })
  else if t = 0x11 then (if a = 0 then { j with incA := false } else { j with incB := false })
  else if t = 0x12 then { j with active := a, prev := j.active, trial := bitOf (fieldAt b 1 1) 0, started := false }
  else if t = 0x13 then (if a = j.active then { j with trial := false, started := false } else j)
  else if t = 0x14 then (if a = j.active ∧ j.trial then { j with active := j.prev, trial := false, started := false } else j)
  else if t = 0x15 then { j with started := true }
  else if t = 0x20 then { j with active := a, incA := bitOf c 0, incB := bitOf c 1, trial := bitOf c 2, started := bitOf c 3, prev := b2n (bitOf c 4) }
  else j

/-- Read the entries of a journal sector from an offset. -/
def readEntries (f : SMap Byte) (sec : Nat) : Nat → Nat → JState → JState × Nat
  | 0, o, j => (j, o)
  | n + 1, o, j =>
    if secSize < o + 32 then (j, o)
    else
      let b := flashRead f (sec * secSize + o) 32
      if b.all (· == 0xFF) then (j, o)
      else if fieldAt b 28 4 = crc32 (b.take 28) then readEntries f sec n (o + 32) (j.entry b)
      else readEntries f sec n (o + 32) { j with torn := j.torn + 1 }

/-- Valid journal sectors in the order of their GEN: (GEN, sector). -/
def journalOrder (f : SMap Byte) : List Nat :=
  match headerOf f 2 1, headerOf f 3 1 with
  | some (_, a), some (_, b) => if a ≤ b then [2, 3] else [3, 2]
  | some _, none => [2]
  | none, some _ => [3]
  | none, none => []

/-- The journal's state, the sector in use and the place of the next entry. -/
def readJournal (f : SMap Byte) : JState × Nat × Nat :=
  (journalOrder f).foldl (fun a sec => let (j, o) := readEntries f sec 2048 0x100 a.1; (j, sec, o)) (JState.zero, 2, 0x100)

def JState.snapshot (j : JState) : Nat := b2n j.incA + 2 * b2n j.incB + 4 * b2n j.trial + 8 * b2n j.started + 16 * (j.prev % 2)

/-! ### Ring regions (R495 to R497) -/

/-- The sector after the open one, wrapping to the region's first, past bad ones. -/
def State.nextSector (s : State) (region sec : Nat) : Option Nat :=
  let (a, n) := s.region region
  let start := if sec = 0 then 0 else sec - a + 1
  ((List.range n).map fun i => a + (start + i) % max n 1).find? fun x => !s.nv.bad.contains x

def regionPrio (r : Nat) : Nat := if r = 3 then 2 else if r = 2 then 3 else if r = 5 then 4 else if r = 6 then 5 else if r = 4 then 0 else 6
def State.ringPtr (s : State) (r : Nat) : Nat × Nat := mapGet (0, 0) s.nv.ptrs r

/-- Every record of a sector that needs acknowledgement has it (R496). -/
def State.sectorAcked (s : State) (r sec : Nat) : Bool :=
  let ack := if r = 6 then s.fld pgNv R.nv_ACCT_ACK_SEQ else s.fld pgNv R.nv_AUDIT_ACK_SEQ
  decide (mapGet 0 s.nv.topSeq sec ≤ ack + 1)
/-- May a sector be erased for reuse? CAL and REPAIR wait for the other one to be FULL. -/
def State.reusable (s : State) (r sec : Nat) : Bool := if r = 5 ∨ r = 6 then s.sectorAcked r sec else true

/-- Program a record in the open sector. -/
def State.putRecord (s : State) (h : Held) (sec o : Nat) : State :=
  ({ s with nv := { s.nv with
      ptrs := mapSet (0, 0) s.nv.ptrs h.region (sec, o + h.bytes.length)
      topSeq := if h.ack = 0 then s.nv.topSeq else mapSet 0 s.nv.topSeq sec (max h.ack (mapGet 0 s.nv.topSeq sec)) } }).program
    (regionPrio h.region) (sec * secSize + o) h.bytes h.follow

/-- Place a record: in the open sector, or in the next, if that is erased; none where it has to wait. -/
def State.tryRecord (s : State) (h : Held) : Option State :=
  let (sec, o) := s.ringPtr h.region
  if sec ≠ 0 ∧ o + h.bytes.length ≤ secSize then some (s.putRecord h sec o)
  else
    match s.nextSector h.region sec with
    | none => none
    | some nx =>
      match headerOf s.nv.flash nx h.region with
      | some (0xFE, _) =>
        if s.nv.half.contains nx ∨ s.nv.erasing.contains nx ∨ blankFrom s.nv.flash nx 16 = false then none
        else
          let p := regionPrio h.region
          let s1 := if sec = 0 then s else s.program p (sec * secSize + 5) [0xF8] .nothing
          some ((s1.program p (nx * secSize + 5) [0xFC] .nothing).putRecord h nx 0x100)
      | _ => none

/-- The next sector of a log cannot be erased for want of acknowledgements (R497). -/
def State.logFull (s : State) (r : Nat) : Bool :=
  match s.nextSector r (s.ringPtr r).1 with
  | some nx => (match headerOf s.nv.flash nx r with | some (0xFE, _) => false | _ => true) && !s.reusable r nx
  | none => false
/-- The sector a waiting record needs is erased, where R496 allows it; else its log is full (R497). -/
def State.wantSector (s : State) (r : Nat) : State :=
  match s.nextSector r (s.ringPtr r).1 with
  | none => s
  | some nx =>
    if s.reusable r nx then s.eraseSector nx
    else if r = 6 then (s.setRegBit (pgNv * 0x1000 + 0x98) 0 true).event pgNv 0
    else if r = 5 then (s.setRegBit (pgNv * 0x1000 + 0x98) 1 true).event pgNv 0
    else s

/-- Append a record to a ring region; it waits in the queue of 64 where no sector can take it. -/
def State.appendRecord (s : State) (h : Held) : State :=
  let waits := s.nv.held.any fun x => x.region == h.region
  match if waits then none else s.tryRecord h with
  | some t => t
  | none =>
    let n := (s.nv.held.filter fun x => x.region == h.region).length
    let full := h.region = 6 ∧ 64 ≤ n
    let s1 := if full then
      { s.bump pgNv R.nv_ACCT_LOST 1 1 with nv := { (s.bump pgNv R.nv_ACCT_LOST 1 1).nv with held := s.nv.held.eraseP fun x => x.region == 6 } }
      else s
    if h.region = 6 ∧ h.ack = 0 ∧ s.logFull 6 then s.wantSector 6
    else ({ s1 with nv := { s1.nv with held := s1.nv.held ++ [h] } }).wantSector h.region

/-- Write out the records that wait for a region, as far as sectors are ready; the full flags follow (R497). -/
def State.drainHeld (s : State) (r : Nat) : Nat → State
  | 0 => s
  | n + 1 =>
    match s.nv.held.find? fun x => x.region == r with
    | none =>
      if (r = 5 ∨ r = 6) ∧ s.logFull r = false then s.setRegBit (pgNv * 0x1000 + 0x98) (if r = 6 then 0 else 1) false else s
    | some h =>
      match s.tryRecord h with
      | some t => ({ t with nv := { t.nv with held := t.nv.held.erase h } }).drainHeld r n
      | none => s.wantSector r

/-! ### The repair map record (R459, Table 14.10) -/

/-- A map record for the soft repairs in force; `clear`: with none (R461). -/
def State.mapBytes (s : State) (seq : Nat) (clear : Bool) : List Byte :=
  let rows := (List.range 128).map fun i =>
    let q := i / 32
    let y := i % 32
    let soft := if s.bypass q y = s.qhard q y then 16 else s.bypass q y
    BitVec.ofNat 8 (if clear then 16 else soft + 32 * b2n (s.removed q y) + 64 * b2n (s.spareBad q y))
  let lanes := (List.range 16).flatMap fun n =>
    leBytes 2 (if clear then 0 else ((mapGet TyzPort.zero s.tyz.ports n).failed.eraseDups.foldl (fun a l => a + 2 ^ l) 0))
  let chans := (List.range 16).foldl (fun a c => a + b2n (s.memLost c && !clear) * 2 ^ c) 0
  let cores := (List.range 8).foldl (fun a k => a + b2n (s.coreState k == 2 && !clear) * 2 ^ k) 0
  let b := leBytes 4 0x5052_5A4B ++ leBytes 2 1 ++ leBytes 2 0 ++ leBytes 4 seq ++ leBytes 8 s.tb.toNat ++ rows ++ lanes ++ leBytes 2 chans
    ++ leBytes 1 cores ++ List.replicate 69 0
  b ++ leBytes 4 (crc32 b)

/-- Write a new repair map record with SEQ one higher (R459, R461). -/
def State.mapRecord (s : State) (clear : Bool) : State :=
  let seq := max (s.fld pgRepair R.repair_LAST_SEQ) ((s.nv.mapWait.map (·.1)).getD 0) + 1
  let s1 := { s with nv := { s.nv with mapWait := some (seq, s.tb) } }
  s1.appendRecord ⟨3, s1.mapBytes seq clear, .map seq, 0⟩

end Sys2Proof.Machine
end

