-- ==== Sys2Proof/Machine/RegBus.lean ====
section
/-! DEFINITION. The register bus: requesters and roles, page rights, reads of a word, the writing of fields by their access codes,
reserved encodings, and the audit record of a write (R6, R7, R11, R541 to R546, R566 to R569, R602 to R607). -/
namespace Sys2Proof.Machine

/-! ### Requesters and roles (Tables 18.1 to 18.3) -/

/-- IFACE as ERR_LOG0 holds it (Table 20.1). -/
def ifaceCode (i : Iface) : Nat :=
  match i with
  | .pf0 => 0 | .uart => 1 | .mgmt => 2 | .jtag => 3 | .fn => 4 | .fw => 0xF
/-- IFACE as an audit record holds it (Table 18.1). -/
def auditIface (i : Iface) : Nat := if i = .fw then 0xFF else ifaceCode i
/-- The bank of an interface with sessions. -/
def bankOf (i : Iface) : Option Nat :=
  match i with
  | .pf0 => some 0 | .uart => some 1 | .mgmt => some 2 | .jtag => some 3 | .fn => none | .fw => none

def State.sess (s : State) (k : Nat) : Sess := mapGet Sess.zero s.rind.sess k
def State.setSess (s : State) (k : Nat) (x : Sess) : State :=
  { s with rind := { s.rind with sess := mapSet Sess.zero s.rind.sess k x } }

/-- The lifecycle state: the highest bit that two of three copies show (R563). -/
def State.lifecycle (s : State) : Nat :=
  let m := fun k => (b2n (bitOf s.rind.lc0 k) + b2n (bitOf s.rind.lc1 k) + b2n (bitOf s.rind.lc2 k)) / 2
  if m 3 = 1 then 4 else if m 2 = 1 then 3 else if m 1 = 1 then 2 else m 0

def roleNone : Nat := 0
def roleOperator : Nat := 1
def roleInstaller : Nat := 2
def roleMaker : Nat := 3
def roleFirmware : Nat := 4
/-- The role of a requester (R541). -/
def State.roleOf (s : State) (i : Iface) : Nat :=
  match i with
  | .fn => roleOperator
  | .fw => roleFirmware
  | _ =>
    match bankOf i with
    | none => roleNone
    | some k => if (s.sess k).state = 2 then (s.sess k).role + 1 else roleNone

/-- Rights of a page kind: O, I, M (1 R, 3 RW), and AUDITED. -/
def pageRights (k : PageKind) : Nat × Nat × Nat × Bool :=
  match k with
  | .top | .frame | .sched | .policy | .power | .energy | .therm | .host | .tyz | .eth | .repair => (1, 3, 3, true)
  | .nv | .rind | .cal => (0, 3, 3, true)
  | .ras | .msix | .mem => (1, 3, 3, false)
  | .press | .cell => (1, 1, 3, false)
  | .trace | .audit => (0, 3, 3, false)
  | .wdt => (0, 1, 1, false)
  | .stream | .cluster => (0, 1, 3, false)
  | .tenant => (3, 3, 3, false)

/-- The rights bits of a role on a page. -/
def rightsOf (k : PageKind) (role : Nat) : Nat :=
  let r := pageRights k
  if role = roleOperator then r.1 else if role = roleInstaller then r.2.1 else if role = roleMaker then r.2.2.1 else 0

/-- Registers of a requester's own session bank (R548). -/
def sessReg (pg off : Nat) : Bool := pg == pgRind && decide (0x60 ≤ off) && decide (off < 0x100)
/-- Key and lifecycle registers, which firmware cannot write (R546). -/
def keyReg (pg off : Nat) : Bool := pg == pgRind && decide (0x60 ≤ off)

def State.mayRead (s : State) (i : Iface) (pg off : Nat) : Bool :=
  match pageKind pg with
  | none => false
  | some k =>
    let role := s.roleOf i
    if role = roleFirmware then true
    else if (bankOf i).isSome && sessReg pg off then true
    else if role = roleNone then i == .pf0 && bitOf (rightsOf k roleOperator) 0
    else bitOf (rightsOf k role) 0
def State.mayWrite (s : State) (i : Iface) (pg off : Nat) : Bool :=
  match pageKind pg with
  | none => false
  | some k =>
    let role := s.roleOf i
    if role = roleFirmware then !keyReg pg off
    else if (bankOf i).isSome && sessReg pg off then true
    else if role = roleNone then i == .pf0 && pg == pgRind && decide (0x100 ≤ off) && decide (off < 0x190)
    else bitOf (rightsOf k role) 1

/-- Writes that form no WRITE record on an audited page (R612). -/
def unlogged (pg off : Nat) : Bool :=
  (pg == pgNv && (off == 0x64 || off == 0x68)) || (pg == pgRind && ((decide (0x60 ≤ off) && decide (off < 0x100)) || (decide (0x110 ≤ off) && decide (off < 0x190))))
/-- A write of this requester to this page forms a WRITE record (R566). -/
def State.audits (s : State) (i : Iface) (pg off : Nat) : Bool :=
  match pageKind pg with
  | none => false
  | some k =>
    let role := s.roleOf i
    (role == roleInstaller || role == roleMaker) && (pageRights k).2.2.2 && !unlogged pg off

/-! ### Audit records (R566 to R569) -/

/-- AUDIT and its queue are full (R497). -/
def State.auditFull (s : State) : Bool :=
  s.regBit (pgNv * 0x1000 + 0x98) 1 && decide (64 ≤ (s.nv.held.filter fun h => h.region == 5).length)

/-- Form an audit record: it takes the next SEQ and enters the log (R567, R568). -/
def State.audit (s : State) (type role iface result page off arg old new written : Nat) : State :=
  let seq := s.rind.nextSeq
  let head := leBytes 4 0x4155_5A4B ++ leBytes 1 type ++ leBytes 1 role ++ leBytes 1 iface ++ leBytes 1 result ++ leBytes 4 seq ++ leBytes 4 0
    ++ leBytes 8 s.tb.toNat ++ leBytes 4 page ++ leBytes 2 off ++ leBytes 2 arg ++ leBytes 4 old ++ leBytes 4 new ++ leBytes 4 written
    ++ leBytes 4 0 ++ leBytes 8 s.sys.imageId ++ List.replicate 24 0
  let prev := if s.rind.chain.isEmpty then Config.sha384 s.rind.devUid else s.rind.chain
  let chain := takePad 0 48 (Config.sha384 (prev ++ head))
  let bytes := head ++ chain
  let pg := page / 0x1000
  let s1 := { s with rind := { s.rind with nextSeq := seq + 1, chain := chain, queue := s.rind.queue ++ [(seq, bytes)] } }
  let s2 := if (pageKind pg).isSome then s1.setFld pg R.hdr_AUDIT_SEQ seq else s1
  s2.appendRecord ⟨5, bytes, .audit seq, seq + 1⟩

/-- Perform an action once the record with SEQ `seq` is programmed (R570). -/
def State.defer (s : State) (seq : Nat) (a : Deferred) : State :=
  { s with rind := { s.rind with deferred := s.rind.deferred ++ [(seq, a)] } }

/-! ### Reading a word -/

/-- A context's and engine's part of a CELL page (Table 21.2), computed from the cell. -/
def State.cellWord (s : State) (pos off : Nat) : Option Nat :=
  let c := s.cell pos
  let r := s.router pos
  let ctxSum := fun (f : Ctx → Nat) (step : Nat) => (List.range 4).foldl (fun a n => a + f (c.ctx n) * 2 ^ (step * n)) 0
  let code := fun (x : CtxState) => match x with
    | .empty => 0 | .loading => 1 | .ready => 2 | .active => 3 | .suspended => 4 | .held => 5
  if off = 0x48 then let (k, x, y) := s.logicalOf pos; some (x + y * 256 + k * 65536)
  else if off = 0x4C then some (c.active + ctxSum (fun x => code x.state) 4 * 256)
  else if off = 0x50 then some (ctxSum (fun x => b2n x.fin) 1 + ctxSum (fun x => b2n x.limClamp) 1 * 16)
  else if off = 0x58 then some (ctxSum (fun x => x.idle) 8)
  else if off = 0x78 then some (ctxSum (fun x => x.mxFlags % 16) 4)
  else if off = 0x7C then some (ctxSum (fun x => x.curd.length) 4)
  else if 0x80 ≤ off ∧ off < 0x100 then
    let x := c.ctx ((off - 0x80) / 0x20)
    let o := (off - 0x80) % 0x20
    if o = 0 then some (x.orgX + x.orgY * 2 ^ 8 + x.w * 2 ^ 16 + x.h * 2 ^ 24)
    else if o = 4 then some x.region
    else if o = 8 then some x.base
    else if o = 0xC then some x.bound
    else if o = 0x10 then some x.mxcfg
    else if o = 0x14 then some x.vxFlags
    else if o = 0x18 then some ((List.range 8).foldl (fun a k => a + (mapGet [] x.ti k).length * 16 ^ k) 0)
    else none
  else if 0x100 ≤ off ∧ off < 0x200 then
    some (((c.ctx ((off - 0x100) / 0x40)).cnt.getD ((off - 0x100) % 0x40 / 4) Counter.zero).v)
  else if 0x204 ≤ off ∧ off < 0x210 then
    let sel := s.fld (pgCell pos) R.cell_STRM_IDX_REC
    match (c.ctx (s.fld (pgCell pos) R.cell_STRM_IDX_CTX)).streams[sel]? with
    | none => some 0
    | some e =>
      if off = 0x204 then some (e.wr % 65536 + e.rd % 65536 * 65536)
      else if off = 0x208 then some (e.credits % 8192 + e.bound % 8192 * 65536)
      else some ((if e.dir = 1 then e.nextSeq else e.wr % 65536) + b2n e.error * 2 ^ 16 + b2n e.peer.isSome * 2 ^ 17)
  else if off = 0x224 then some (mapGet 0 r.sePort (s.fld (pgCell pos) R.cell_SE_IDX)).toNat
  else if 0x234 ≤ off ∧ off < 0x23C then
    some (mapGet 0 (if r.shadowed then r.mcSh else r.mc) (2 * s.fld (pgCell pos) R.cell_MC_IDX + (off - 0x234) / 4)).toNat
  else if 0x244 ≤ off ∧ off < 0x254 then
    some (mapGet 0 (if r.shadowed then r.redSh else r.red) (4 * s.fld (pgCell pos) R.cell_RED_IDX + (off - 0x244) / 4)).toNat
  else if 0x260 ≤ off ∧ off < 0x274 then
    let p := (off - 0x260) / 4
    some (match mapGet none r.wheelSh p with | some m => m | none => mapGet 0 r.wheel p)
  else none

/-- Offsets of a CELL page that stay readable at a bypassed or removed position (R616). -/
def cellKept (off : Nat) : Bool :=
  decide (off < 0x4C) || off == 0x54 || (decide (0x60 ≤ off) && decide (off < 0x70)) || off == 0x74

/-- RIND words, banked by interface (R548). -/
def State.rindWord (s : State) (bank : Option Nat) (off : Nat) : Option Nat :=
  let x := match bank with | some k => s.sess k | none => Sess.zero
  if 0x48 ≤ off ∧ off < 0x58 then some (fieldAt s.rind.devUid (off - 0x48) 4)
  else if off = 0x60 then some x.ctl
  else if off = 0x64 then some (x.state + (if x.state = 2 then x.role else 0) * 16)
  else if off = 0x68 then some x.fails
  else if 0x70 ≤ off ∧ off < 0xA0 then some (fieldAt x.nonce (off - 0x70) 4)
  else if off = 0x190 then some x.kcnt
  else if off = 0x198 then some s.rind.rows.length
  else if off = 0x220 then some s.lifecycle
  else none

/-- The selected calibration entry of a requester (R574); IDX is banked. -/
def calBank (i : Iface) : Nat := match bankOf i with | some k => k | none => ifaceCode i
def State.calEntry (s : State) (i : Iface) : CalEntry := mapGet CalEntry.zero s.cal (mapGet 0 s.calSel (calBank i))
def State.calWord (s : State) (i : Iface) (off : Nat) : Option Nat :=
  let e := s.calEntry i
  let sel := mapGet 0 s.calSel (calBank i)
  if off = 0x48 then some (sel / 512 + sel % 512 * 65536)
  else if off = 0x4C then some (wrapInt 32 e.uPend)
  else if off = 0x50 then some (wrapInt 32 e.f)
  else if off = 0x54 then some (wrapInt 32 e.lo)
  else if off = 0x58 then some (wrapInt 32 e.hi)
  else if off = 0x5C then some (wrapInt 32 e.e)
  else if off = 0x60 then some (b2n (e.u != e.uPend) + b2n e.clamped * 2 ^ 31)
  else none

/-- Cells, channels, ports and cores of TOP.CAPACITY (R463). -/
def State.capacity (s : State) : Nat :=
  let cells := (List.range 128).foldl (fun a i => if s.removed (i / 32) (i % 32) then a else a + 16) 0
  let ports := ((List.range 16).filter fun n => (s.fld (pgTyz n) R.tyz_STS % 8 == 2 || s.fld (pgTyz n) R.tyz_STS % 8 == 3)
    && !(mapGet TyzPort.zero s.tyz.ports n).due).length
  let cores := ((List.range 8).filter fun k => s.coreState k == 0).length
  cells % 4096 + s.servedChannels.length * 2 ^ 12 + ports * 2 ^ 17 + cores * 2 ^ 22

/-- INF of a tenant (R322): descriptors fetched that have no final entry yet. -/
def State.tenantInf (s : State) (t : Nat) : Nat := (s.work.descs.filter fun d => d.tenant == t && d.phase != .gone).length
/-- TENANT.Q_STS (R319, R321, R322): IDLE, ERROR, OCC and INF. -/
def State.qSts (s : State) (t stored : Nat) : Nat :=
  let inf := s.tenantInf t
  b2n (!s.flag (pgTenant t) R.tenant_Q_CTL_EN && inf == 0) + bitsOf stored 1 1 * 2
    + (mapGet Tenant.zero s.work.tenants t).occ % 2 ^ 14 * 4 + inf % 2 ^ 13 * 2 ^ 16

/-- The profile entry that SCHED.PROFILE.IDX selects, word by word, and its energy (R393, R412). -/
def State.profileWord (s : State) (k : Nat) : Nat :=
  match s.work.profile.find? fun e => e.1 == s.fld pgSched R.sched_PROFILE_IDX with
  | none => 0
  | some (_, p) =>
    let e := p.es.foldl (fun (m : Nat × Nat) x => if m.1 < x.1 then x else m) (0, 0)
    match k with
    | 0 => p.sid % 2 ^ 32
    | 1 => p.sid / 2 ^ 32 % 2 ^ 32
    | 2 => p.cls % 4 + min (p.f1s.foldl max 0) 255 * 2 ^ 8 + p.add % 256 * 2 ^ 16 + 2 ^ 31
    | 3 => min e.1 (2 ^ 32 - 1)
    | _ => if p.es.isEmpty then 0 else (240 + e.2) * 5 / 2 % 1024
/-- The windows of a TYZn page: reservations in force, and on TYZ0 the shadows (R357, R358, R614, R624). -/
def State.tyzWord (s : State) (n off : Nat) : Option Nat :=
  let p := mapGet TyzPort.zero s.tyz.ports n
  if off = 0x64 ∨ off = 0x68 then
    let l := if s.fld (pgTyz n) R.tyz_RSV_IDX_DIR = 0 then p.rsvTx else p.rsvRx
    let e := l.getD (s.fld (pgTyz n) R.tyz_RSV_IDX_IDX) (0, 0)
    some (if off = 0x64 then e.1 % 2 ^ 32 else e.2 % 2 ^ 32)
  else if n = 0 ∧ 0x120 ≤ off ∧ off < 0x130 then
    let k := s.fld (pgTyz 0) R.tyz0_RT_IDX_TABLE * 8192 + s.fld (pgTyz 0) R.tyz0_RT_IDX_DEV
    some (mapGet 0 s.tyz.routesSh k / 2 ^ (8 * (off - 0x120)) % 2 ^ 32)
  else if n = 0 ∧ 0x154 ≤ off ∧ off < 0x160 then
    some (mapGet 0 (if s.tyz.collShadowed then s.tyz.collSh else s.tyz.coll) (4 * s.fld (pgTyz 0) R.tyz0_COLL_IDX + (off - 0x154) / 4)).toNat
  else none

/-- A word of the register file as its state shows it, before rights. -/
def State.word (s : State) (i : Iface) (pg off : Nat) : Nat :=
  let stored := (s.reg (pg * 0x1000 + off)).toNat
  match pageKind pg with
  | none => 0
  | some k =>
    if off = 0 then pageBase k % 65536 + (pg - pageBase k) % 65536 * 65536
    else if off = 0xC then
      let busy := (k == .nv && s.nv.upd.isSome) || (k == .rind && (s.rind.burn.isSome || s.rind.lcBurn.isSome)) || (k == .trace && s.fld pgTrace R.trace_DUMP_STS == 1)
      let deg := k == .top && s.fld pgTop R.top_DEG_CAUSE != 0
      setBits stored 3 0 (b2n s.sys.booted + b2n busy * 2 + b2n (bitOf (s.reg (pg * 0x1000 + 0x24)).toNat 31) * 4
        + b2n (deg || bitOf stored 3) * 8)
    else if off = 0x18 then ((s.reg (pg * 0x1000 + 0x10)) &&& (s.reg (pg * 0x1000 + 0x14))).toNat
    else if off = 0x1C then eventVector pg 0
    else if off = 0x2C then let r := pageRights k; r.1 + r.2.1 * 4 + r.2.2.1 * 16 + b2n r.2.2.2 * 256
    else match k with
      | .top => if off = 0x48 then s.rind.part + 0x880 * 65536 else if off = 0x4C then s.capacity else stored
      | .frame => if off = 0x48 then s.tb.toNat % 2 ^ 32 else if off = 0x4C then s.tb.toNat / 2 ^ 32 else stored
      | .sched => if off = 0x104 then s.profileWord 0 else if off = 0x108 then s.profileWord 1 else if off = 0x10C then s.profileWord 2 else stored
      | .power => if off = 0x6C then s.profileWord 3 else if off = 0x70 then s.profileWord 4 else stored
      | .tyz => (s.tyzWord (pg - pageBase k) off).getD stored
      | .rind => (s.rindWord (bankOf i) off).getD stored
      | .cal => (s.calWord i off).getD stored
      | .cell =>
        if (s.logicalOf (pg - pageBase k)).1 ≠ 0 ∧ !cellKept off then 0
        else (s.cellWord (pg - pageBase k) off).getD stored
      | .tenant =>
        let t := pg - pageBase k
        if off = 0x54 then s.qSts t stored else stored
      | .ras => if off = 0x78 then 0x10000000 + Config.rasLogBase else stored
      | _ => stored

/-- A word as a requester reads it: 0 without read right, and 0 where a field is WO (R545, R11). -/
def State.readWord (s : State) (i : Iface) (pg off : Nat) : Word :=
  if s.mayRead i pg off then
    let w := (fieldsAt pg off).foldl (fun a d => if d.acc = .wo then setBits a d.hi d.lo 0 else a) (s.word i pg off)
    BitVec.ofNat 32 w
  else 0

/-! ### Writing a word -/

def State.encOk (s : State) (e : Enc) (v : Nat) : Bool :=
  match e with
  | .any => true
  | .range lo hi => decide (lo ≤ v) && decide (v ≤ hi)
  | .step lo hi k => decide (lo ≤ v) && decide (v ≤ hi) && (v - lo) % max k 1 == 0
  | .oneOf vs => vs.contains v
  | .upToPkg => decide (v ≤ s.fld pgPower R.power_PKG_W)
def State.locked (s : State) (pg : Nat) : Bool := s.regBit (pg * 0x1000 + 8) 2

/-- Results of a write: performed; a reserved encoding; ignored under LOCK, or failed (Table 18.10). -/
def resDone : Nat := 0
def resReserved : Nat := 1
def resFailed : Nat := 2

/-- A reserved encoding is counted and captured (R7, R607). -/
def State.reservedWrite (s : State) (i : Iface) (pg off : Nat) (val : Word) : State := s.pageError pg off (ifaceCode i) 0x01 val

/-- One field of a written word by its access code: the state and the result. Fields with a rule of their own are left to it. -/
def State.writeField (s : State) (pg off : Nat) (val : Word) (d : FieldDesc) : State × Nat :=
  let a := pg * 0x1000 + off
  let v := bitsOf val.toNat d.hi d.lo
  let put := fun (t : State) (x : Nat) => t.setReg a (BitVec.ofNat 32 (setBits (t.reg a).toNat d.hi d.lo x))
  match d.acc with
  | .ro | .wo | .special => (s, resDone)
  | .rw => if s.encOk d.enc v then (put s v, resDone) else (s, resReserved)
  | .rwl => if s.locked pg then (s, resFailed) else if s.encOk d.enc v then (put s v, resDone) else (s, resReserved)
  | .w1c => (put s (bitsOf (s.reg a).toNat d.hi d.lo - bitsOf ((s.reg a) &&& val).toNat d.hi d.lo), resDone)
  | .counter b | .accum b =>
    if v = 0 then ((put s 0).setRegBit (pg * 0x1000 + 0x40) b false, resDone) else (s, resReserved)

/-- Every field of a word. -/
def State.writeFields (s : State) (pg off : Nat) (val : Word) : List FieldDesc → State × Nat
  | [] => (s, resDone)
  | d :: ds =>
    let (s1, r1) := s.writeField pg off val d
    let (s2, r2) := s1.writeFields pg off val ds
    (s2, if r1 = resReserved ∨ r2 = resReserved then resReserved else max r1 r2)
/-- The plain effect of a write on a word's fields; a reserved encoding in any of them is counted once. -/
def State.plainWrite (s : State) (i : Iface) (pg off : Nat) (val : Word) : State × Nat :=
  let (s1, r) := s.writeFields pg off val (fieldsAt pg off)
  (if r = resReserved then s1.reservedWrite i pg off val else s1, r)

/-- A requester's interface has made an access (R552). -/
def State.touch (s : State) (i : Iface) : State :=
  match bankOf i with
  | none => s
  | some k =>
    let x := s.sess k
    if x.state = 2 then s.setSess k { x with lastAccess := s.tb } else s

/-- The register bus answers: the control domain has power and clocks (R416, R593). -/
def State.busAlive (s : State) : Bool := s.sys.on_ && !s.sys.tripped && !(s.sys.lpPhase == .asleep && s.sys.lpTarget == 4)

/-- The register bus answers a requester: after T_cut the host link is in electrical idle (R638). -/
def State.busAnswers (s : State) (i : Iface) : Bool := s.busAlive && !(s.sys.cut.isSome && (i == .pf0 || i == .fn))

/-- A register write of a requester: rights, the audit log's room, the effect `body`, its record (R545, R497, R566). -/
def State.busWrite (s : State) (rq : Req) (addr : Nat) (val : Word) (body : State → State × Nat) : State :=
  let s0 := ((s.advance rq.at_).flushNotes).touch rq.iface
  let pg := addr / 0x1000
  let off := addr % 0x1000
  match if s0.busAnswers rq.iface then pageKind pg else none with
  | none => s0
  | some k =>
    if !s0.mayWrite rq.iface pg off then s0.pageError pg off (ifaceCode rq.iface) 0x02 val
    else if s0.audits rq.iface pg off && s0.auditFull then s0.pageError pg off (ifaceCode rq.iface) 0x03 val
    else if k = .cell ∧ (s0.logicalOf (pg - pageBase k)).1 ≠ 0 ∧ !cellKept off then s0
    else
      let old := s0.word rq.iface pg off
      let role := s0.roleOf rq.iface
      let (s1, r) := body s0
      if s0.audits rq.iface pg off then
        s1.audit 0x01 role (auditIface rq.iface) r (pg * 0x1000) off 0 old (s1.word rq.iface pg off) val.toNat
      else s1

end Sys2Proof.Machine
end

