-- ==== Sys2Proof/Machine/Calib.lean ====
section
/-! DEFINITION. Calibration (R572 to R579): effective values, their application points, CAL.CTL, the user and the factory record. -/
namespace Sys2Proof.Machine

/-! ### Quantities and effective values (Table 18.12, R573) -/

/-- Number of indices of a quantity; 0 where Table 18.12 names none. -/
def calCount (qty : Nat) : Nat :=
  match qty with
  | 1 | 2 | 3 => 176
  | 4 => 64
  | 5 | 8 | 9 => 8
  | 6 | 10 => 1
  | 7 => 320
  | 11 => 21
  | _ => 0
/-- Quantities whose F, LO and HI are fuses. -/
def calFused (qty : Nat) : Bool := qty == 4 || qty == 6 || qty == 10

def State.calGet (s : State) (qty i : Nat) : CalEntry := mapGet CalEntry.zero s.cal (qty * 512 + i)
def State.calPut (s : State) (qty i : Nat) (e : CalEntry) : State := { s with cal := mapSet CalEntry.zero s.cal (qty * 512 + i) e }

/-- E = min(max(F + U, LO), HI), and whether F + U lies outside LO–HI. -/
def CalEntry.settle (x : CalEntry) : CalEntry :=
  let t := x.f + x.u
  { x with
    e := min (max t x.lo) x.hi
    clamped := decide (t < x.lo) || decide (x.hi < t) }

/-- DVFS_V: each point lies between E of the point below and 10 codes above it, in ascending order (R573). -/
def State.settleDvfs (s : State) : State :=
  ((List.range 21).foldl (fun (a : State × Option Int) i =>
    let x := (a.1.calGet 11 i).settle
    let y := match a.2 with
      | none => x
      | some b => { x with
          e := min (max x.e b) (b + 10)
          clamped := x.clamped || decide (x.e < b) || decide (b + 10 < x.e) }
    (a.1.calPut 11 i y, some y.e)) (s, none)).1

/-- CAL.STS.CLAMP of a quantity: any entry of it is clamped (R574). -/
def State.showClamp (s : State) (qty : Nat) : State :=
  s.setRegBit (pgCal * 0x1000 + 0xC) (7 + qty) (s.cal.any fun e => e.1 / 512 == qty && e.2.clamped)

/-- A pending offset comes into force (R575). -/
def State.calApply (s : State) (qty i : Nat) : State :=
  let x := s.calGet qty i
  let s1 := s.calPut qty i { x with u := x.uPend }
  (if qty = 11 then s1.settleDvfs else s1.calPut qty i (s1.calGet qty i).settle).showClamp qty
/-- The offsets whose application point is the tick instant, before step 1. -/
def State.calTick (s : State) : State :=
  [4, 5, 6, 8, 9].foldl (fun (a : State) q => (List.range (calCount q)).foldl (fun (b : State) i =>
    if (b.calGet q i).u = (b.calGet q i).uPend then b else b.calApply q i) a) s
/-- The offsets of a port's lanes, and of a channel's strobe groups, at their training. -/
def State.calLanes (s : State) (first n : Nat) : State :=
  [1, 2, 3].foldl (fun (a : State) q => (List.range n).foldl (fun (b : State) i => b.calApply q (first + i)) a) s
def State.calDeskew (s : State) (c : Nat) : State := (List.range 20).foldl (fun (a : State) i => a.calApply 7 (20 * c + i)) s

/-! ### Register writes (R574, R575, R577) -/

/-- A write of CAL.IDX: QTY and INDEX of Table 18.12. -/
def State.writeCalIdx (s : State) (i : Iface) (val : Word) : State × Nat :=
  let q := bitsOf val.toNat 3 0
  let k := bitsOf val.toNat 24 16
  if k < calCount q then ({ s with calSel := mapSet 0 s.calSel (calBank i) (q * 512 + k) }, resDone)
  else (s.reservedWrite i pgCal 0x48 val, resReserved)
/-- A write of CAL.USER: U waits for its application point. -/
def State.writeCalUser (s : State) (i : Iface) (val : Word) : State × Nat :=
  let k := mapGet 0 s.calSel (calBank i)
  if k / 512 = 0 then (s.reservedWrite i pgCal 0x4C val, resReserved)
  else ({ s with cal := mapSet CalEntry.zero s.cal k { s.calEntry i with uPend := signed 32 val.toNat } }, resDone)
/-- CLEAR_ALL: every U is 0, pending. -/
def State.calClear (s : State) : State :=
  { s with cal := s.cal.filterMap fun (e : Nat × CalEntry) =>
      let x := { e.2 with uPend := 0 }
      if x = CalEntry.zero then none else some (e.1, x) }

/-! ### The user record (Table 18.13) -/

/-- A record of every U that is not 0. -/
def State.calBytes (s : State) (seq : Nat) : List Byte :=
  let xs := s.cal.filter fun e => e.2.uPend != 0
  let b := leBytes 4 0x4C41_5A4B ++ leBytes 2 1 ++ leBytes 2 xs.length ++ leBytes 4 seq ++ leBytes 4 0 ++ leBytes 8 s.tb.toNat
    ++ List.replicate 8 0
    ++ xs.flatMap fun e => leBytes 1 (e.1 / 512) ++ [0] ++ leBytes 2 (e.1 % 512) ++ leBytes 4 (wrapInt 32 e.2.uPend)
  let c := b ++ leBytes 4 (crc32 b)
  c ++ List.replicate ((16 - c.length % 16) % 16) 0

/-- The length of a record with `n` entries. -/
def calLen (n : Nat) : Nat := (0x20 + 8 * n + 4 + 15) / 16 * 16
/-- Valid records of a CAL sector from an offset on: SEQ and bytes. -/
def calRecords (f : SMap Byte) (sec : Nat) : Nat → Nat → List (Nat × List Byte)
  | 0, _ => []
  | fuel + 1, o =>
    let h := flashRead f (sec * secSize + o) 32
    let n := fieldAt h 6 2
    if secSize < o + 32 ∨ fieldAt h 0 4 ≠ 0x4C41_5A4B then []
    else
      let b := flashRead f (sec * secSize + o) (0x24 + 8 * n)
      let ok := fieldAt h 4 2 = 1 ∧ n < 960 ∧ fieldAt b (0x20 + 8 * n) 4 = crc32 (b.take (0x20 + 8 * n))
      (if ok then [(fieldAt h 8 4, b)] else []) ++ calRecords f sec fuel (o + calLen n)
/-- The valid user record with the highest SEQ. -/
def lastCalRecord (f : SMap Byte) : Option (Nat × List Byte) :=
  ([4, 5].flatMap fun sec => if (headerOf f sec 2).isSome then calRecords f sec 2048 0x100 else []).foldl (fun a r =>
    match a with
    | none => some r
    | some x => if x.1 < r.1 then some r else a) none

/-- Set U from the last user record; entries it does not name have U = 0 (R577). -/
def State.calRestore (s : State) : State :=
  let s0 := { s with cal := s.cal.map fun (e : Nat × CalEntry) => (e.1, { e.2 with u := 0, uPend := 0 }) }
  match lastCalRecord s.nv.flash with
  | none => s0
  | some (_, b) =>
    (List.range (fieldAt b 6 2)).foldl (fun (a : State) k =>
      let o := 0x20 + 8 * k
      let q := fieldAt b o 1
      let i := fieldAt b (o + 2) 2
      let u := signed 32 (fieldAt b (o + 4) 4)
      if i < calCount q then a.calPut q i { a.calGet q i with u := u, uPend := u } else a) s0

/-! ### The factory record (R578, R579) -/

/-- The factory OTP holds a signed record with LO ≤ HI in every entry. -/
def State.factoryOk (s : State) : Bool :=
  let h := s.rind.otp.take 16
  let n := fieldAt h 6 2
  let body := s.rind.otp.take (16 + 16 * n)
  fieldAt h 0 4 == 0x4643_5A4B && fieldAt h 4 2 == 1 && decide (body.length = 16 + 16 * n)
    && Config.ecdsaOk (mapGet [] s.rind.mpk (fieldAt h 8 1)) (Config.sha384 body) ((s.rind.otp.drop (16 + 16 * n)).take 96)
    && (List.range n).all fun k => decide (signed 32 (fieldAt body (16 + 16 * k + 8) 4) ≤ signed 32 (fieldAt body (16 + 16 * k + 12) 4))

/-- F, LO and HI of every entry that is no fuse. -/
def State.calFactory (s : State) : State :=
  let ok := s.factoryOk
  let base := (List.range 12).foldl (fun (a : State) q => if calFused q then a else (List.range (calCount q)).foldl (fun (b : State) i =>
    let d : Int := if !ok && q == 11 then 100 else 0
    b.calPut q i { b.calGet q i with f := d, lo := d, hi := d }) a) s
  let s1 := if ok then
      (List.range (fieldAt s.rind.otp 6 2)).foldl (fun (a : State) k =>
        let o := 16 + 16 * k
        let q := fieldAt s.rind.otp o 1
        let i := fieldAt s.rind.otp (o + 2) 2
        if i < calCount q ∧ calFused q = false then a.calPut q i { a.calGet q i with
          f := signed 32 (fieldAt s.rind.otp (o + 4) 4)
          lo := signed 32 (fieldAt s.rind.otp (o + 8) 4)
          hi := signed 32 (fieldAt s.rind.otp (o + 12) 4) } else a) base
    else base
  s1.setRegBit (pgCal * 0x1000 + 0xC) 20 (!ok)

/-- Calibration at boot: the factory record, then the user record, every value in force. -/
def State.calBoot (s : State) : State :=
  let s1 := s.calFactory.calRestore
  let s2 := { s1 with cal := s1.cal.map fun (e : Nat × CalEntry) => (e.1, e.2.settle) }
  (List.range 12).foldl (fun (a : State) q => if q = 0 then a else a.showClamp q) s2.settleDvfs

end Sys2Proof.Machine
end

