-- ==== Sys2Proof/Machine/Float.lean ====
section
/-! DEFINITION. Binary32 and binary16 by exact integers, rounded to nearest even with subnormals kept (R92, R152, R171), and the
special functions within the bounds of Table 6.4 and of R93. Flags are numbered as R179 numbers them. -/
namespace Sys2Proof.Machine

/-- A binary format: precision, exponent of the least subnormal bit, width of the fraction and of the exponent field. -/
structure FpFmt where
  p : Nat
  emin : Int
  ew : Nat
deriving DecidableEq, Repr

def fp32 : FpFmt := ⟨24, -149, 8⟩
def fp16 : FpFmt := ⟨11, -24, 5⟩

/-- A datum: NaN, infinity, or `± m · 2^e`. -/
inductive Fp where
  | nan
  | inf (neg : Bool)
  | fin (neg : Bool) (m : Nat) (e : Int)
deriving DecidableEq, Repr

/-- A result: its encoding and the flags it raises. -/
structure FRes where
  bits : Nat
  flags : Nat
deriving DecidableEq, Repr

def flagINV : Nat := 1
def flagDZ : Nat := 2
def flagOVF : Nat := 4
def flagUNF : Nat := 8
def flagINX : Nat := 16
def flagIOV : Nat := 32

def FpFmt.fw (f : FpFmt) : Nat := f.p - 1
def FpFmt.expMax (f : FpFmt) : Nat := 2 ^ f.ew - 1
/-- The canonical quiet NaN (R171). -/
def FpFmt.qnan (f : FpFmt) : Nat := f.expMax * 2 ^ f.fw + 2 ^ (f.fw - 1)
def FpFmt.sgn (f : FpFmt) (neg : Bool) : Nat := if neg then 2 ^ (f.ew + f.fw) else 0
def FpFmt.infBits (f : FpFmt) (neg : Bool) : Nat := f.sgn neg + f.expMax * 2 ^ f.fw

/-- Read an encoding. -/
def FpFmt.decode (f : FpFmt) (b : Nat) : Fp :=
  let neg := bitOf b (f.ew + f.fw)
  let x := bitsOf b (f.ew + f.fw - 1) f.fw
  let fr := b % 2 ^ f.fw
  if x = f.expMax then (if fr = 0 then .inf neg else .nan)
  else if x = 0 then .fin neg fr f.emin
  else .fin neg (2 ^ f.fw + fr) (f.emin + (x : Int) - 1)

/-- `m · 2^e` for any integer `e`, cut towards zero. -/
def scaleNat (m : Nat) (e : Int) : Nat := if 0 ≤ e then m * 2 ^ e.toNat else m / 2 ^ (-e).toNat

/-- The number of bits of `m`. -/
def bitLen (m : Nat) : Nat := if m = 0 then 0 else Nat.log2 m + 1

/-- Round `± m · 2^e`, or a value strictly between `m` and `m + 1` times `2^e` where `sticky`, to nearest even.
OVF, UNF and INX are raised as R178 defines them. A value that rounds up to the least normal number is tiny after rounding too if it
stays below that number when rounded with no bound on its exponent. -/
def FpFmt.round (f : FpFmt) (neg : Bool) (m : Nat) (e : Int) (sticky : Bool) : FRes :=
  if m = 0 && !sticky then ⟨f.sgn neg, 0⟩
  else
    let t : Int := max (e + (bitLen m : Int) - (f.p : Int)) f.emin
    let q0 := if t ≤ e then m * 2 ^ (e - t).toNat else m / 2 ^ (t - e).toNat
    let r := if t ≤ e then 0 else m % 2 ^ (t - e).toNat
    let half := if t ≤ e then 1 else 2 ^ ((t - e).toNat - 1)
    let up := if t ≤ e then false else decide (half < r) || (decide (r = half) && (sticky || q0 % 2 == 1))
    let inexact := decide (r ≠ 0) || sticky
    let q := if up then q0 + 1 else q0
    let (q', t') := if q = 2 ^ f.p then (2 ^ f.fw, t + 1) else (q, t)
    let x : Int := t' - f.emin + 1
    if q' < 2 ^ f.fw then
      ⟨f.sgn neg + q', if inexact then flagINX + flagUNF else 0⟩
    else if (f.expMax : Int) ≤ x then ⟨f.infBits neg, flagOVF + flagINX⟩
    else
      let below := decide (t ≤ e) || decide (4 * r < 3 * 2 ^ (t - e).toNat)
      let tiny := decide (q' = 2 ^ f.fw) && decide (t' = f.emin) && decide (q0 < 2 ^ f.fw) && (!Config.tinyAfterRounding || below)
      ⟨f.sgn neg + x.toNat * 2 ^ f.fw + (q' - 2 ^ f.fw),
        (if inexact then flagINX else 0) + (if tiny && inexact then flagUNF else 0)⟩

/-- Round an exact integer multiple of `2^e`, `zneg` giving the sign of an exact zero. -/
def FpFmt.roundInt (f : FpFmt) (i : Int) (e : Int) (zneg : Bool) : FRes :=
  if i = 0 then ⟨f.sgn zneg, 0⟩ else f.round (decide (i < 0)) i.natAbs e false

/-- The exact integer `± m` scaled to exponent `lo`, where `lo ≤ e`. -/
def signedAt (neg : Bool) (m : Nat) (e lo : Int) : Int :=
  let v : Int := ((m * 2 ^ (e - lo).toNat : Nat) : Int)
  if neg then -v else v

def FpFmt.invalid (f : FpFmt) : FRes := ⟨f.qnan, flagINV⟩

/-- Addition. A NaN operand gives the canonical NaN; `quiet` NaNs raise no flag here, the caller adds INV where its rule does. -/
def FpFmt.add (f : FpFmt) (a b : Nat) : FRes :=
  match f.decode a, f.decode b with
  | .nan, _ => ⟨f.qnan, 0⟩
  | _, .nan => ⟨f.qnan, 0⟩
  | .inf n, .inf k => if n = k then ⟨f.infBits n, 0⟩ else f.invalid
  | .inf n, _ => ⟨f.infBits n, 0⟩
  | _, .inf k => ⟨f.infBits k, 0⟩
  | .fin n m e, .fin k l g =>
    let lo := min e g
    f.roundInt (signedAt n m e lo + signedAt k l g lo) lo (n && k)

def FpFmt.neg (f : FpFmt) (a : Nat) : Nat := a ^^^ 2 ^ (f.ew + f.fw)
def FpFmt.abs (f : FpFmt) (a : Nat) : Nat := a % 2 ^ (f.ew + f.fw)
def FpFmt.isNan (f : FpFmt) (a : Nat) : Bool := f.decode a == .nan
/-- A signalling NaN: its quiet bit is 0. -/
def FpFmt.isSnan (f : FpFmt) (a : Nat) : Bool := f.isNan a && !bitOf a (f.fw - 1)
def FpFmt.isInf (f : FpFmt) (a : Nat) : Bool := match f.decode a with | .inf _ => true | _ => false

/-- Multiplication. -/
def FpFmt.mul (f : FpFmt) (a b : Nat) : FRes :=
  match f.decode a, f.decode b with
  | .nan, _ => ⟨f.qnan, 0⟩
  | _, .nan => ⟨f.qnan, 0⟩
  | .inf n, .inf k => ⟨f.infBits (n != k), 0⟩
  | .inf n, .fin k l _ => if l = 0 then f.invalid else ⟨f.infBits (n != k), 0⟩
  | .fin n m _, .inf k => if m = 0 then f.invalid else ⟨f.infBits (n != k), 0⟩
  | .fin n m e, .fin k l g => f.round (n != k) (m * l) (e + g) false

/-- Fused multiply-add, rounded once (R170). DESIGN CHOICE (assumption 91): infinity times zero raises INV beside a quiet NaN addend too,
which IEEE 754 leaves to the implementation. -/
def FpFmt.fma (f : FpFmt) (a b c : Nat) : FRes :=
  match f.decode a, f.decode b, f.decode c with
  | .nan, _, _ => ⟨f.qnan, 0⟩
  | _, .nan, _ => ⟨f.qnan, 0⟩
  | .inf _, .fin _ 0 _, _ => f.invalid
  | .fin _ 0 _, .inf _, _ => f.invalid
  | _, _, .nan => ⟨f.qnan, 0⟩
  | .fin n m e, .fin k l g, .fin j i h =>
    let lo := min (e + g) h
    f.roundInt (signedAt (n != k) (m * l) (e + g) lo + signedAt j i h lo) lo ((n != k) && j)
  | .fin _ _ _, .fin _ _ _, .inf j => ⟨f.infBits j, 0⟩
  | x, y, .inf j =>
    let s := (match x with | .inf n => n | .fin n _ _ => n | .nan => false) != (match y with | .inf n => n | .fin n _ _ => n | .nan => false)
    if s = j then ⟨f.infBits j, 0⟩ else f.invalid
  | x, y, .fin _ _ _ =>
    ⟨f.infBits ((match x with | .inf n => n | .fin n _ _ => n | .nan => false) != (match y with | .inf n => n | .fin n _ _ => n | .nan => false)), 0⟩

/-- The order of encodings with −0 below +0 (R92, R171): larger key, larger value. Not for NaN. -/
def FpFmt.key (f : FpFmt) (a : Nat) : Int :=
  if bitOf a (f.ew + f.fw) then -((f.abs a : Nat) : Int) - 1 else (f.abs a : Nat)

/-- IEEE less-than: −0 equals +0. Not for NaN. -/
def FpFmt.lt (f : FpFmt) (a b : Nat) : Bool :=
  if f.abs a = 0 && f.abs b = 0 then false else decide (f.key a < f.key b)
def FpFmt.eq (f : FpFmt) (a b : Nat) : Bool := (f.abs a = 0 && f.abs b = 0) || a == b

/-- The larger value, −0 below +0; a NaN operand gives the canonical NaN and INV (R92, R94, R171). -/
def FpFmt.maxi (f : FpFmt) (a b : Nat) : FRes :=
  if f.isNan a || f.isNan b then f.invalid else ⟨if f.key a < f.key b then b else a, 0⟩
def FpFmt.mini (f : FpFmt) (a b : Nat) : FRes :=
  if f.isNan a || f.isNan b then f.invalid else ⟨if f.key b < f.key a then b else a, 0⟩

/-- From one format to another (R174): narrowing rounds, a NaN becomes the canonical NaN. -/
def fpConvert (f g : FpFmt) (a : Nat) : FRes :=
  match f.decode a with
  | .nan => ⟨g.qnan, 0⟩
  | .inf n => ⟨g.infBits n, 0⟩
  | .fin n m e => g.round n m e false

/-- Round `m · 2^e` to an integer, to nearest even. -/
def roundEven (m : Nat) (e : Int) : Nat :=
  if 0 ≤ e then m * 2 ^ e.toNat
  else
    let s := (-e).toNat
    let q := m / 2 ^ s
    let r := m % 2 ^ s
    if decide (2 ^ (s - 1) < r) || (decide (r = 2 ^ (s - 1)) && q % 2 == 1) then q + 1 else q

/-- The exact value `m · 2^e` has no fraction. -/
def isIntegral (m : Nat) (e : Int) : Bool := decide (0 ≤ e) || decide (m % 2 ^ (-e).toNat = 0)

/-! ### Reference values of the special functions, to some 400 bits -/

/-- Fraction bits of the reference values. -/
def refBits : Nat := 512
def refOne : Nat := 2 ^ 512
def fixMul (a b : Nat) : Nat := a * b / refOne
/-- Sum of `n` terms of the exponential series of `r`, in fixed point. -/
def expSeries (r : Nat) : Nat → Nat → Nat → Nat
  | 0, _, acc => acc
  | n + 1, term, acc => let k := 121 - (n + 1); let t := fixMul term r / k; expSeries r n t (acc + t)
/-- ln 2 in fixed point: the sum of 1 / (k · 2^k). -/
def refLn2 : Nat := (List.range 530).foldl (fun a k => a + refOne / ((k + 1) * 2 ^ (k + 1))) 0
/-- exp of a fixed-point integer: mantissa and exponent. -/
def refExp (x : Int) : Nat × Int :=
  let k := x / (refLn2 : Int)
  let r := (x - k * (refLn2 : Int)).toNat
  (expSeries r 120 refOne refOne, k - 512)
/-- `± m · 2^e` in fixed point. -/
def toFix (neg : Bool) (m : Nat) (e : Int) : Int :=
  let v : Int := ((scaleNat m (e + 512) : Nat) : Int)
  if neg then -v else v
/-- arctan (1 / k) in fixed point. -/
def refAtanInv (k : Nat) : Int :=
  (List.range 256).foldl (fun (a : Int) n =>
    let t : Int := ((refOne / (k ^ (2 * n + 1) * (2 * n + 1)) : Nat) : Int)
    if n % 2 = 0 then a + t else a - t) 0
def refPi : Nat := (16 * refAtanInv 5 - 4 * refAtanInv 239).toNat
/-- Terms of the error function's series: `x² ^ n / n!` in fixed point. -/
def erfSeries (x x2 : Nat) : Nat → Nat → Int → Int
  | 0, _, acc => acc
  | n + 1, term, acc =>
    let k := 300 - (n + 1)
    let t : Int := ((fixMul term x / (2 * k + 1) : Nat) : Int)
    erfSeries x x2 n (fixMul term x2 / (k + 1)) (if k % 2 = 0 then acc + t else acc - t)
/-- erf of a fixed-point non-negative number. -/
def refErf (x : Nat) : Nat :=
  let s := (erfSeries x (fixMul x x) 300 refOne 0).toNat
  2 * s * 2 ^ 256 / Nat.sqrt refPi

/-- The value within `bound` ulp of the reference `m · 2^e` that the free value `d` picks: the nearest value moved by up to
`bound` steps, where the moved value is still within the bound; else the nearest value. -/
def FpFmt.within (f : FpFmt) (bound : Nat) (neg : Bool) (m : Nat) (e : Int) (d : BitVec 64) : FRes :=
  let r0 := f.round neg m e true
  let off : Int := ((d.toNat % (2 * bound + 1) : Nat) : Int) - (bound : Int)
  let mag := f.abs r0.bits
  let c := ((mag : Int) + off).toNat
  let ulpE : Int := max (e + (bitLen m : Int) - (f.p : Int)) f.emin
  let ok := match f.decode c with
    | .fin _ cm ce =>
      let lo := min (min ce e) ulpE
      decide ((signedAt false cm ce lo - signedAt false m e lo).natAbs ≤ bound * 2 ^ (ulpE - lo).toNat)
    | _ => false
  if decide (0 ≤ (mag : Int) + off) && ok && !f.isInf r0.bits then ⟨f.sgn neg + c, r0.flags⟩ else r0

/-- EXP in binary32, from Table 6.4 with the given bound. -/
def f32Exp (bound : Nat) (a : Nat) (d : BitVec 64) : FRes :=
  match fp32.decode a with
  | .nan => ⟨fp32.qnan, 0⟩
  | .inf true => ⟨0, 0⟩
  | .inf false => ⟨fp32.infBits false, 0⟩
  | .fin _ 0 _ => ⟨0x3F800000, 0⟩
  | .fin n m e =>
    if 256 * 2 ^ 200 ≤ scaleNat m (e + 200) then (if n then ⟨0, flagUNF + flagINX⟩ else ⟨fp32.infBits false, flagOVF + flagINX⟩)
    else let (rm, re) := refExp (toFix n m e); fp32.within bound false rm re d

/-- RCP in binary32. -/
def f32Rcp (a : Nat) (d : BitVec 64) : FRes :=
  match fp32.decode a with
  | .nan => ⟨fp32.qnan, 0⟩
  | .inf n => ⟨fp32.sgn n, 0⟩
  | .fin n 0 _ => ⟨fp32.infBits n, flagDZ⟩
  | .fin n m e =>
    let r := fp32.within 1 n (refOne / m) (-512 - e) d
    let exact := match fp32.decode r.bits with
      | .fin _ cm ce => decide (0 ≤ -(ce + e)) && decide (cm * m = 2 ^ (-(ce + e)).toNat)
      | _ => false
    ⟨r.bits, if exact then 0 else r.flags⟩

/-- RSQRT in binary32. -/
def f32Rsqrt (a : Nat) (d : BitVec 64) : FRes :=
  match fp32.decode a with
  | .nan => ⟨fp32.qnan, 0⟩
  | .inf true => fp32.invalid
  | .inf false => ⟨0, 0⟩
  | .fin n 0 _ => ⟨fp32.infBits n, flagDZ⟩
  | .fin true _ _ => fp32.invalid
  | .fin false m e =>
    let m' := if e % 2 = 0 then m else 2 * m
    let e' := if e % 2 = 0 then e else e - 1
    let r := fp32.within 2 false (Nat.sqrt (2 ^ 1024 / m')) (-512 - e' / 2) d
    let exact := match fp32.decode r.bits with
      | .fin _ cm ce => decide (0 ≤ -(2 * ce + e)) && decide (cm * cm * m = 2 ^ (-(2 * ce + e)).toNat)
      | _ => false
    ⟨r.bits, if exact then 0 else r.flags⟩

/-- TANH in binary32. -/
def f32Tanh (a : Nat) (d : BitVec 64) : FRes :=
  match fp32.decode a with
  | .nan => ⟨fp32.qnan, 0⟩
  | .inf n => ⟨fp32.sgn n + 0x3F800000, 0⟩
  | .fin n 0 _ => ⟨fp32.sgn n, 0⟩
  | .fin n m e =>
    if 64 * 2 ^ 200 ≤ scaleNat m (e + 200) then fp32.within 2 n (refOne - 1) (-512) d
    else
      let (rm, re) := refExp (toFix false m (e + 1))
      let y := scaleNat rm (re + 512)
      fp32.within 2 n ((y - refOne) * refOne / (y + refOne)) (-512) d

/-- ERF in binary32. -/
def f32Erf (a : Nat) (d : BitVec 64) : FRes :=
  match fp32.decode a with
  | .nan => ⟨fp32.qnan, 0⟩
  | .inf n => ⟨fp32.sgn n + 0x3F800000, 0⟩
  | .fin n 0 _ => ⟨fp32.sgn n, 0⟩
  | .fin n m e =>
    if 6 * 2 ^ 200 ≤ scaleNat m (e + 200) then fp32.within 3 n (refOne - 1) (-512) d
    else fp32.within 3 n (refErf (toFix false m e).toNat) (-512) d

end Sys2Proof.Machine
end

