-- ==== Sys2Proof/Machine/Mesh.lean ====
section
/-! DEFINITION. The mesh (R64 to R99, R243, R252): headers, dimension-order routing, multicast, in-network reduction, link credits. -/
namespace Sys2Proof.Machine

/-! ### Header fields (Tables 3.3 and 8.2) -/

def hDstPx (h : Nat) : Nat := bitsOf h 6 0
def hDstPy (h : Nat) : Nat := bitsOf h 11 7
def hMcg (h : Nat) : Nat := bitsOf h 11 0
def hSrcPx (h : Nat) : Nat := bitsOf h 18 12
def hSrcPy (h : Nat) : Nat := bitsOf h 23 19
def hVn (h : Nat) : Nat := bitsOf h 25 24
def hMc (h : Nat) : Bool := bitOf h 26
def hFlits (h : Nat) : Nat := bitsOf h 31 27
def hOp (h : Nat) : Nat := bitsOf h 39 32
def hRegion (h : Nat) : Nat := bitsOf h 47 40
def hTag (h : Nat) : Nat := bitsOf h 59 48
def hCls (h : Nat) : Bool := bitOf h 60
def hSeq (h : Nat) : Nat := bitsOf h 71 64
def hCount (h : Nat) : Nat := bitsOf h 80 72
def hContrib (h : Nat) : Nat := bitsOf h 92 81
def hSat (h : Nat) : Bool := bitOf h 93
def hOrphan (h : Nat) : Bool := bitOf h 94
def hOvf (h : Nat) : Bool := bitOf h 96
def hInv (h : Nat) : Bool := bitOf h 97
def hHcrc (h : Nat) : Nat := bitsOf h 127 112
def hUnitSeq (h : Nat) : Nat := bitsOf h 79 64
def hLast (h : Nat) : Bool := bitOf h 80
def hCrd (h : Nat) : Bool := bitOf h 81
def hCredits (h : Nat) : Nat := bitsOf h 95 83

/-- The header CRC over bytes 0 to 13. -/
def hcrcOf (h : Nat) : Nat := crc16 (leBytes 14 (h % 2 ^ 112))
/-- A header with its HCRC set. -/
def withHcrc (h : Nat) : Nat := h % 2 ^ 112 + hcrcOf h * 2 ^ 112
/-- Bits of a header replaced, HCRC not recomputed. -/
def hSet (h hi lo v : Nat) : Nat := setBits h hi lo v
/-- Flits of a packet with this payload (R67). -/
def flitsOf (payload : Nat) : Nat := (16 + payload + 63) / 64

/-- A unicast header: destination and source positions, network, class, op, region, tag, word 2. -/
def mkHeader (dst src vn : Nat) (cls : Bool) (op region tag word2 payload : Nat) : Nat :=
  withHcrc (posPx dst + posPy dst * 2 ^ 7 + posPx src * 2 ^ 12 + posPy src * 2 ^ 19 + vn * 2 ^ 24 + flitsOf payload * 2 ^ 27
    + op * 2 ^ 32 + region * 2 ^ 40 + tag * 2 ^ 48 + b2n cls * 2 ^ 60 + word2 * 2 ^ 64)

/-- Port codes: 0 N, 1 S, 2 E, 3 W, 4 Local. The output port towards a destination (R68). -/
def routePort (pos dst : Nat) : Nat :=
  if posPx pos < posPx dst then 2 else if posPx dst < posPx pos then 3
  else if posPy pos < posPy dst then 1 else if posPy dst < posPy pos then 0 else 4
/-- The neighbour at an output port, and the input port it arrives at; none at the edges of the mesh (R65). -/
def neighbour (pos port : Nat) : Option (Nat × Nat) :=
  match port with
  | 0 => if posPy pos = 0 then none else some (pos - 68, 1)
  | 1 => if 31 ≤ posPy pos then none else some (pos + 68, 0)
  | 2 => if 67 ≤ posPx pos then none else some (pos + 1, 3)
  | 3 => if posPx pos = 0 then none else some (pos - 1, 2)
  | _ => none

/-- Networks with buffers of their own: VN0, VN1, VN2 REQ, VN3, VN2 RSP (R97). -/
def vnIndex (h : Nat) : Nat := if hVn h = 2 ∧ hCls h then 4 else hVn h
def vnDepth : Nat := Config.vnDepthLess1 + 1
def Router.used (r : Router) (port vn : Nat) : Nat := mapGet 0 r.creditUsed (port * 8 + vn)
def Router.setUsed (r : Router) (port vn n : Nat) : Router := { r with creditUsed := mapSet 0 r.creditUsed (port * 8 + vn) n }

/-- The stream engine (0 to 31, R251) or Tyzil bridge (32 to 63, R352) attached at a position. -/
def engineAt (pos : Nat) : Option Nat :=
  if posPx pos % 4 = 2 ∧ posPx pos < 64 ∧ posPy pos = 0 then some (posPx pos / 4)
  else if posPx pos % 4 = 2 ∧ posPx pos < 64 ∧ posPy pos = 31 then some (posPx pos / 4 + 16)
  else if posPx pos = 0 ∧ posPy pos % 2 = 0 then some (32 + posPy pos / 2)
  else if posPx pos = 67 ∧ posPy pos % 2 = 1 then some (48 + posPy pos / 2)
  else none
def enginePos (k : Nat) : Nat :=
  if k < 32 then (if k < 16 then 0 else 31) * 68 + 4 * (k % 16) + 2
  else if k < 48 then 2 * (k - 32) * 68 else (2 * (k - 48) + 1) * 68 + 67
/-- The router port an engine's or a bridge's link enters. -/
def enginePort (k : Nat) : Nat := if k < 16 then 0 else if k < 32 then 1 else if k < 48 then 3 else 2

/-- An entry of SE_PORT matches (R252). -/
def Router.sePortHit (r : Router) (region tag : Nat) : Bool :=
  r.sePort.any fun e => bitOf e.2.toNat 31 && bitsOf e.2.toNat 7 0 == region && bitsOf e.2.toNat 19 8 == tag

/-- The stream engine or bridge that a packet addressed to a position leaves to by the outward port (R252, R352); only stream packets have
a STREAM_ID to match. -/
def State.outward (s : State) (pos : Nat) (p : MeshPacket) : Option Nat :=
  match engineAt pos with
  | some k => if (s.router pos).sePortHit (hRegion p.hdr) (hTag p.hdr) && p.body == .data then some k else none
  | none => none
/-- A packet leaves by the Local port, or by the outward port to the attached stream engine or bridge. The Local port of a position that
holds no logical cell is closed (R60). -/
def State.deliverLocal (s : State) (pos : Nat) (p : MeshPacket) : State :=
  match s.outward pos p with
  | some k => { s with grid := { s.grid with toEngine := s.grid.toEngine ++ [(k, p)] } }
  | none =>
    if s.holdsLogical pos then let r := s.router pos; s.setRouter pos { r with localQ := r.localQ ++ [p] } else s

/-- The packets that wait in the receive buffers a packet would enter at its position: those of the Local port or of the attached engine. -/
def State.localBuffer (s : State) (pos : Nat) (p : MeshPacket) : List MeshPacket :=
  match s.outward pos p with
  | some k => (s.grid.toEngine.filter fun e => e.1 == k).map (·.2)
  | none => (s.router pos).localQ
/-- Flits of a network among packets. -/
def flitsIn (v : Nat) (l : List MeshPacket) : Nat := (l.filter fun q => vnIndex q.hdr == v).foldl (fun a q => a + hFlits q.hdr) 0
/-- The packet belongs to a flow whose slot sets are installed (R73, R74, R77): it never waits in a router. -/
def State.reservedFlow (s : State) (p : MeshPacket) : Bool :=
  hVn p.hdr == 0 && hOp p.hdr == 0 && p.body == .data && s.work.sects.any fun t => (List.range t.streams.length).any fun i =>
    match t.streams[i]? with
    | none => false
    | some r => r.slotSets != 0 && !t.slotsDue.contains i
        && ((t.region == hRegion p.hdr && r.id == hTag p.hdr)
          || t.place.ext.any fun e => e.1 == i && e.2.2 == hTag p.hdr
              && (s.work.sects.any fun u => u.sid == e.2.1 && u.region == hRegion p.hdr))

/-- An output port can take a packet: it holds a credit of the packet's network for its first flit (R97); Local has room, and sinks VN2 RSP
and VN3 at all times (R98); a port at an edge has no link; a reserved flit never waits (R74). -/
def State.portReady (s : State) (pos port : Nat) (p : MeshPacket) : Bool :=
  let v := vnIndex p.hdr
  s.reservedFlow p ||
    (if port = 4 then v == 3 || v == 4 || decide (flitsIn v (s.localBuffer pos p) < vnDepth)
    else (neighbour pos port).isNone || decide ((s.router pos).used port v < vnDepth))
/-- A packet leaves by a port; its flits use credits of the port (Table 8.1). Beyond an edge there is no link to take it (log entry 87). -/
def State.leave (s : State) (pos port : Nat) (p : MeshPacket) : State :=
  if port = 4 then s.deliverLocal pos p
  else
    match neighbour pos port with
    | none => s
    | some (np, ip) =>
      let r := s.router pos
      let v := vnIndex p.hdr
      let s1 := s.setRouter pos (r.setUsed port v (r.used port v + hFlits p.hdr))
      { s1 with grid := { s1.grid with flight := s1.grid.flight ++ [(np, ip, p)] } }
/-- Send a packet out of a port: at once where the port can take it, else it waits. -/
def State.sendOut (s : State) (pos port : Nat) (p : MeshPacket) : State :=
  if s.portReady pos port p then s.leave pos port p
  else let r := s.router pos; s.setRouter pos { r with waiting := r.waiting ++ [(port, p)] }

/-- Codes, beside the ports, of packets that wait in an input buffer: for a multicast copy, for a reduction entry. -/
def waitMulticast : Nat := 8
def waitReduction : Nat := 9

/-- The multicast entry for (REGION, MCG): input port and output mask (R78). -/
def Router.mcEntry (r : Router) (region mcg : Nat) : Option Nat :=
  (List.range 64).findSome? fun i =>
    let w0 := (mapGet 0 r.mc (2 * i)).toNat
    if bitOf w0 31 && bitsOf w0 7 0 == region && bitsOf w0 19 8 == mcg then some (mapGet 0 r.mc (2 * i + 1)).toNat else none
/-- The reduction entry for (REGION, TAG): words 1 and 2 (R82, R83). -/
def Router.redEntry (r : Router) (region tag : Nat) : Option (Nat × Nat) :=
  (List.range 32).findSome? fun i =>
    let w0 := (mapGet 0 r.red (4 * i)).toNat
    if bitOf w0 31 && bitsOf w0 7 0 == region && bitsOf w0 19 8 == tag then
      some ((mapGet 0 r.red (4 * i + 1)).toNat, (mapGet 0 r.red (4 * i + 2)).toNat) else none
def redKey (region tag : Nat) : Nat := region * 4096 + tag

/-- ERR_LOG1 of a reduction error (Table 21.3). -/
def redLog (h : Nat) : Word := BitVec.ofNat 32 (hRegion h + hTag h * 256 + hSeq h * 2 ^ 24)

/-- A packet that matches no reduction entry goes on unmerged with ORPHAN set; at its destination it is discarded (R87). -/
def State.orphan (s : State) (pos port : Nat) (p : MeshPacket) : State :=
  let h := withHcrc (hSet p.hdr 94 94 1)
  let dst := hDstPy h * 68 + hDstPx h
  if dst = pos then
    ((s.event (pgCell pos) 2).pageError (pgCell pos) port 0xF 0x12 (redLog h)).faultRegion (hRegion h) endInternal
  else s.sendOut pos (routePort pos dst) { p with hdr := h }

/-- A duplicate or mismatched reduction operand is discarded (R88, R90). -/
def State.redDup (s : State) (pos port : Nat) (p : MeshPacket) : State :=
  ((s.event (pgCell pos) 3).pageError (pgCell pos) port 0xF 0x13 (redLog p.hdr)).faultRegion (hRegion p.hdr) endInternal

/-- A VN1 packet meets the reduction table of a router (R83, R84, R87, R88, R90). -/
def State.reduceArrive (s : State) (pos port : Nat) (p : MeshPacket) : State :=
  let r := s.router pos
  match r.redEntry (hRegion p.hdr) (hTag p.hdr) with
  | none => s.orphan pos port p
  | some (w1, _) =>
    let key := redKey (hRegion p.hdr) (hTag p.hdr)
    if !bitOf w1 port then s.orphan pos port p
    else match r.pend.find? fun e => e.key == key && e.seq == hSeq p.hdr with
      | some e =>
        if e.ops.any fun o => o.1 == port then s.redDup pos port p
        else if e.ops.any fun o => hOp o.2.hdr != hOp p.hdr || hCount o.2.hdr != hCount p.hdr then s.redDup pos port p
        else s.setRouter pos { r with pend := r.pend.map fun x =>
          if x.key == key && x.seq == hSeq p.hdr then { x with ops := x.ops ++ [(port, p)] } else x }
      | none =>
        if 2 ≤ (r.pend.filter fun e => e.key == key).length then
          s.setRouter pos { r with waiting := r.waiting ++ [(waitReduction + port, p)] }
        else s.setRouter pos { r with pend := r.pend ++ [⟨key, hSeq p.hdr, [(port, p)]⟩] }

/-- The consumer corrects the granules that arrive with a correctable error, and counts them (R69, Table 3.4). -/
def State.correctAt (s : State) (pos : Nat) (p : MeshPacket) (off : Nat → Nat) : State :=
  p.ce.foldl (fun (a : State) g => a.spCe pos (off g)) s

/-- A packet whose header CRC fails is discarded (R70). -/
def State.hcrcFail (s : State) (pos port : Nat) (p : MeshPacket) (got : Nat) : State :=
  (((s.pageError (pgCell pos) port 0xF 0x10 (BitVec.ofNat 32 got)).rasReport 2 0x06 (pgCell pos) [posPx pos, posPy pos, port] 0).strike
    pos).faultRegion (hRegion p.hdr) endInternal

end Sys2Proof.Machine

namespace Sys2Proof
open Machine

/-- Soft errors strike payload granules on their way (R69, R71): a correctable one travels on and is corrected by the consumer, an
uncorrectable one goes on with the poison syndrome. -/
def MeshPacket.struck (p : MeshPacket) (us : List Upset) : MeshPacket :=
  us.foldl (fun (a : MeshPacket) u =>
    if a.payload.length ≤ 8 * u.granule then a
    else match u.cls with
      | .clean => a
      | .ce => if a.ce.contains u.granule || a.poison.contains u.granule then a else { a with ce := a.ce ++ [u.granule] }
      | .ue | .poison =>
        let raw := leNat ((a.payload.drop (8 * u.granule)).take 8) ^^^ u.flips
        { a with
          payload := listBlit a.payload (8 * u.granule) (leBytes 8 raw)
          poison := if a.poison.contains u.granule then a.poison else a.poison ++ [u.granule]
          ce := a.ce.filter (· != u.granule) }) p

end Sys2Proof

namespace Sys2Proof.Machine

/-- The oldest packet of a network that is on its way over a link. -/
def State.firstOnLink (s : State) (pos port v : Nat) : Option MeshPacket :=
  (s.grid.flight.find? fun e => e.1 == pos && e.2.1 == port && vnIndex e.2.2.hdr == v).map (·.2.2)
/-- A packet on its way is overtaken by none of its network: it is the oldest on its link (R118, R263). -/
def State.inOrder (s : State) (pos port : Nat) (p : MeshPacket) : Bool :=
  !s.grid.flight.contains (pos, port, p) || s.firstOnLink pos port (vnIndex p.hdr) == some p

/-- MESH_PACKET_ARRIVE (R68 to R71, R78 to R88): a packet sent as `pkt` arrives at input port `port`, struck by `up` on the
link. -/
def execMeshPacketArrive (pos port : Nat) (pkt : MeshPacket) (up : LinkUpset) (s : State) : Host.Outcome State Fault Refusal := s.onGrid <|
  let s0 := { s with grid := { s.grid with flight := s.grid.flight.erase (pos, port, pkt) } }
  let h := pkt.hdr ^^^ (up.flip % 2 ^ 128)
  let p := { pkt.struck up.hits with hdr := h }
  if !s.inOrder pos port pkt then s.passOver "an earlier packet of its network is on this link"
  else if hcrcOf h ≠ hHcrc h then .next (s0.hcrcFail pos port pkt h)
  else if hMc h then
    match (s0.router pos).mcEntry (hRegion h) (hMcg h) with
    | none => .next (((s0.event (pgCell pos) 1).pageError (pgCell pos) port 0xF 0x11
        (BitVec.ofNat 32 (hRegion h + hMcg h * 256))).faultRegion (hRegion h) endInternal)
    | some _ => let r := s0.router pos; .next (s0.setRouter pos { r with waiting := r.waiting ++ [(waitMulticast, p)] })
  else if hVn h = 1 then .next (if hOrphan h then s0.orphan pos port p else s0.reduceArrive pos port p)
  else .next (s0.sendOut pos (routePort pos (hDstPy h * 68 + hDstPx h)) p)

/-- Output ports of a mask by port code. -/
def maskPorts (mask : Nat) : List Nat := (List.range 5).filter fun k => bitOf mask k

/-- MC_FORWARD (R79, R80): the oldest multicast flit waiting here is copied to every output of its entry once each holds a credit;
until then it waits. -/
def execMcForward (pos : Nat) (s : State) : Host.Outcome State Fault Refusal := s.onGrid <|
  let r := s.router pos
  match r.waiting.find? fun w => w.1 == waitMulticast with
  | none => s.passOver "no multicast packet waits here"
  | some w =>
    match r.mcEntry (hRegion w.2.hdr) (hMcg w.2.hdr) with
    | none => s.passOver "no multicast entry"
    | some w1 =>
      let ports := maskPorts (bitsOf w1 12 8)
      if ports.all fun k => s.portReady pos k w.2 then
        .next (ports.foldl (fun t k => t.sendOut pos k w.2) (s.setRouter pos { r with waiting := r.waiting.erase w }))
      else .next s

/-! ### Reduction arithmetic (R92 to R95) -/

/-- 32-bit elements of a byte list. -/
def words32 : List Byte → List Nat
  | a :: b :: c :: d :: r => leNat [a, b, c, d] :: words32 r
  | _ => []
def bytes32 (ws : List Nat) : List Byte := ws.flatMap (leBytes 4)

/-- ADD_I32 on one element: the result and OVF. -/
def addI32 (sat : Bool) (a b : Nat) : Nat × Bool :=
  let x := signed 32 a + signed 32 b
  let out := decide (x < -2147483648) || decide (2147483647 < x)
  (if out && sat then (if x < 0 then 0x80000000 else 0x7FFFFFFF) else wrapInt 32 x, out)

/-- A merge result: elements, OVF, INV. -/
structure Merged where
  elems : List Nat
  ovf : Bool
  inv : Bool
deriving DecidableEq, Repr

def mergeWith (f : Nat → Nat → Nat × Bool × Bool) (a b : List Nat) : Merged :=
  let rs := List.zipWith f a b
  ⟨rs.map (·.1), rs.any (·.2.1), rs.any (·.2.2)⟩

/-- ADD_F32 on one element (R92, R94). -/
def addF32 (a b : Nat) : Nat × Bool × Bool :=
  let r := fp32.add a b
  (r.bits, bitOf r.flags 2, fp32.isNan a || fp32.isNan b || bitOf r.flags 0)
/-- MAX_F32 on one element. -/
def maxF32 (a b : Nat) : Nat × Bool × Bool := let r := fp32.maxi a b; (r.bits, false, bitOf r.flags 0)

/-- `a·x + b·y`, each step rounded (R93): result, OVF of the addition, INV. -/
def lseStep (a x b y : Nat) : Nat × Bool × Bool :=
  if fp32.isNan x || fp32.isNan y then (fp32.qnan, false, true)
  else
    let p := fp32.mul a x
    let q := fp32.mul b y
    let r := fp32.add p.bits q.bits
    (r.bits, bitOf r.flags 2, bitOf p.flags 0 || bitOf q.flags 0 || bitOf r.flags 0)

/-- The weight exp (mi − m): 1 exactly at 0, 0 exactly at −∞, else within 2 ulp. -/
def lseWeight (mi m : Nat) (d : BitVec 64) : Nat := (f32Exp 2 (fp32.add mi (fp32.neg m)).bits d).bits

/-- LSE_MERGE of m, s and the o elements, in one list (R93, R94). -/
def lseMerge (x y : List Nat) (d1 d2 : BitVec 64) : Merged :=
  match x, y with
  | m1 :: t1, m2 :: t2 =>
    let bad := fun m => fp32.isNan m || m == fp32.infBits false
    if bad m1 || bad m2 then ⟨(fp32.qnan) :: t1.map fun _ => fp32.qnan, false, true⟩
    else
      let m := (fp32.maxi m1 m2).bits
      if m = fp32.infBits true then
        let rs := List.zipWith (fun a b => if fp32.isNan a || fp32.isNan b then (fp32.qnan, true) else (0, false)) t1 t2
        ⟨m :: rs.map (·.1), false, rs.any (·.2)⟩
      else
        let a1 := if m1 = m then 0x3F800000 else lseWeight m1 m d1
        let a2 := if m2 = m then 0x3F800000 else lseWeight m2 m d2
        let r := mergeWith (fun p q => lseStep a1 p a2 q) t1 t2
        { r with elems := m :: r.elems }
  | _, _ => ⟨[], false, false⟩

/-- Poisoned granules of a merge result (R95). -/
def mergePoison (lse : Bool) (n : Nat) (a b : List Nat) : List Nat :=
  let u := (List.range ((n + 7) / 8)).filter fun g => a.contains g || b.contains g
  if lse && u.contains 0 then List.range ((n + 7) / 8) else u

/-- The pairwise step on two packets: flags ORed, CONTRIB summed. -/
def mergePackets (op : Nat) (a b : MeshPacket) (d1 d2 : BitVec 64) : MeshPacket :=
  let x := words32 a.payload
  let y := words32 b.payload
  let r : Merged :=
    if op = 1 then mergeWith (fun p q => let z := addI32 (hSat a.hdr) p q; (z.1, z.2, false)) x y
    else if op = 2 then mergeWith addF32 x y
    else if op = 3 then mergeWith maxF32 x y
    else lseMerge x y d1 d2
  let h1 := hSet a.hdr 92 81 (hContrib a.hdr + hContrib b.hdr)
  let h2 := hSet h1 96 96 (b2n (hOvf a.hdr || hOvf b.hdr || r.ovf))
  let h3 := hSet h2 97 97 (b2n (hInv a.hdr || hInv b.hdr || r.inv))
  .data (withHcrc h3) (bytes32 r.elems) (mergePoison (op == 4) a.payload.length a.poison b.poison)

/-- Fold the operands in child order, taking two free values for each LSE step. -/
def State.mergeAll (s : State) (op : Nat) (acc : MeshPacket) : List MeshPacket → State × MeshPacket
  | [] => (s, acc)
  | p :: ps =>
    if op = 4 then
      let (d1, s1) := s.takeFree
      let (d2, s2) := s1.takeFree
      s2.mergeAll op (mergePackets op acc p d1 d2) ps
    else s.mergeAll op (mergePackets op acc p 0 0) ps

/-- The child order of a reduction entry: word 2's port codes. -/
def childOrder (w2 : Nat) : List Nat := (List.range (bitsOf w2 18 16)).map fun i => bitsOf w2 (3 * i + 2) (3 * i)

/-- A reduction result reaches its destination cell (R89, R96): CONTRIB is checked, OVF and INV go to the sticky flags. -/
def State.reductionResult (s : State) (pos : Nat) (p : MeshPacket) : State :=
  let region := hRegion p.hdr
  match s.sectByRegion region with
  | none => s.deliverLocal pos p
  | some t =>
    let n := t.ctx
    let c := s.ctx pos n
    let fl := (if hOvf p.hdr then flagOVF else 0) ||| (if hInv p.hdr then flagINV else 0)
    let s1 := (s.setCtx pos n { c with vxFlags := c.vxFlags ||| fl }).deliverLocal pos p
    match t.trees.find? fun x => x.kind == 1 && x.id == hTag p.hdr with
    | none => s1
    | some tr => if hContrib p.hdr = tr.leaves.length then s1 else s1.faultSection t.sid endInternal

/-- A waiting operand set has an operand of every input of its entry (R84). -/
def Router.mergeReady (r : Router) (e : RedPend) : Bool :=
  match r.redEntry (e.key / 4096) (e.key % 4096) with
  | some (w1, _) => (maskPorts (bitsOf w1 4 0)).all fun k => e.ops.any fun o => o.1 == k
  | none => false
/-- One merge of an entry (R85): the operands of the set `e` combined in child order, the result sent on or delivered, and what waited for
the key meets the table again. `w1`: the entry's word 1. -/
def State.mergeSet (s : State) (op pos key w1 : Nat) (e : RedPend) (first : MeshPacket) (rest : List MeshPacket) : State :=
  let (s1, p) := s.mergeAll op first rest
  let r1 := s1.router pos
  let held := fun (w : Nat × MeshPacket) => decide (waitReduction ≤ w.1) && redKey (hRegion w.2.hdr) (hTag w.2.hdr) == key
  let s2 := s1.setRouter pos { r1 with
    pend := r1.pend.erase e
    waiting := r1.waiting.filter fun w => !held w }
  let s3 := if bitsOf w1 10 8 = 4 then s2.reductionResult pos p else s2.sendOut pos (bitsOf w1 10 8) p
  (r1.waiting.filter held).foldl (fun (a : State) w => a.reduceArrive pos (w.1 - waitReduction) w.2) s3
/-- Perform the oldest merge of an entry (R85) for operation `op`. -/
def State.mergeAt (s : State) (op pos region tag seq : Nat) : Host.Outcome State Fault Refusal :=
  let r := s.router pos
  let key := redKey region tag
  match r.redEntry region tag, r.pend.find? fun e => e.key == key with
  | some (w1, w2), some e =>
    let ports := childOrder w2
    let operands := ports.filterMap fun k => (e.ops.find? fun o => o.1 == k).map (·.2)
    match operands with
    | first :: rest =>
      if e.seq ≠ seq ∨ hOp first.hdr ≠ op ∨ !r.mergeReady e then
        s.passOver "the merge has not all its operands"
      else .next (s.mergeSet op pos key w1 e first rest)
    | [] => s.passOver "the merge has no operands"
  | _, _ => s.passOver "no such merge waits here"

/-- RED_MERGE_ADD_I32 (R92). -/
def execRedMergeAddI32 (pos region tag seq : Nat) (s : State) : Host.Outcome State Fault Refusal := s.onGrid <| s.mergeAt 1 pos region tag seq
/-- RED_MERGE_ADD_F32 (R92, R94). -/
def execRedMergeAddF32 (pos region tag seq : Nat) (s : State) : Host.Outcome State Fault Refusal := s.onGrid <| s.mergeAt 2 pos region tag seq
/-- RED_MERGE_MAX_F32 (R92, R94). -/
def execRedMergeMaxF32 (pos region tag seq : Nat) (s : State) : Host.Outcome State Fault Refusal := s.onGrid <| s.mergeAt 3 pos region tag seq
/-- RED_MERGE_LSE (R93, R94). -/
def execRedMergeLse (pos region tag seq : Nat) (s : State) : Host.Outcome State Fault Refusal := s.onGrid <| s.mergeAt 4 pos region tag seq

/-! ### Arbitration and link credits (R76, R97, R98, R243) -/

/-- Rank of a waiting packet in a free slot: VN3, VN2 and promoted VN0 first, then VN1, then VN0. -/
def Router.rank (r : Router) (p : MeshPacket) : Nat :=
  if hVn p.hdr = 2 ∨ hVn p.hdr = 3 ∨ r.promoted.contains p then 0 else if hVn p.hdr = 1 then 1 else 2

/-- The waiting packet a port grants: the best-ranked one that the port can take, the oldest of its rank. -/
def State.grant (s : State) (pos port : Nat) : Option (Nat × MeshPacket) :=
  let r := s.router pos
  let ready := r.waiting.filter fun w => w.1 == port && s.portReady pos port w.2
  [0, 1, 2].findSome? fun k => ready.find? fun w => r.rank w.2 == k

/-- Grant up to `n` waiting packets of a port. -/
def State.grantPort (s : State) (pos port : Nat) : Nat → State
  | 0 => s
  | n + 1 =>
    let r := s.router pos
    match s.grant pos port with
    | none => s
    | some w => ((s.setRouter pos { r with waiting := r.waiting.erase w, promoted := r.promoted.erase w.2 }).sendOut pos port w.2).grantPort pos port n
/-- A receive buffer of a position has room again: what waits for its Local port follows. -/
def State.freedLocal (s : State) (pos : Nat) : State := s.grantPort pos 4 (s.router pos).waiting.length
/-- Take a packet from a position's Local port. -/
def State.takeLocal (s : State) (pos : Nat) (p : MeshPacket) : State :=
  let r := s.router pos
  (s.setRouter pos { r with localQ := r.localQ.erase p }).freedLocal pos

/-- LINK_CREDIT_RETURN (R243): credits of `n` flits of a network return to a port; a return above the buffer depth is discarded, a UE, and a fault of the position. -/
def execLinkCreditReturn (pos port vn n : Nat) (s : State) : Host.Outcome State Fault Refusal := s.onGrid <|
  let r := s.router pos
  if r.used port vn < n then
    .next ((((s.event (pgCell pos) 12).pageError (pgCell pos) (port % 8 + (if vn = 4 then 2 else vn % 4) * 16) 0xF 0x18
      (BitVec.ofNat 32 n)).rasReport 2 0x07 (pgCell pos) [posPx pos, posPy pos, port, if vn = 4 then 2 else vn] 0).strike pos)
  else .next ((s.setRouter pos (r.setUsed port vn (r.used port vn - n))).grantPort pos port n)

/-- VN0_AGE_PROMOTE (R76): the oldest waiting VN0 flit that is not yet promoted joins the VN3 and VN2 round-robin. -/
def execVn0AgePromote (pos : Nat) (s : State) : Host.Outcome State Fault Refusal := s.onGrid <|
  let r := s.router pos
  match r.waiting.find? fun w => decide (w.1 < 4) && hVn w.2.hdr == 0 && !r.promoted.contains w.2 with
  | none => s.passOver "no VN0 flit waits here"
  | some w => .next (s.setRouter pos { r with promoted := r.promoted ++ [w.2] })

end Sys2Proof.Machine
end

