-- ==== Sys2Proof/Machine/Engine.lean ====
section
/-! DEFINITION. What the engines of a cell share: reading and writing operands through a context's addresses, waiting for and
releasing stream units (R245 to R247), credit returns (R241), operation queues (R213, R214). -/
namespace Sys2Proof

/-! Bits of FLAGS (Table 7.3). -/
def OpFields.sat (o : OpFields) : Bool := Machine.bitOf o.flags 0
def OpFields.accum (o : OpFields) : Bool := Machine.bitOf o.flags 1
def OpFields.clr (o : OpFields) : Bool := Machine.bitOf o.flags 2
def OpFields.first (o : OpFields) : Bool := Machine.bitOf o.flags 3
def OpFields.final (o : OpFields) : Bool := Machine.bitOf o.flags 4
def OpFields.bank (o : OpFields) : Bool := Machine.bitOf o.flags 5
/-- The mask mode of R181: disabled elements become zero. -/
def OpFields.zeroMode (o : OpFields) : Bool := Machine.bitOf o.mask 3

end Sys2Proof

namespace Sys2Proof.Machine

/-- Units of 64 bytes in a stream buffer. -/
def StreamEnd.slots (e : StreamEnd) : Nat := e.bufLen / 64

/-- Slots of a buffer that a range of context offsets touches, and those whose last byte it covers. -/
def StreamEnd.touched (e : StreamEnd) (off size : Nat) : List Nat :=
  (List.range e.slots).filter fun j => decide (e.bufOff + 64 * j < off + size) && decide (off < e.bufOff + 64 * j + 64)
def StreamEnd.finished (e : StreamEnd) (off size : Nat) : List Nat :=
  (List.range e.slots).filter fun j => decide (e.bufOff + 64 * j + 64 ≤ off + size) && decide (off < e.bufOff + 64 * j + 64)

/-- The unit that slot `j` of an inbound buffer now holds, if one has arrived and is not released. -/
def StreamEnd.unitIn (e : StreamEnd) (j : Nat) : Option Nat :=
  (List.range (e.wr - e.rd)).findSome? fun i => if e.slots ≠ 0 ∧ (e.rd + i) % e.slots = j then some (e.rd + i) else none

/-- A read of a range must wait: a touched slot of an inbound buffer holds no ready unit (R246). -/
def Ctx.readWaits (c : Ctx) (off size : Nat) : Bool :=
  c.streams.any fun e => e.dir == 0 && (e.touched off size).any fun j => (e.unitIn j).isNone
/-- A store into a range must wait: a touched slot of an outbound buffer is full and not yet sent (R247). -/
def Ctx.writeWaits (c : Ctx) (off size : Nat) : Bool :=
  c.streams.any fun e => e.dir == 1 && (e.touched off size).any fun j => mapGet 0 e.filled j == 2 ^ 64 - 1

/-- Release the units of an inbound end that are read whole and in order (R246). -/
def StreamEnd.release (e : StreamEnd) (now : Dword) : Nat → StreamEnd
  | 0 => e
  | n + 1 =>
    if e.readDone.contains e.rd then
      { e with
        rd := e.rd + 1
        readDone := e.readDone.filter (· != e.rd)
        credits := e.credits + 1
        firstFree := match e.firstFree with | some t => some t | none => some now }.release now n
    else e

/-- The packet that returns every release not yet returned (R241, Table 8.2). -/
def crdPacket (pos peerPos peerRegion peerStream lastSeq n : Nat) : MeshPacket :=
  .data (mkHeader peerPos pos 2 true 0 peerRegion peerStream (lastSeq % 65536 + 2 ^ 17 + n * 2 ^ 19) 0) [] []

/-- Reserved values of FLITS and OP (Table 3.3). -/
def hReserved (h : Nat) : Bool := hFlits h == 0 || decide (17 < hFlits h) || decide (4 < hOp h)
/-- A packet enters the mesh at a position's router, or from the link of an engine attached there (`port`). While a swap waits for the mesh to
empty, it is held at its source (R100). -/
def State.enter (s : State) (pos : Nat) (port : Option Nat) (p : MeshPacket) : State :=
  if s.sys.tickRest.isSome then { s with grid := { s.grid with heldInj := s.grid.heldInj ++ [(pos, port, p)] } }
  else match port with
    | some ip => { s with grid := { s.grid with flight := s.grid.flight ++ [(pos, ip, p)] } }
    | none => s.sendOut pos (routePort pos (hDstPy p.hdr * 68 + hDstPx p.hdr)) p
/-- Inject a packet at a position's router; one with a reserved value is not injected, and its run ends (Table 3.4). -/
def State.inject (s : State) (pos : Nat) (p : MeshPacket) : State :=
  if hReserved p.hdr then s.faultRegion (hRegion p.hdr) (endFormat 4) else s.enter pos none p
/-- The packets held at their sources enter the mesh. -/
def State.releaseHeldInj (s : State) : State :=
  s.grid.heldInj.foldl (fun (a : State) e => a.enter e.1 e.2.1 e.2.2) { s with grid := { s.grid with heldInj := [] } }

/-- Return the credits of stream record `i` of a context: a CRD packet on VN2 RSP to the bound peer. -/
def State.returnCredits (s : State) (pos n i : Nat) : State :=
  let c := s.ctx pos n
  match c.streams[i]? with
  | none => s
  | some e =>
    match e.peer with
    | none => s
    | some (pp, reg, sid) =>
      if e.credits = 0 then s
      else
        let s1 := s.setCtx pos n { c with streams := c.streams.set i { e with credits := 0, firstFree := none } }
        s1.inject pos (crdPacket pos pp reg sid (e.rd + 65535) e.credits)

/-- Return the credits of every inbound end with at least 4 releases outstanding (R241). -/
def State.returnDue (s : State) (pos n : Nat) : State :=
  (List.range (s.ctx pos n).streams.length).foldl (fun t i =>
    match (t.ctx pos n).streams[i]? with
    | some e => if e.dir = 0 ∧ 4 ≤ e.credits then t.returnCredits pos n i else t
    | none => t) s

/-- An accepted operation has read a range of its own cell: units read whole are released (R246). -/
def State.readDone (s : State) (pos n off size : Nat) : State :=
  let c := s.ctx pos n
  let upd := fun (e : StreamEnd) =>
    if e.dir = 0 then
      let us := (e.finished off size).filterMap e.unitIn
      { e with readDone := e.readDone ++ us.filter fun u => !e.readDone.contains u }.release s.tb e.slots
    else e
  if c.streams.isEmpty then s else (s.setCtx pos n { c with streams := c.streams.map upd }).returnDue pos n

/-- The mask of the bytes of slot `j` that a range covers. -/
def StreamEnd.cover (e : StreamEnd) (j off size : Nat) : Nat :=
  let a := e.bufOff + 64 * j
  let lo := max a off - a
  let hi := min (a + 64) (off + size) - a
  if lo < hi then (2 ^ (hi - lo) - 1) * 2 ^ lo else 0

/-- Units filled in sequence from the next one to send. -/
def StreamEnd.countFull (e : StreamEnd) (i : Nat) : Nat → Nat
  | 0 => 0
  | n + 1 => if e.slots ≠ 0 ∧ mapGet 0 e.filled (i % e.slots) = 2 ^ 64 - 1 then 1 + e.countFull (i + 1) n else 0

/-- A store into a range of the own cell: bytes of outbound units count as written (R247). -/
def State.wroteRange (s : State) (pos n off size : Nat) : State :=
  let c := s.ctx pos n
  let upd := fun (e : StreamEnd) =>
    if e.dir = 1 then
      let f := (e.touched off size).foldl (fun m j => mapSet 0 m j (mapGet 0 m j ||| e.cover j off size)) e.filled
      let e1 := { e with filled := f }
      { e1 with wr := e1.rd + e1.countFull e1.rd e1.slots }
    else e
  if c.streams.isEmpty then s else s.setCtx pos n { c with streams := c.streams.map upd }

/-- FIN (R247): a partly written outbound unit is completed with zeros, and LAST is due on the final unit. Where every unit has left the cell
before FIN, no unit is left to carry LAST (log entry 90). -/
def State.finishStreams (s : State) (pos n : Nat) : State :=
  let c := s.ctx pos n
  let upd := fun (e : StreamEnd) =>
    if e.dir = 1 then
      let f := e.filled.map fun p => (p.1, if p.2 = 0 then 0 else 2 ^ 64 - 1)
      let e1 := { e with filled := f }
      let w := e1.rd + e1.countFull e1.rd e1.slots
      { e1 with wr := w, lastDue := decide (e1.rd < w) }
    else e
  let zeros := c.streams.flatMap fun e =>
    if e.dir = 1 then e.filled.flatMap fun p => (List.range 64).filterMap fun b =>
      if p.2 ≠ 0 ∧ !bitOf p.2 b then some (c.base * 1024 + e.bufOff + 64 * p.1 + b) else none
    else []
  let s1 := s.onSlice pos fun m => zeros.foldl (fun a o => a.write o [0]) m
  if c.streams.isEmpty then s else s1.setCtx pos n { s1.ctx pos n with streams := c.streams.map upd }

/-- Operations of context `n` still in a cell's queues. -/
def Cell.opsOf (c : Cell) (n : Nat) : Bool := (c.mxq ++ c.vxq).any fun o => o.1 == n
/-- The context has set FIN and every operation it accepted has ended: its outbound units are settled. -/
def State.settleFin (s : State) (pos n : Nat) : State :=
  if (s.ctx pos n).fin && !(s.cell pos).opsOf n then s.finishStreams pos n else s

/-- What reading or writing an operand came to. -/
inductive Access (α : Type) where
  | got (s : State) (v : α)
  | waits
  | ended (s : State)

/-- Read an operand of an engine operation: `size` bytes at a scratchpad address of context `n`. A remote range is read at its
target; poisoned granules are numbered from the operand's first granule. -/
def State.engRead (s : State) (pos n addr size : Nat) : Access (List Byte × List Nat) :=
  let c := s.ctx pos n
  match c.range addr size with
  | .format => .ended (s.issuerFormat pos n)
  | .bound => .ended (s.issuerBound pos n addr size)
  | .slice off =>
    let o := bitsOf addr 18 0
    if c.readWaits o size then .waits
    else
      let (s1, bs, ps) := s.spRead pos off size
      .got (s1.readDone pos n o size) (bs, ps.map (· - off / 8))
  | .remote x y off =>
    let tp := s.physOf x y
    match s.ctxOfRegion tp c.region with
    | none => .ended ((s.boundFault tp 0 addr size true).faultRunAt pos n endBound)
    | some k =>
      let t := s.ctx tp k
      if t.bound * 1024 < off + size then .ended ((s.boundFault tp k addr size true).faultRunAt pos n endBound)
      else
        let o := t.base * 1024 + off
        let (s1, bs, ps) := s.spRead tp o size
        .got s1 (bs, ps.map (· - o / 8))

/-- Write a result of an engine operation; `poison` numbers granules from the first one written. -/
def State.engWrite (s : State) (pos n addr : Nat) (bs : List Byte) (poison : List Nat) : Access Unit :=
  let c := s.ctx pos n
  let size := bs.length
  match c.range addr size with
  | .format => .ended (s.issuerFormat pos n)
  | .bound => .ended (s.issuerBound pos n addr size)
  | .slice off =>
    let o := bitsOf addr 18 0
    if c.writeWaits o size then .waits
    else .got ((s.spWrite pos off bs (poison.map (· + off / 8))).wroteRange pos n o size) ()
  | .remote x y off =>
    let tp := s.physOf x y
    match s.ctxOfRegion tp c.region with
    | none => .ended ((s.boundFault tp 0 addr size true).faultRunAt pos n endBound)
    | some k =>
      let t := s.ctx tp k
      if t.bound * 1024 < off + size then .ended ((s.boundFault tp k addr size true).faultRunAt pos n endBound)
      else
        let o := t.base * 1024 + off
        .got (s.spWrite tp o bs (poison.map (· + o / 8))) ()

/-- Is byte `i` of an operand that starts at scratchpad address `addr` in a poisoned granule? -/
def bytePoison (addr : Nat) (ps : List Nat) (i : Nat) : Bool := ps.contains ((addr % 8 + i) / 8)
/-- Is any of the `k` bytes from `i` poisoned? -/
def anyPoison (addr : Nat) (ps : List Nat) (i k : Nat) : Bool := (List.range k).any fun j => bytePoison addr ps (i + j)
/-- Granules, from the first one written, that elements of `k` bytes with these poison bits make poisoned. -/
def poisonGranules (addr k : Nat) (flags : List Bool) : List Nat :=
  ((List.range flags.length).flatMap fun i =>
    if flags.getD i false then (List.range k).map fun j => (addr % 8 + i * k + j) / 8 else []).eraseDups

/-- The operation leaves its engine's queue. -/
def State.mxRetire (s : State) (pos n : Nat) (op : OpFields) : State :=
  let c := s.cell pos
  s.setCell pos { c with mxq := c.mxq.erase (n, op) }
def State.vxRetire (s : State) (pos n : Nat) (op : OpFields) : State :=
  let c := s.cell pos
  s.setCell pos { c with vxq := c.vxq.erase (n, op) }
/-- The operation has been accepted and waits in its engine's queue. -/
def State.mxWait (s : State) (pos n : Nat) (op : OpFields) : State :=
  let c := s.cell pos
  if c.mxq.contains (n, op) then s else s.setCell pos { c with mxq := c.mxq ++ [(n, op)] }
def State.vxWait (s : State) (pos n : Nat) (op : OpFields) : State :=
  let c := s.cell pos
  if c.vxq.contains (n, op) then s else s.setCell pos { c with vxq := c.vxq ++ [(n, op)] }

end Sys2Proof.Machine
end

