-- ==== Sys2Proof/Machine/Remote.lean ====
section
/-! DEFINITION. Scratchpad accesses of a context: at its own banks, and over the mesh to another cell of its region (R102 to R118). -/
namespace Sys2Proof.Machine

/-- The word 2 fields of a remote access are not laid out by the spec; they are 0. -/
def accessHeader (dst src : Nat) (rsp : Bool) (region payload : Nat) : Nat := mkHeader dst src 2 rsp 0 region 0 0 payload

/-- SP_ACCESS_GRANT (R112, R115, R116): the access of context `n` is performed at its bank, or goes to its target as a VN2 REQ packet, or is
not performed. -/
def execSpAccessGrant (pos n : Nat) (write : Bool) (addr size : Nat) (data : List Byte) (poison : List Nat) (hits : List Upset)
    (s : State) : Host.Outcome State Fault Refusal := s.onGrid <|
  let s0 := s.strikeSlice pos hits
  let c := s0.ctx pos n
  match c.access addr size with
  | .format => .next (s0.issuerFormat pos n)
  | .bound => .next (s0.issuerBound pos n addr size)
  | .remote x y off =>
    let dst := s0.physOf x y
    let bs := if write then takePad 0 size data else []
    .next (s0.inject pos ⟨accessHeader dst pos false c.region bs.length, bs, if write then poison else [], [],
      .access ⟨pos, n, dst, c.region, write, false, false, addr, off, size⟩⟩)
  | .slice off =>
    if write then .next (s0.spWrite pos off (takePad 0 size data) (poison.map (· + off / 8)))
    else
      let (s1, bs, ps) := s0.spRead pos off size
      .next (s1.setCell pos { s1.cell pos with rdata := bs, rpoison := ps.map (· - off / 8) })

end Sys2Proof.Machine

namespace Sys2Proof
open Machine

/-- The remote access a packet carries: a request or a response. -/
def MeshPacket.access (p : MeshPacket) (response : Bool) : Option Remote :=
  match p.body with
  | .access r => if r.response = response then some r else none
  | _ => none

end Sys2Proof

namespace Sys2Proof.Machine

/-- The oldest remote access, or response, that has reached the Local port of a position. -/
def State.localAccess (s : State) (pos : Nat) (response : Bool) : Option (MeshPacket × Remote) :=
  (s.router pos).localQ.findSome? fun p => (p.access response).map fun r => (p, r)

/-- A response on VN2 RSP. -/
def State.respond (s : State) (r : Remote) (bs : List Byte) (ps : List Nat) (err : Bool) : State :=
  s.inject r.dst ⟨accessHeader r.src r.dst true r.region bs.length, bs, ps, [], .access { r with
    response := true
    err := err }⟩
/-- A remote access at its target (R108, R109): checked against and relocated by the matching context; a read's data, or an error, go back.
Where no context matches, ERR_LOG0 captures context 0, the model's choice (log entry 86). -/
def State.performRemote (s : State) (r : Remote) (data : List Byte) (poison : List Nat) : State :=
  match s.ctxOfRegion r.dst r.region with
  | none => (s.boundFault r.dst 0 r.addr r.size true).respond r [] [] true
  | some n =>
    let c := s.ctx r.dst n
    if c.bound * 1024 < r.off + r.size then (s.boundFault r.dst n r.addr r.size true).respond r [] [] true
    else
      let o := c.base * 1024 + r.off
      if r.write then s.spWrite r.dst o data (poison.map (· + o / 8))
      else
        let (s1, bs, ps) := s.spRead r.dst o r.size
        s1.respond r bs (ps.map (· - o / 8)) false

/-- The command reports this request: its issuer, REGION, direction, OFFSET, size, and the data and poison of a write. -/
def requestMatches (r : Remote) (p : MeshPacket) (src region : Nat) (write : Bool) (off size : Nat) (data : List Byte) (poison : List Nat) : Bool :=
  r.src == src && r.region == region && r.write == write && r.off == off && r.size == size && p.payload == data && p.poison == poison
/-- REMOTE_ACCESS_ARRIVE (R108, R109, R115, R116, R118): the oldest remote access at the Local port of a position, which the operands
describe, is performed. -/
def execRemoteAccessArrive (pos src region : Nat) (write : Bool) (off size : Nat) (data : List Byte) (poison : List Nat) (hits : List Upset)
    (s : State) : Host.Outcome State Fault Refusal := s.onGrid <|
  match s.localAccess pos false with
  | none => s.passOver "no remote access has reached the Local port"
  | some (p, r) =>
    if !requestMatches r p src region write off size data poison then s.passOver "another access is the oldest"
    else .next ((((s.takeLocal pos p).strikeSlice pos hits).correctAt pos p fun g => r.off + 8 * g).performRemote r p.payload p.poison)

/-- The command reports this response: the issuing context, its data and poison, the error flag. -/
def responseMatches (r : Remote) (p : MeshPacket) (n : Nat) (data : List Byte) (poison : List Nat) (err : Bool) : Bool :=
  r.srcCtx == n && p.payload == data && p.poison == poison && r.err == err
/-- REMOTE_READ_RESPONSE (R109, R116): the oldest response at the Local port of its issuer, which the operands describe: data, or the error
flag, which ends the run with FAULT_BOUND. -/
def execRemoteReadResponse (pos n : Nat) (data : List Byte) (poison : List Nat) (err : Bool) (s : State) : Host.Outcome State Fault Refusal :=
  s.onGrid <|
  match s.localAccess pos true with
  | none => s.passOver "no response has reached the Local port"
  | some (p, r) =>
    let s1 := s.takeLocal pos p
    if !responseMatches r p n data poison err then s.passOver "another response is the oldest"
    else if r.err then .next (s1.faultRunAt pos r.srcCtx endBound)
    else
      let s2 := s1.correctAt pos p fun g => r.off + 8 * g
      .next (s2.setCell pos { s2.cell pos with
        rdata := p.payload
        rpoison := p.poison })

end Sys2Proof.Machine
end

