-- ==== Sys2Proof/Machine/Sequencer.lean ====
section
/-! DEFINITION. The sequencer of a cell (R206 to R215): guards, firing, counters, tokens. -/
namespace Sys2Proof.Machine

def Ctx.queue (c : Ctx) (k : Nat) : List Token := mapGet [] c.ti k
def Ctx.setQueue (c : Ctx) (k : Nat) (q : List Token) : Ctx := { c with ti := mapSet [] c.ti k q }

/-- The engine of an opcode: 0 none, 1 matrix, 2 vector. -/
def opEngine (opcode : Nat) : Nat := if opcode = 0 then 0 else if opcode ≤ 4 then 1 else 2

/-- Where token output `k` of a context leads: position, context, TI; none for an unbound one (R206, R208). -/
def State.tokenTarget (s : State) (pos n k : Nat) : Option (Nat × Nat × Nat) :=
  let c := s.ctx pos n
  match c.toMap[k]? with
  | none => none
  | some t =>
    if t.kind = 1 then some (s.physOf (c.orgX + t.dx) (c.orgY + t.dy), n, t.ti)
    else if t.kind = 2 then
      match s.sectAt pos n with
      | none => none
      | some sc =>
        match mapGet none sc.xo t.dx with
        | none => none
        | some (region, dx, dy, ti) =>
          match s.sectByRegion region with
          | none => none
          | some d => some (s.physOf (d.orgX + dx) (d.orgY + dy), d.ctx, ti)
    else none

end Sys2Proof.Machine

namespace Sys2Proof
open Machine

/-- The packet is a token for TI `ti` of context `m` of position `p`. -/
def MeshPacket.isToken (q : MeshPacket) (p m ti : Nat) : Bool :=
  q.body == .token m ti && hDstPy q.hdr * 68 + hDstPx q.hdr == p

end Sys2Proof

namespace Sys2Proof.Machine

/-- Tokens on their way to TI `ti` of context `m` of position `p`: of its own cell, and in packets. -/
def State.tokensTo (s : State) (p m ti : Nat) : Nat :=
  (s.grid.tokens.filter fun t => t.1 == p && t.2.1 == m && t.2.2.1 == ti).length
    + (s.grid.flight.filter fun e => e.2.2.isToken p m ti).length
    + (s.grid.heldInj.filter fun e => e.2.2.isToken p m ti).length
    + s.grid.routers.foldl (fun a e => a + (e.2.waiting.filter fun w => w.2.isToken p m ti).length
        + (e.2.localQ.filter fun q => q.isToken p m ti).length) 0
/-- The emit port holds a credit: the target queue has a place that no token on its way will take (R206). -/
def State.emitCredit (s : State) (pos n k : Nat) : Bool :=
  match s.tokenTarget pos n k with
  | none => true
  | some (p, m, ti) => decide (((s.ctx p m).queue ti).length + s.tokensTo p m ti < 4)

/-- The guard condition on a counter (R210). -/
def Counter.cond (k : Counter) (cc : Nat) : Bool :=
  if cc = 1 then k.v == k.init else if cc = 2 then decide (k.limit ≤ k.v + k.step) else if cc = 3 then decide (k.v + k.step < k.limit) else true

/-- An entry is eligible (R212). -/
def State.eligible (s : State) (pos n : Nat) (t : Trigger) : Bool :=
  let cl := s.cell pos
  let c := cl.ctx n
  ((List.range 8).all fun k => !bitOf t.tiMask k || !(c.queue k).isEmpty)
    && (!t.tvEn || (match c.queue t.tvSel with | tok :: _ => tok.v % 256 == t.tvVal | [] => false))
    && (c.cnt.getD t.cntSel Counter.zero).cond t.cntCond
    && (!t.emitEn || s.emitCredit pos n t.emitPort)
    && (opEngine t.op.opcode == 0 || !(if opEngine t.op.opcode = 1 then cl.mxq else cl.vxq).any fun o => o.1 == n)
    && !c.fin

/-- A step of a counter (R209). -/
def Counter.stepped (k : Counter) : Counter := { k with v := if k.limit ≤ k.v + k.step then k.init else k.v + k.step }
/-- LDLIM (R211): LIMIT becomes INIT + T·STEP, clamped; answers whether it was clamped. -/
def Counter.loadLimit (k : Counter) (t : Nat) : Counter × Bool :=
  let l := k.init + t * k.step
  if l < 2 ^ 32 then ({ k with limit := l }, false) else ({ k with limit := 2 ^ 32 - 1 }, true)

/-- The operation an engine receives: its effective address (R215), and for VX.RED the BASE its counter supplies (R187). DESIGN CHOICE
(assumption 91): with the AG field's enable bit 0, no counter is named and BASE is 0. -/
def Ctx.effective (c : Ctx) (o : OpFields) : OpFields :=
  let v := (c.cnt.getD (bitsOf o.ag 3 0) Counter.zero).v
  if o.opcode = 0x33 then { o with addr2 := if bitOf o.ag 4 then v % 2 ^ 32 else 0 }
  else if o.opcode = 0x37 then o
  else if bitOf o.ag 4 then
    let sum := bitsOf o.addr 18 0 + v * bitsOf o.ag 15 5 * 16
    { o with addr := if sum ≤ 0x7FFFF then o.addr / 2 ^ 19 * 2 ^ 19 + sum else 2 ^ 32 }
  else o

/-- Token value to emit (Table 7.3, EMIT_SRC). -/
def emitValue (t : Trigger) (tok : Nat) (k : Counter) : Nat :=
  if t.emitSrc = 1 then tok else if t.emitSrc = 2 then k.v % 65536 else t.emitVal

/-- A token in a packet: a 2-byte payload on VN3 (R207). -/
def tokenPacket (dst src region m ti : Nat) (tok : Token) : MeshPacket :=
  ⟨mkHeader dst src 3 false 0 region 0 0 2, leBytes 2 tok.v, if tok.poison then [0] else [], [], .token m ti⟩
/-- Emit a token (R207, R208): into a queue of the emitting cell, or in a packet to another cell. To an unbound external output it is discarded
and counted; so is one to an output of KIND 0, the model's choice (log entry 89). -/
def State.emitToken (s : State) (pos n k v : Nat) (poison : Bool) : State :=
  match s.tokenTarget pos n k with
  | none => s.bump (pgCell pos) R.cell_XDROP 5 1
  | some (p, m, ti) =>
    let tok : Token := ⟨v % 65536, poison⟩
    if p = pos then { s with grid := { s.grid with tokens := s.grid.tokens ++ [(p, m, ti, tok)] } }
    else s.inject pos (tokenPacket p pos (s.ctx p m).region m ti tok)

/-- Fire an entry (R213): consume, LDLIM, step, emit, FIN; the operation goes to its engine. -/
def State.fire (s : State) (pos n : Nat) (t : Trigger) : State :=
  let c := s.ctx pos n
  let tok := ((c.queue t.tvSel).head?).getD ⟨0, false⟩
  let eaten := (List.range 8).filter fun k => bitOf t.consume k
  let poisoned := eaten.any fun k => ((c.queue k).head?.getD ⟨0, false⟩).poison
  let c1 := eaten.foldl (fun x k => x.setQueue k ((x.queue k).drop 1)) c
  let k0 := c1.cnt.getD t.stepSel Counter.zero
  let (k1, clamped) := if t.ldlim then k0.loadLimit tok.v else (k0, false)
  let k2 := if t.stepEn then k1.stepped else k1
  let op := c.effective t.op
  let c2 := { c1 with cnt := c1.cnt.set t.stepSel k2, limClamp := c1.limClamp || clamped, fin := c1.fin || t.fin, idle := 0 }
  let s1 := s.setCtx pos n c2
  let s2 := if t.emitEn then s1.emitToken pos n t.emitPort (emitValue t tok.v k2) (t.emitSrc == 1 && tok.poison) else s1
  let s4 := if poisoned then s2.poisonRunAt pos n else s2
  let s5 := match opEngine op.opcode with | 0 => s4 | 1 => s4.mxWait pos n op | _ => s4.vxWait pos n op
  match s5.sectAt pos n with
  | none => s5
  | some sc => s5.onRuns sc.sid fun r => { r with fired := true }

/-- The run of the active context of a cell may fire entries. -/
def State.mayFire (s : State) (pos n : Nat) : Bool :=
  (s.ctx pos n).state == .active && (match s.sectAt pos n with
    | none => false
    | some sc => s.work.runs.any fun r => r.sid == sc.sid && r.phase == .active)

/-- The entry a cell fires: the lowest-numbered eligible one of its active context. -/
def State.nextEntry (s : State) (pos : Nat) : Option Trigger :=
  let n := (s.cell pos).active
  if s.mayFire pos n then (s.ctx pos n).trig.find? fun t => s.eligible pos n t else none

/-- TRIGGER_FIRE (R213). -/
def execTriggerFire (pos : Nat) (s : State) : Host.Outcome State Fault Refusal := s.onGrid <|
  match s.nextEntry pos with
  | none => s.passOver "no entry of this cell is eligible"
  | some t => .next (s.fire pos (s.cell pos).active t)

/-- NOP (R214): the entry that fires has opcode 0x00; only its actions are performed. -/
def execNop (pos : Nat) (s : State) : Host.Outcome State Fault Refusal := s.onGrid <|
  match s.nextEntry pos with
  | none => s.passOver "no entry of this cell is eligible"
  | some t => if t.op.opcode = 0 then .next (s.fire pos (s.cell pos).active t) else s.passOver "the entry that fires has another opcode"

/-- ERR_LOG1 of a stream protocol error (Table 21.3). -/
def protoLog (region seq : Nat) : Word := BitVec.ofNat 32 (region % 256 + seq % 65536 * 65536)

/-- A stream protocol error at a position (R242): CREDIT_PROTO, capture, a UE. -/
def State.protoError (s : State) (pos region stream seq : Nat) : State :=
  ((s.event (pgCell pos) 11).pageError (pgCell pos) stream 0xF 0x17 (protoLog region seq)).rasReport 2 0x0A (pgCell pos)
    [posPx pos, posPy pos, region, stream] (match s.sectByRegion region with | some t => t.sid % 2 ^ 32 | none => 0)

/-- Take the oldest token on its way to TI `ti` of context `n`: of its own cell, or in a packet at the Local port. -/
def State.takeToken (s : State) (pos n ti : Nat) : Option (State × Token) :=
  match s.grid.tokens.find? fun t => t.1 == pos && t.2.1 == n && t.2.2.1 == ti with
  | some t => some ({ s with grid := { s.grid with tokens := s.grid.tokens.erase t } }, t.2.2.2)
  | none =>
    match (s.router pos).localQ.find? fun q => q.isToken pos n ti with
    | some q => some ((s.takeLocal pos q).correctAt pos q fun g => 8 * g, ⟨leNat (q.payload.take 2), !q.poison.isEmpty⟩)
    | none => none
/-- A token reaches TI `ti` of context `n`: one beyond the four places is a protocol error (R97); a context that is EMPTY, or held in REGION
reset, keeps no token (R205, R223), which is counted as one discarded (log entry 89). -/
def State.receiveToken (s : State) (pos n ti : Nat) (tok : Token) : State :=
  let c := s.ctx pos n
  if c.state = .empty ∨ c.state = .loading ∨ c.state = .held then s.bump (pgCell pos) R.cell_XDROP 5 1
  else if 4 ≤ (c.queue ti).length then (s.protoError pos c.region ti 0).faultRunAt pos n endInternal
  else s.setCtx pos n (c.setQueue ti (c.queue ti ++ [tok]))
/-- TOKEN_ARRIVE (R206, R207): the oldest token on its way to TI `ti` of context `n`, of value `v`, enters it. -/
def execTokenArrive (pos n ti v : Nat) (poison : Bool) (s : State) : Host.Outcome State Fault Refusal := s.onGrid <|
  match s.takeToken pos n ti with
  | some (t, tok) => if tok = ⟨v, poison⟩ then .next (t.receiveToken pos n ti tok) else s.passOver "another token is the oldest"
  | none => s.passOver "no token is on its way to this queue"

end Sys2Proof.Machine
end

