-- ==== Sys2Proof/Machine/Matrix.lean ====
section
/-! DEFINITION. The matrix engine (R136 to R162): formats, weight tiles, rows, accumulators, checksum column, read-out. -/
namespace Sys2Proof.Machine

/-- Fields of MXCFG (Table 5.3). -/
def Ctx.fmt (c : Ctx) : Nat := bitsOf c.mxcfg 1 0
def Ctx.wrapMode (c : Ctx) : Bool := bitOf c.mxcfg 2
def Ctx.outFmt (c : Ctx) : Nat := bitsOf c.mxcfg 4 3
def Ctx.couple (c : Ctx) : Bool := bitOf c.mxcfg 5
/-- INT4 and KB4 hold two elements a byte (R137); KB8 and KB4 carry exponents (R139). -/
def fmtNarrow (f : Nat) : Bool := f % 2 == 1
def fmtKb (f : Nat) : Bool := decide (2 ≤ f % 4)
/-- Payload bytes of a 32-element block (Table 5.1). -/
def blockBytes (f : Nat) : Nat := if fmtNarrow f then 16 else 32
/-- Bytes of a group of `n` blocks (R140). -/
def groupBytes (f n : Nat) : Nat := blockBytes f * n + (if fmtKb f then n else 0)

/-- Byte of a group that holds element `k` of block `b`, and the element's value. -/
def elemByte (f b k : Nat) : Nat := b * blockBytes f + (if fmtNarrow f then k / 2 else k)
def elemOf (f : Nat) (bs : List Byte) (b k : Nat) : Int :=
  let x := (bs.getD (elemByte f b k) 0).toNat
  if fmtNarrow f then signed 4 (if k % 2 = 0 then x % 16 else x / 16) else signed 8 x

/-- The weight tile a group of 32 blocks spells, with its checksum weights (R141, R159). -/
def weightTile (f addr : Nat) (bs : List Byte) (ps : List Nat) : WTile :=
  let e := (List.range 32).flatMap fun k => (List.range 32).map fun n => (32 * k + n, elemOf f bs n k)
  { elems := e.filter fun p => p.2 != 0
    exps := if fmtKb f then ((List.range 32).map fun n => (n, (bs.getD (32 * blockBytes f + n) 0).toNat)).filter fun p => p.2 != 0 else []
    sums := ((List.range 32).map fun k => (k, (List.range 32).foldl (fun a n => a + elemOf f bs n k) 0)).filter fun p => p.2 != 0
    badCols := if fmtKb f then (List.range 32).filter fun n => bytePoison addr ps (32 * blockBytes f + n) else []
    badElems := (List.range 32).flatMap fun k => (List.range 32).filterMap fun n =>
      if bytePoison addr ps (elemByte f n k) then some (32 * k + n) else none }

def WTile.at_ (w : WTile) (k n : Nat) : Int := mapGet 0 w.elems (32 * k + n)
def WTile.colBad (w : WTile) (n : Nat) : Bool := w.badCols.contains n || (List.range 32).any fun k => w.badElems.contains (32 * k + n)
def WTile.anyBad (w : WTile) : Bool := !(w.badCols.isEmpty && w.badElems.isEmpty)

def State.setMatrix (s : State) (pos : Nat) (m : Matrix) : State := s.setCell pos { s.cell pos with mx := m }
/-- OR bits into the context's MX_FLAGS: 0 AOVF, 1 ROVF, 2 INV, 3 CHK. -/
def State.mxFlag (s : State) (pos n fl : Nat) : State :=
  let c := s.ctx pos n
  s.setCtx pos n { c with mxFlags := c.mxFlags ||| fl }
/-- OR bits into the context's VX_FLAGS (R179). -/
def State.vxFlag (s : State) (pos n fl : Nat) : State :=
  let c := s.ctx pos n
  s.setCtx pos n { c with vxFlags := c.vxFlags ||| fl }

/-- MX_LOADW (R146, R148, R159): the shadow takes a tile and its exponents, and the checksum weights are computed. -/
def execMxLoadw (pos n : Nat) (op : OpFields) (u : EngineUpset) (s : State) : Host.Outcome State Fault Refusal := s.onGrid <|
  let s0 := s.strikeSlice pos u.hits
  let m := (s0.cell pos).mx
  let f := (s0.ctx pos n).fmt
  if m.shadowValid then .next (s0.mxWait pos n op)
  else if op.addr % 64 ≠ 0 then .next ((s0.issuerFormat pos n).mxRetire pos n op)
  else
    match s0.engRead pos n op.addr (groupBytes f 32) with
    | .waits => .next (s0.mxWait pos n op)
    | .ended t => .next (t.mxRetire pos n op)
    | .got t (bs, ps) =>
      let t1 := t.setMatrix pos { (t.cell pos).mx with shadow := weightTile f op.addr bs ps, shadowComplete := true, shadowValid := true }
      .next ((if ps.isEmpty then t1 else t1.poisonRunAt pos n).mxRetire pos n op)

/-- MX_SWAP (R148): waits for the shadow load; then shadow and active are exchanged. -/
def execMxSwap (pos n : Nat) (op : OpFields) (u : EngineUpset) (s : State) : Host.Outcome State Fault Refusal := s.onGrid <|
  let s0 := s.strikeSlice pos u.hits
  let m := (s0.cell pos).mx
  if m.shadowComplete then
    .next ((s0.setMatrix pos { m with act := m.shadow, shadow := m.act, shadowComplete := false, shadowValid := false }).mxRetire pos n op)
  else .next (s0.mxWait pos n op)

def Matrix.bank (m : Matrix) (b : Bool) : Bank := if b then m.a1 else m.a0
def Matrix.setBank (m : Matrix) (b : Bool) (k : Bank) : Matrix := if b then { m with a1 := k } else { m with a0 := k }
def Bank.at_ (k : Bank) (i : Nat) : Slot := mapGet Slot.zero k.elems i

/-- A sum in a bank (R150): the value kept and whether the exact sum was out of range. -/
def bankSum (wrap : Bool) (x : Int) : Word × Bool :=
  let out := decide (x < -2147483648) || decide (2147483647 < x)
  (BitVec.ofNat 32 (if out && !wrap then (if x < 0 then 0x80000000 else 0x7FFFFFFF) else wrapInt 32 x), out)

/-- The effect of a row on a bank. -/
structure RowResult where
  bank : Bank
  aovf : Bool
  mismatch : Bool
  poison : Bool
deriving DecidableEq, Repr

/-- One activation row `i` (R150, R156, R159 to R162): column increments, checksum comparison, bank update. -/
def macRow (f : Nat) (clr wrap : Bool) (w : WTile) (addr : Nat) (bs : List Byte) (ps : List Nat) (rows i : Nat)
    (wrong : List (Nat × Nat × Int)) (k : Bank) : RowResult :=
  let a := (List.range 32).map fun j => elemOf f bs i j
  let eOff := rows * blockBytes f + i
  let rowBad := anyPoison addr ps (i * blockBytes f) (blockBytes f) || (fmtKb f && bytePoison addr ps eOff)
  let inc := fun n => (List.range 32).foldl (fun (x : Int) j => x + a.getD j 0 * w.at_ j n) 0
    + (wrong.foldl (fun (x : Int) e => if e.1 = i ∧ e.2.1 = n then x + e.2.2 else x) 0)
  let incs := (List.range 32).map inc
  let check : Int := (List.range 32).foldl (fun x j => x + a.getD j 0 * mapGet 0 w.sums j) 0
  let mismatch := !rowBad && !w.anyBad && check != incs.foldl (· + ·) 0
  let upd := (List.range 32).map fun n =>
    let old := k.at_ (32 * i + n)
    let x := (if clr then 0 else signed 32 old.v.toNat) + incs.getD n 0
    let (v, o) := bankSum wrap x
    (32 * i + n, (⟨v, rowBad || w.colBad n || (!clr && old.poison), !clr && old.bad⟩ : Slot), o)
  { bank := { k with
      elems := upd.foldl (fun m e => mapSet Slot.zero m e.1 e.2.1) k.elems
      rowExp := if fmtKb f then mapSet 0 k.rowExp i (bs.getD eOff 0).toNat else k.rowExp
      wExp := if fmtKb f then w.exps else k.wExp
      aovf := (!clr && k.aovf) || upd.any fun e => e.2.2 }
    aovf := upd.any fun e => e.2.2
    mismatch := mismatch
    poison := rowBad || w.anyBad }

/-- The rows an MX.MAC accepts in each fc: two in INT4 and KB4, else one (Table 5.5). -/
def macFcs (f rows : Nat) : List (List Nat) :=
  if fmtNarrow f then (List.range ((rows + 1) / 2)).map fun g => (List.range 2).map (· + 2 * g) |>.filter (· < rows)
  else (List.range rows).map fun i => [i]
/-- The effect of the rows accepted so far: the bank, AOVF, poison taken, the rows that mismatched. -/
structure RowsResult where
  bank : Bank
  aovf : Bool
  poison : Bool
  bad : List Nat
deriving DecidableEq, Repr
/-- Rows in turn; after the fc of a mismatch no further row is accepted (R160, R161). -/
def macRows (f : Nat) (clr wrap : Bool) (w : WTile) (addr : Nat) (bs : List Byte) (ps : List Nat) (rows : Nat)
    (wrong : List (Nat × Nat × Int)) : List (List Nat) → RowsResult → RowsResult
  | [], x => x
  | is :: rest, x =>
    let y := is.foldl (fun (a : RowsResult) i =>
      let r := macRow f clr wrap w addr bs ps rows i wrong a.bank
      ⟨r.bank, a.aovf || r.aovf, a.poison || r.poison, if r.mismatch then a.bad ++ [i] else a.bad⟩) x
    if y.bad.isEmpty then macRows f clr wrap w addr bs ps rows wrong rest y else y

/-- MAC_CHECK at a position (R161): event, CHK, count, UE, capture; the run is cut and the position is faulty. -/
def State.macCheck (s : State) (pos n : Nat) (bank : Bool) (row : Nat) : State :=
  let fc := match s.sectAt pos n with
    | none => 0
    | some sc => ((s.work.runs.find? fun r => r.sid == sc.sid && r.going).map s.runUsed).getD 0
  (((((((s.event (pgCell pos) 8).mxFlag pos n 8).bump (pgCell pos) R.cell_MX_CHECK 4 1).rasReport 2 0x05 (pgCell pos)
    [posPx pos, posPy pos, n] (s.detailAt pos n)).pageError (pgCell pos) (n % 4 + b2n bank * 4 + row * 16) 0xF 0x15
    (BitVec.ofNat 32 fc)).faultRunAt pos n endInternal).makeFaulty pos)

/-- The run of a context is draining. -/
def State.runDrains (s : State) (pos n : Nat) : Bool :=
  match s.sectAt pos n with
  | none => false
  | some sc => s.work.runs.any fun r => r.sid == sc.sid && r.phase == .draining
/-- An emission from a bank stalls on a full curd queue: the bank stays taken (R191). -/
def State.readStalls (s : State) (pos n : Nat) (b : Bool) : Bool :=
  (s.cell pos).mxq.any fun o => o.1 == n && o.2.opcode == 4 && o.2.bank == b
/-- The rows of an MX_MAC whose operand bytes `bs` have been read: products are added to the bank, flags raised, poison consumed, and the rows
that fail the checksum reported (R149, R150, R156, R160, R161). -/
def State.macRun (t : State) (pos n : Nat) (op : OpFields) (wrong : List (Nat × Nat × Int)) (bs : List Byte) (ps : List Nat) : State :=
  let c := t.ctx pos n
  let f := c.fmt
  let m := (t.cell pos).mx
  let r := macRows f (op.clr || fmtKb f) c.wrapMode m.act op.addr bs ps op.n wrong (macFcs f op.n) ⟨m.bank op.bank, false, false, []⟩
  let t1 := t.setMatrix pos (m.setBank op.bank r.bank)
  let t2 := if r.aovf then t1.mxFlag pos n 1 else t1
  let t3 := if r.poison then t2.poisonRunAt pos n else t2
  r.bad.foldl (fun (a : State) i => a.macCheck pos n op.bank i) t3
/-- An MX_MAC waits: the bank is taken under COUPLE = 1 (R193), a stalled emission holds it (R148, R191), or the run drains (Table 5.6). -/
def State.macWaits (s : State) (pos n : Nat) (b : Bool) : Bool :=
  ((s.ctx pos n).couple && ((s.cell pos).mx.bank b).taken) || s.readStalls pos n b || s.runDrains pos n
/-- MX_MAC (R146 to R150, R156, R159 to R162): with COUPLE = 1 it waits until the bank is released (R193), and in any case until a
stalled emission from it has gone on (R148, R191); in a drain it accepts no new row, and
waits for the continuation (Table 5.6). -/
def execMxMac (pos n : Nat) (op : OpFields) (u : EngineUpset) (s : State) : Host.Outcome State Fault Refusal := s.onGrid <|
  let s0 := s.strikeSlice pos u.hits
  let f := (s0.ctx pos n).fmt
  if s0.macWaits pos n op.bank then .next (s0.mxWait pos n op)
  else if op.addr % blockBytes f ≠ 0 ∨ op.n = 0 ∨ 32 < op.n then .next ((s0.issuerFormat pos n).mxRetire pos n op)
  else
    match s0.engRead pos n op.addr (groupBytes f op.n) with
    | .waits => .next (s0.mxWait pos n op)
    | .ended t => .next (t.mxRetire pos n op)
    | .got t (bs, ps) => .next ((t.macRun pos n op u.wrong bs ps).mxRetire pos n op)

/-- A parity error in a bank element (R156): ACC_UE, a UE, and the position is faulty (R446). -/
def State.accUe (s : State) (pos n : Nat) : State :=
  ((s.event (pgCell pos) 9).rasReport 2 0x03 (pgCell pos) [posPx pos, posPy pos, n] (s.detailAt pos n)).makeFaulty pos

/-- Read the elements of a bank: parity errors, latent or just struck, poison their elements. -/
def State.bankRead (s : State) (pos n : Nat) (b : Bool) (bad : List Nat) (idx : List Nat) : State :=
  let m := (s.cell pos).mx
  let k := m.bank b
  let hit := idx.filter fun i => (k.at_ i).bad || bad.contains (b2n b * 1024 + i)
  if hit.isEmpty then s
  else
    let k1 := { k with elems := hit.foldl (fun e i => mapSet Slot.zero e i { (k.at_ i) with poison := true, bad := false }) k.elems }
    hit.foldl (fun t _ => t.accUe pos n) (s.setMatrix pos (m.setBank b k1))

/-- Convert a KB partial of row `i` and column `j` (R152, R153, R155): binary32 bits and MX flags. -/
def kbPartial (k : Bank) (i j : Nat) : Nat × Nat :=
  let ea := mapGet 0 k.rowExp i
  let eb := mapGet 0 k.wExp j
  if ea = 255 ∨ eb = 255 then (fp32.qnan, 4)
  else
    let p := signed 32 (k.at_ (32 * i + j)).v.toNat
    let r := fp32.roundInt p ((ea : Int) + (eb : Int) - 254) false
    (r.bits, if bitOf r.flags 2 then 2 else 0)

/-- Add a partial into the sum buffer (R154, R155). -/
def sumAdd (old new : Nat) : Nat × Nat :=
  let r := fp32.add old new
  (r.bits, (if bitOf r.flags 2 then 2 else 0) ||| (if bitOf r.flags 0 then 4 else 0))

/-- Emit a binary32 element in the OUT format (R154, R155). -/
def emitF32 (out x : Nat) : Nat × Nat :=
  if out = 2 then let r := fpConvert fp32 fp16 x; (r.bits, if bitOf r.flags 2 then 2 else 0) else (x, 0)
/-- Emit an INT32 element in the OUT format (R151, R155). -/
def emitI32 (out x : Nat) : Nat × Nat :=
  if out = 1 then let r := fp32.roundInt (signed 32 x) 0 false; (r.bits, if bitOf r.flags 2 then 2 else 0)
  else if out = 2 then let r := fp16.roundInt (signed 32 x) 0 false; (r.bits, if bitOf r.flags 2 then 2 else 0)
  else (x, 0)

/-- Element of a sub-tile of the 32 × 32 output (R190): row and column of element `e` of sub-tile `t`. -/
def subTileIndex (t e : Nat) : Nat := 32 * (16 * (t / 2) + e / 16) + 16 * (t % 2) + e % 16

/-- The read-out stage on a bank: the parity of its elements is checked, and each element of the output is the integer, or in a KB format
the partial, alone or added to the sum buffer, with its flags. -/
def State.readSteps (s1 : State) (pos n : Nat) (op : OpFields) : List (Slot × Nat) :=
  let m := (s1.cell pos).mx
  let k := m.bank op.bank
  (List.range 1024).map fun i =>
    let e := k.at_ i
    let old := mapGet Slot.zero m.sum i
    if fmtKb (s1.ctx pos n).fmt then
      let (p, f1) := kbPartial k (i / 32) (i % 32)
      let (v, f2) := if op.first then (p, 0) else sumAdd old.v.toNat p
      ((⟨BitVec.ofNat 32 v, e.poison || (!op.first && old.poison), false⟩ : Slot), f1 ||| f2)
    else (e, 0)
/-- The flags of all elements, ORed. -/
def flagsOf (l : List (Slot × Nat)) : Nat := l.foldl (fun a x => a ||| x.2) 0
/-- The sticky flags of the sum buffer after a read of a KB bank (R154, R155). -/
def State.sumFlags (s1 : State) (pos : Nat) (op : OpFields) (step : List (Slot × Nat)) : Nat :=
  if op.first then flagsOf step else (s1.cell pos).mx.sumFl ||| flagsOf step
/-- What the read-out leaves in the cell: the sum buffer of a KB format, and the MX flags. -/
def State.readKept (s1 : State) (pos n : Nat) (op : OpFields) (step : List (Slot × Nat)) : State :=
  let m := (s1.cell pos).mx
  let s2 := if fmtKb (s1.ctx pos n).fmt then s1.setMatrix pos { m with
      sum := (List.range 1024).foldl (fun z i => mapSet Slot.zero z i (step.getD i (Slot.zero, 0)).1) m.sum
      sumFl := s1.sumFlags pos op step } else s1
  s2.mxFlag pos n (flagsOf step)
/-- The elements in the OUT format, with the flags of that conversion (R151, R154, R155). -/
def Ctx.outElems (c : Ctx) (step : List (Slot × Nat)) : List (Slot × Nat) :=
  step.map fun x =>
    let (v, f) := if fmtKb c.fmt then emitF32 c.outFmt x.1.v.toNat else emitI32 c.outFmt x.1.v.toNat
    ((⟨BitVec.ofNat 32 v, x.1.poison, false⟩ : Slot), f)
/-- The four sub-tiles of the output, in order (R190). -/
def subTiles (outs : List (Slot × Nat)) : List (List Slot) :=
  (List.range 4).map fun t => (List.range 256).map fun e => (outs.getD (subTileIndex t e) (Slot.zero, 0)).1
/-- The output is emitted (R155, R190, R191): flags to MX_FLAGS and the vector engine's, sub-tiles to the curd queue while it has room. -/
def State.emitBank (s1 : State) (pos n : Nat) (op : OpFields) : State :=
  let kb := fmtKb (s1.ctx pos n).fmt
  let step := s1.readSteps pos n op
  let outs := (s1.ctx pos n).outElems step
  let fl := flagsOf step ||| flagsOf outs ||| (if kb then s1.sumFlags pos op step else 0) ||| (if ((s1.cell pos).mx.bank op.bank).aovf then 1 else 0)
  let s4 := ((s1.readKept pos n op step).mxFlag pos n (flagsOf outs)).vxFlag pos n
    ((if fl % 4 ≠ 0 then flagOVF else 0) ||| (if bitOf fl 2 then flagINV else 0))
  let c4 := s4.ctx pos n
  s4.setCtx pos n { c4 with
    curd := c4.curd ++ (subTiles outs).take (8 - c4.curd.length)
    curdLate := (subTiles outs).drop (8 - c4.curd.length) }
/-- MX_READ (R146, R151 to R156, R190, R191): the bank goes through the read-out stage. Sub-tiles that find all eight entries of the curd
queue held wait, in order, and the operation stays in its queue until VX_POP has made room for the last of them; an emission behind
one that stalls waits as a whole. The flags of a poisoned element are those of its bits (R155, R158): DESIGN CHOICE, assumption 91. -/
def execMxRead (pos n : Nat) (op : OpFields) (u : EngineUpset) (s : State) : Host.Outcome State Fault Refusal := s.onGrid <|
  let s0 := s.strikeSlice pos u.hits
  let c := s0.ctx pos n
  if !c.curdLate.isEmpty then .next (s0.mxWait pos n op)
  else
    let s1 := s0.bankRead pos n op.bank u.bad (List.range 1024)
    if fmtKb c.fmt && !op.final then .next ((s1.readKept pos n op (s1.readSteps pos n op)).mxRetire pos n op)
    else
      let s5 := s1.emitBank pos n op
      .next (if (s5.ctx pos n).curdLate.isEmpty then s5.mxRetire pos n op else s5.mxWait pos n op)

end Sys2Proof.Machine
end

