-- ==== Sys2Proof/Machine/Lanes.lean ====
section
/-! DEFINITION. What the lanes of the vector engine compute on one element (R164, R165, R170 to R179), and tile and mask
registers (R163, R166, R167, R180, R181). -/
namespace Sys2Proof.Machine

/-- Vector element formats of Table 6.1. -/
inductive VFmt where
  | f32 | f16 | i32 | i16 | i8
deriving DecidableEq, Repr

/-- The vector format a code of Table 7.9 names. -/
def vfmt (code : Nat) : Option VFmt :=
  match code with | 4 => some .f32 | 5 => some .f16 | 6 => some .i32 | 7 => some .i16 | 8 => some .i8 | _ => none
def VFmt.width (f : VFmt) : Nat := match f with | .f32 => 32 | .f16 => 16 | .i32 => 32 | .i16 => 16 | .i8 => 8
def VFmt.bytes (f : VFmt) : Nat := f.width / 8
/-- The float format, if it is one. -/
def VFmt.fp (f : VFmt) : Option FpFmt := match f with | .f32 => some fp32 | .f16 => some fp16 | _ => none
def VFmt.isInt (f : VFmt) : Bool := f.fp.isNone
/-- Read an element from its slot (R165). -/
def VFmt.get (f : VFmt) (v : Word) : Nat := v.toNat % 2 ^ f.width
/-- The slot layout of an element (Table 6.1). -/
def VFmt.put (f : VFmt) (x : Nat) : Word :=
  if f.isInt then BitVec.ofInt 32 (signed f.width x) else BitVec.ofNat 32 (x % 2 ^ f.width)

/-- Raise INV for a signalling operand, as IEEE 754 does (R171). -/
def FpFmt.withSnan (f : FpFmt) (xs : List Nat) (r : FRes) : FRes :=
  if xs.any f.isSnan then ⟨r.bits, r.flags ||| flagINV⟩ else r

/-- Fit an exact integer to `w` bits (R172). -/
def fitInt (w : Nat) (sat : Bool) (x : Int) : FRes :=
  let hi : Int := ((2 ^ (w - 1) : Nat) : Int) - 1
  let lo : Int := -((2 ^ (w - 1) : Nat) : Int)
  if x < lo then ⟨wrapInt w (if sat then lo else x), flagIOV⟩
  else if hi < x then ⟨wrapInt w (if sat then hi else x), flagIOV⟩
  else ⟨wrapInt w x, 0⟩

/-- A function of two elements by format: on floats and on signed integers. -/
def VFmt.lane (f : VFmt) (fl : FpFmt → FRes) (int : FRes) : FRes := match f.fp with | some g => fl g | none => int

def laneAdd (f : VFmt) (sat : Bool) (a b : Nat) : FRes :=
  f.lane (fun g => g.withSnan [a, b] (g.add a b)) (fitInt f.width sat (signed f.width a + signed f.width b))
def laneSub (f : VFmt) (sat : Bool) (a b : Nat) : FRes :=
  f.lane (fun g => g.withSnan [a, b] (g.add a (if g.isNan b then b else g.neg b)))
    (fitInt f.width sat (signed f.width a - signed f.width b))
def laneMul (f : VFmt) (sat : Bool) (a b : Nat) : FRes :=
  f.lane (fun g => g.withSnan [a, b] (g.mul a b)) (fitInt f.width sat (signed f.width a * signed f.width b))
def laneFma (f : VFmt) (a b c : Nat) : FRes :=
  f.lane (fun g => g.withSnan [a, b, c] (g.fma a b c)) ⟨0, 0⟩
def laneMin (f : VFmt) (a b : Nat) : FRes :=
  f.lane (fun g => g.mini a b) ⟨if signed f.width b < signed f.width a then b else a, 0⟩
def laneMax (f : VFmt) (a b : Nat) : FRes :=
  f.lane (fun g => g.maxi a b) ⟨if signed f.width a < signed f.width b then b else a, 0⟩
def laneAbs (f : VFmt) (sat : Bool) (a : Nat) : FRes :=
  f.lane (fun g => ⟨if g.isNan a then g.qnan else g.abs a, 0⟩) (fitInt f.width sat ((signed f.width a).natAbs : Int))
def laneNeg (f : VFmt) (sat : Bool) (a : Nat) : FRes :=
  f.lane (fun g => ⟨if g.isNan a then g.qnan else g.neg a, 0⟩) (fitInt f.width sat (-(signed f.width a)))
def laneAnd (a b : Nat) : FRes := ⟨a &&& b, 0⟩
def laneOr (a b : Nat) : FRes := ⟨a ||| b, 0⟩
def laneXor (a b : Nat) : FRes := ⟨a ^^^ b, 0⟩
/-- Shifts by `b` mod the element width (Table 6.3); VX.SHL carries SAT (R172). -/
def laneShl (f : VFmt) (sat : Bool) (a b : Nat) : FRes :=
  fitInt f.width sat (signed f.width a * ((2 ^ (b % f.width) : Nat) : Int))
def laneShra (f : VFmt) (a b : Nat) : FRes := ⟨wrapInt f.width (signed f.width a / ((2 ^ (b % f.width) : Nat) : Int)), 0⟩
def laneShrl (f : VFmt) (a b : Nat) : FRes := ⟨a / 2 ^ (b % f.width), 0⟩

/-- Comparisons (R173): the bit and the flags. -/
def laneEq (f : VFmt) (a b : Nat) : FRes :=
  f.lane (fun g => ⟨b2n (!g.isNan a && !g.isNan b && g.eq a b), 0⟩) ⟨b2n (a == b), 0⟩
def laneNe (f : VFmt) (a b : Nat) : FRes :=
  f.lane (fun g => ⟨b2n (g.isNan a || g.isNan b || !g.eq a b), 0⟩) ⟨b2n (a != b), 0⟩
def laneLt (f : VFmt) (a b : Nat) : FRes :=
  f.lane (fun g => if g.isNan a || g.isNan b then ⟨0, flagINV⟩ else ⟨b2n (g.lt a b), 0⟩)
    ⟨b2n (decide (signed f.width a < signed f.width b)), 0⟩
def laneLe (f : VFmt) (a b : Nat) : FRes :=
  f.lane (fun g => if g.isNan a || g.isNan b then ⟨0, flagINV⟩ else ⟨b2n (g.lt a b || g.eq a b), 0⟩)
    ⟨b2n (decide (signed f.width a ≤ signed f.width b)), 0⟩

/-- A float to an integer (R174): to nearest even, NaN 0 and INV, out of range clamped and IOV. -/
def cvtToInt (g : FpFmt) (w : Nat) (a : Nat) : FRes :=
  match g.decode a with
  | .nan => ⟨0, flagINV⟩
  | .inf n => fitInt w true (if n then -((2 ^ w : Nat) : Int) else ((2 ^ w : Nat) : Int))
  | .fin n m e =>
    let q : Int := ((roundEven m e : Nat) : Int)
    let r := fitInt w true (if n then -q else q)
    if r.flags = 0 ∧ isIntegral m e = false then ⟨r.bits, flagINX⟩ else r

/-- An integer to a float (R174): narrowing to binary16 clamps to its range and sets IOV. -/
def cvtFromInt (g : FpFmt) (x : Int) : FRes :=
  let r := g.roundInt x 0 false
  if g.isInf r.bits then ⟨g.infBits (decide (x < 0)) - 1, flagIOV⟩ else r

/-- VX.CVT (R174). -/
def laneCvt (f d : VFmt) (a : Nat) : FRes :=
  match f.fp, d.fp with
  | some g, some h => g.withSnan [a] (fpConvert g h a)
  | some g, none => cvtToInt g d.width a
  | none, some h => cvtFromInt h (signed f.width a)
  | none, none => fitInt d.width true (signed f.width a)

/-- A special function in a float format (R175): binary16 is computed in binary32 and rounded once. -/
def laneSpecial (fn : Nat → BitVec 64 → FRes) (f : VFmt) (a : Nat) (d : BitVec 64) : FRes :=
  match f with
  | .f32 => fp32.withSnan [a] (fn a d)
  | .f16 =>
    let x := fpConvert fp16 fp32 a
    let r := fn x.bits d
    let y := fpConvert fp32 fp16 r.bits
    fp16.withSnan [a] ⟨y.bits, r.flags ||| y.flags⟩
  | _ => ⟨0, 0⟩

/-! ### Tile and mask registers -/

def Ctx.slot (c : Ctx) (r i : Nat) : Slot := mapGet Slot.zero c.tiles (r % 32 * 256 + i)
def Ctx.setSlot (c : Ctx) (r i : Nat) (v : Slot) : Ctx := { c with tiles := mapSet Slot.zero c.tiles (r % 32 * 256 + i) v }
def Ctx.setSlots (c : Ctx) (r : Nat) (vs : List (Nat × Slot)) : Ctx :=
  { c with tiles := vs.foldl (fun m e => mapSet Slot.zero m (r % 32 * 256 + e.1) e.2) c.tiles }
/-- A mask register; MK0 reads as all ones and ignores writes (R180). -/
def Ctx.mask (c : Ctx) (k : Nat) : BitVec 256 := if k % 8 = 0 then BitVec.allOnes 256 else mapGet 0 c.masks (k % 8)
def Ctx.setMask (c : Ctx) (k : Nat) (v : BitVec 256) : Ctx :=
  if k % 8 = 0 then c else { c with masks := mapSet 0 c.masks (k % 8) v }
/-- Lanes the operation's mask enables, and its mode (R181). -/
def Ctx.enabled (c : Ctx) (op : OpFields) (i : Nat) : Bool := (c.mask (op.mask % 8)).getLsbD i

/-- A parity error in a tile register (R167): TREG_UE, a UE, and the position is faulty (R446). -/
def State.tregUe (s : State) (pos n r i : Nat) : State :=
  (((s.event (pgCell pos) 10).rasReport 2 0x04 (pgCell pos) [posPx pos, posPy pos, n, r % 32] (s.detailAt pos n)).pageError (pgCell pos)
    (n % 4 + r % 32 * 16) 0xF 0x16 (BitVec.ofNat 32 i)).makeFaulty pos

/-- Read slots of a tile register: parity errors, latent or just struck, poison their elements. -/
def State.tileRead (s : State) (pos n r : Nat) (bad idx : List Nat) : State :=
  let c := s.ctx pos n
  let hit := idx.filter fun i => (c.slot r i).bad || bad.contains (r % 32 * 256 + i)
  if hit.isEmpty then s
  else
    hit.foldl (fun t i => t.tregUe pos n r i)
      (s.setCtx pos n (c.setSlots r (hit.map fun i => (i, { (c.slot r i) with poison := true, bad := false }))))

/-- Write a tile under the operation's mask (R181): `res i` for enabled elements of `idx`; the others keep or become zero. -/
def State.tileWrite (s : State) (pos n : Nat) (op : OpFields) (idx : List Nat) (res : Nat → Slot) : State :=
  let c := s.ctx pos n
  let vs := idx.filterMap fun i =>
    if c.enabled op i then some (i, res i) else if op.zeroMode then some (i, Slot.zero) else none
  s.setCtx pos n (c.setSlots op.dst vs)

end Sys2Proof.Machine
end

