-- ==== Sys2Proof/Machine/Image.lean ====
section
/-! DEFINITION. The section image (R227 to R235): parsing it, and every format error it can hold. -/
namespace Sys2Proof.Machine

/-- A cell record (Table 7.11). -/
structure CellRec where
  dx : Nat
  dy : Nat
  base : Nat
  bound : Nat
  mxcfg : Nat
  saveOff : Nat
  toMap : List ToEntry
  cnt : List Counter
  trig : List Trigger
deriving DecidableEq, Repr

/-- A data record (R233). -/
structure DataRec where
  dx : Nat
  dy : Nat
  off : Nat
  bytes : List Byte
deriving DecidableEq, Repr

/-- A section image. -/
structure Image where
  sid : Nat
  keyId : Nat
  w : Nat
  h : Nat
  budget : Nat
  drainBound : Nat
  xi : List (Nat × Nat × Nat × Nat)
  cells : List CellRec
  streams : List StreamRec
  trees : List Tree
  data : List DataRec
deriving DecidableEq, Repr

/-- The operation and its parameters are ones that Tables 7.3, 7.8 and 7.9, R183, R193, R194 and Table 5.6 allow. -/
def opOk (couple : Bool) (o : OpFields) : Bool :=
  let c := o.opcode
  let vx := decide (0x10 ≤ c)
  let typed := vx && !(0x2F ≤ c && c ≤ 0x32) && c != 0x34 && c != 0x35 && c != 0x36
  let known := decide (c ≤ 4) || (decide (0x10 ≤ c) && decide (c ≤ 0x37))
  let isInt := o.fmt == 6 || o.fmt == 7 || o.fmt == 8
  let isFp := o.fmt == 4 || o.fmt == 5
  known && decide (o.fmt ≤ 8) && decide (o.dst < 32) && decide (o.srcA < 32) && decide (o.srcB < 32) && decide (o.srcC < 32)
    && decide (o.mask < 16) && decide (o.flags < 64)
    && (c == 0x33 || c == 0x23 || c == 0x37 || c == 0x35 || o.subop == 0)
    && (c == 0x37 || (o.addr2 == 0 && o.c30 == 0))
    && (c != 3 || (decide (1 ≤ o.n) && decide (o.n ≤ 32)))
    && (c != 4 || !couple)
    && ((c != 3 && c != 4 && c != 0x36) || decide (o.dst < 2))
    && ((!(0x1E ≤ c && c ≤ 0x21) && !(0x2F ≤ c && c ≤ 0x32)) || decide (o.dst < 8))
    && (c != 0x22 || decide (o.srcC < 8))
    && (!(0x30 ≤ c && c ≤ 0x32) || decide (o.srcA < 8))
    && ((c != 0x30 && c != 0x31) || decide (o.srcB < 8))
    && (o.addr < 2 ^ 31)
    && ((c != 0x35 && c != 0x36) || couple)
    && (!typed || (if c == 0x2E then o.fmt == 2 || o.fmt == 3
        else if c == 0x37 then o.fmt == 4 || o.fmt == 5 || o.fmt == 8
        else if c == 0x13 || (0x24 ≤ c && c ≤ 0x28) then isFp
        else if 0x18 ≤ c && c ≤ 0x1D then isInt else isFp || isInt))
    && ((c != 0x2C && c != 0x2D) || (decide (1 ≤ o.n) && decide (o.n ≤ 16)))
    && (c != 0x2E || (decide (2 ≤ o.n) && decide (o.n ≤ 16) && o.n % 2 == 0))
    && (c != 0x2F || decide (o.n ≤ 256))
    && (c != 0x33 || (bitsOf o.subop 3 2 != 3 && (bitsOf o.subop 1 0 != 3 || bitsOf o.subop 7 4 != 15)))
    && (c != 0x23 || (decide (4 ≤ o.subop) && decide (o.subop ≤ 8)))
    && (c != 0x35 || decide (o.subop < 4))
    && (c != 0x37 || (((o.subop == 2 || o.subop == 4) && decide (1 ≤ o.n) && decide (o.n ≤ 4096) && o.n % o.subop == 0
        && decide (1 ≤ o.ag) && decide (o.ag ≤ 4096) && o.ag % o.subop == 0 && decide (1 ≤ o.c30) && decide (o.c30 ≤ 64))
        && (let e := if o.fmt == 4 then 4 else if o.fmt == 5 then 2 else 1
            let size := o.n * o.ag * o.c30 * e
            decide (o.addr + size ≤ o.addr2) || decide (o.addr2 + size ≤ o.addr))
        && decide (o.addr < 2 ^ 19) && decide (o.addr2 < 2 ^ 19)))

/-- A trigger entry (Table 7.3). -/
def parseTrigger (couple : Bool) (b : List Byte) : Option Trigger :=
  let a := fieldAt b 0 4
  let d := fieldAt b 4 4
  let op : OpFields := ⟨fieldAt b 8 1, fieldAt b 9 1, fieldAt b 10 1, fieldAt b 11 1, fieldAt b 12 1, fieldAt b 13 1,
    fieldAt b 14 1, fieldAt b 15 1, fieldAt b 16 1, fieldAt b 18 2, fieldAt b 20 4, fieldAt b 24 4, fieldAt b 28 2, fieldAt b 30 1⟩
  let t : Trigger := ⟨bitsOf a 7 0, bitOf a 8, bitsOf a 11 9, bitsOf a 19 12, bitsOf a 23 20, bitsOf a 25 24,
    bitsOf d 7 0, bitsOf d 11 8, bitOf d 12, bitOf d 13, bitOf d 14, bitsOf d 17 15, bitsOf d 19 18, bitsOf d 27 20, bitOf d 28, op⟩
  let usesTv := t.tvEn || t.ldlim || (t.emitEn && t.emitSrc == 1)
  if bitsOf a 31 26 = 0 ∧ bitsOf d 31 29 = 0 ∧ zeroAt b 17 1 ∧ zeroAt b 31 1 ∧ t.emitSrc ≠ 3
      ∧ (usesTv = false ∨ bitOf t.tiMask t.tvSel) ∧ t.consume &&& t.tiMask = t.consume ∧ opOk couple op then some t else none

/-- A counter (R209). -/
def parseCounter (b : List Byte) : Option Counter :=
  let i := fieldAt b 0 4
  let l := fieldAt b 4 4
  let st := fieldAt b 8 4
  if i < l ∧ 1 ≤ st ∧ zeroAt b 12 4 then some ⟨i, i, l, st⟩ else none

/-- A token output (Table 7.11). -/
def parseTo (w h : Nat) (b : List Byte) : Option ToEntry :=
  let t : ToEntry := ⟨fieldAt b 0 1, fieldAt b 1 1, fieldAt b 2 1, fieldAt b 3 1⟩
  if t.kind = 0 then some t
  else if t.kind = 1 then (if t.dx < w ∧ t.dy < h ∧ t.ti < 8 then some t else none)
  else if t.kind = 2 then (if t.dx < 8 ∧ t.dy = 0 ∧ t.ti = 0 then some t else none)
  else none

/-- Parse `n` items of `size` bytes. -/
def parseMany {α : Type} (f : List Byte → Option α) (size : Nat) : Nat → List Byte → Option (List α)
  | 0, _ => some []
  | n + 1, b =>
    match f (b.take size), parseMany f size n (b.drop size) with
    | some x, some xs => some (x :: xs)
    | _, _ => none

/-- MXCFG is one of Table 5.3 and R143. -/
def mxcfgOk (m : Nat) : Bool := decide (m < 64) && bitsOf m 4 3 != 3 && !(fmtKb (bitsOf m 1 0) && bitsOf m 4 3 == 0)

/-- A cell record: the record and what follows it. -/
def parseCell (w h : Nat) (b : List Byte) : Option (CellRec × List Byte) :=
  let nt := fieldAt b 2 1
  let nc := fieldAt b 3 1
  let base := fieldAt b 4 2
  let bound := fieldAt b 6 2
  let mx := fieldAt b 8 4
  let sv := fieldAt b 12 4
  let size := 48 + 16 * nc + 32 * nt
  if b.length < size ∨ w ≤ fieldAt b 0 1 ∨ h ≤ fieldAt b 1 1 ∨ nt = 0 ∨ 64 < nt ∨ 16 < nc ∨ 511 < base ∨ bound = 0 ∨ 512 < bound
      ∨ 512 < base + bound ∨ mxcfgOk mx = false ∨ sv % 1024 ≠ 0 ∨ bound * 1024 < sv + 16384 then none
  else
    match parseMany (parseTo w h) 4 8 (b.drop 16), parseMany parseCounter 16 nc (b.drop 48),
        parseMany (parseTrigger (bitOf mx 5)) 32 nt (b.drop (48 + 16 * nc)) with
    | some ts, some cs, some gs => some (⟨fieldAt b 0 1, fieldAt b 1 1, base, bound, mx, sv, ts, cs, gs⟩, b.drop size)
    | _, _, _ => none
def parseCells (w h : Nat) : Nat → List Byte → Option (List CellRec)
  | 0, _ => some []
  | n + 1, b =>
    match parseCell w h b with
    | none => none
    | some (c, r) =>
      match parseCells w h n r with
      | none => none
      | some cs => some (c :: cs)

/-- KIND parameters of a stream record (R249, R253, R290, R321c, R356). DESIGN CHOICE (assumption 91): a KIND 1 record whose DIR contradicts
its OPC is a format error. -/
def streamParamOk (kind dir : Nat) (q : List Byte) : Bool :=
  if kind = 0 then
    let x := fieldAt q 2 2
    decide (fieldAt q 0 2 < 4096) && x % 64 == 0 && decide (64 ≤ x) && decide (x ≤ 1024) && decide (fieldAt q 4 1 ≤ 1) && zeroAt q 5 7
  else if kind = 1 then
    let f := fieldAt q 1 1
    let l := fieldAt q 2 4
    let rl := bitsOf l 18 0
    let rd := !bitOf f 0
    decide (fieldAt q 0 1 < 64) && decide (f < 4) && decide (1 ≤ rl) && decide (rl ≤ 262144) && (!rd || rl % 64 == 0) && !bitOf l 31
      && decide (1 ≤ fieldAt q 6 2) && decide (rl ≤ fieldAt q 8 4) && (rd || !bitOf f 1) && (dir == (if rd then 0 else 1))
  else if kind = 2 then
    decide (fieldAt q 0 1 < 16) && decide (fieldAt q 1 1 ≤ 1) && decide (fieldAt q 2 2 < 4096) && decide (fieldAt q 4 2 < 4096) && zeroAt q 6 6
  else if kind = 3 then
    decide (fieldAt q 0 1 < 64) && (decide (fieldAt q 1 1 < 64) || fieldAt q 1 1 == 255) && zeroAt q 2 10
  else
    let x := fieldAt q 6 2
    let tc := fieldAt q 10 1
    let op := fieldAt q 11 1
    x % 64 == 0 && decide (64 ≤ x) && decide (x ≤ 4096) && (tc == 0 || (tc == 2 && decide (x ≤ 256)))
      && (op == 0 || (decide (0x11 ≤ op) && decide (op ≤ 0x14)))

/-- A stream record (R230, R234, R237). -/
def parseStream (w h : Nat) (b : List Byte) : Option StreamRec :=
  let r : StreamRec := ⟨fieldAt b 0 2, fieldAt b 2 1, fieldAt b 3 1, fieldAt b 4 1, fieldAt b 5 1, fieldAt b 6 1, fieldAt b 7 1,
    fieldAt b 8 1, fieldAt b 9 1, fieldAt b 10 1, fieldAt b 12 4, fieldAt b 16 4, (b.drop 20).take 12⟩
  let ext := r.kind == 0 && fieldAt r.param 4 1 == 1
  if r.id < 4096 ∧ r.dir ≤ 1 ∧ r.kind ≤ 4 ∧ r.fmt ≤ 9 ∧ (r.fmt = 9 → r.feed = 0) ∧ r.slotSets ≤ 3 ∧ r.dx < w ∧ r.dy < h ∧ r.feed ≤ 1
      ∧ zeroAt b 11 1 ∧ r.bufOff % 64 = 0 ∧ r.bufLen % 64 = 0 ∧ 64 ≤ r.bufLen ∧ r.bufLen ≤ 262144
      ∧ ((r.kind = 0 ∧ ext = false ∧ r.peerDx < w ∧ r.peerDy < h) ∨ (¬(r.kind = 0 ∧ ext = false) ∧ r.peerDx = 0 ∧ r.peerDy = 0))
      ∧ streamParamOk r.kind r.dir r.param then some r else none

/-- A tree record (R231): the record and what follows it. -/
def parseTree (w h : Nat) (b : List Byte) : Option (Tree × List Byte) :=
  let n := fieldAt b 6 2
  let size := 16 + (2 * n + 15) / 16 * 16
  let t : Tree := ⟨fieldAt b 0 1, fieldAt b 1 1, fieldAt b 2 2, fieldAt b 4 1, fieldAt b 5 1, fieldAt b 8 1,
    (List.range n).map fun i => (fieldAt b (16 + 2 * i) 1, fieldAt b (17 + 2 * i) 1)⟩
  if size ≤ b.length ∧ t.kind ≤ 1 ∧ (if t.kind = 0 then t.op = 0 else 1 ≤ t.op ∧ t.op ≤ 4) ∧ t.id < 4096 ∧ t.rootDx < w ∧ t.rootDy < h
      ∧ 1 ≤ n ∧ n ≤ 2048 ∧ t.sat ≤ 1 ∧ zeroAt b 9 7 ∧ t.leaves.all (fun l => decide (l.1 < w) && decide (l.2 < h))
      ∧ zeroAt b (16 + 2 * n) (size - 16 - 2 * n) then some (t, b.drop size) else none
def parseTrees (w h : Nat) : Nat → List Byte → Option (List Tree)
  | 0, _ => some []
  | n + 1, b =>
    match parseTree w h b with
    | none => none
    | some (t, r) =>
      match parseTrees w h n r with
      | none => none
      | some ts => some (t :: ts)

/-- A data record (R233): the record and what follows it. -/
def parseData (cells : List CellRec) (b : List Byte) : Option (DataRec × List Byte) :=
  let dx := fieldAt b 0 1
  let dy := fieldAt b 1 1
  let off := fieldAt b 4 4
  let len := fieldAt b 8 4
  let size := 16 + (len + 15) / 16 * 16
  match cells.find? fun c => c.dx == dx && c.dy == dy with
  | none => none
  | some c =>
    if size ≤ b.length ∧ zeroAt b 2 2 ∧ zeroAt b 12 4 ∧ 1 ≤ len ∧ len ≤ 524288 ∧ off + len ≤ c.bound * 1024 then
      some (⟨dx, dy, off, (b.drop 16).take len⟩, b.drop size)
    else none
def parseDatas (cells : List CellRec) : Nat → List Byte → Option (List DataRec)
  | 0, _ => some []
  | n + 1, b =>
    match parseData cells b with
    | none => none
    | some (d, r) =>
      match parseDatas cells n r with
      | none => none
      | some ds => some (d :: ds)

/-- No two elements share a key. -/
def keysDistinct : List (Nat × Nat) → Bool
  | [] => true
  | k :: ks => !ks.contains k && keysDistinct ks

/-- A stream record suits the cell it names (R145, R237): FEED 1 needs a cell record of the same format. -/
def streamFits (cells : List CellRec) (r : StreamRec) : Bool :=
  match cells.find? fun c => c.dx == r.dx && c.dy == r.dy with
  | none => r.feed == 0
  | some c => (r.feed == 0 || r.fmt == bitsOf c.mxcfg 1 0) && decide (r.bufOff + r.bufLen ≤ c.bound * 1024)

/-- The offsets of the lists present rise and lie before the tag (R228). -/
def offsetsOk (len : Nat) (os : List (Nat × Nat)) : Bool :=
  let used := (os.filter fun p => p.1 != 0).map (·.2)
  used.all (fun o => o % 16 == 0 && decide (128 ≤ o) && decide (o < len - 48))
    && (List.range (used.length - 1)).all fun i => decide (used.getD i 0 < used.getD (i + 1) 0)

/-- Parse a section image; none for a format error (R227 to R235). `len` is the descriptor's IMAGE_LEN (R224). -/
def parseImage (len : Nat) (b : List Byte) : Option Image :=
  let w := fieldAt b 0xC 1
  let h := fieldAt b 0xD 1
  let nc := fieldAt b 0x18 2
  let ns := fieldAt b 0x1A 2
  let nt := fieldAt b 0x1C 2
  let nd := fieldAt b 0x1E 2
  let oc := fieldAt b 0x20 4
  let os := fieldAt b 0x24 4
  let ot := fieldAt b 0x28 4
  let od := fieldAt b 0x2C 4
  let xi := (List.range 8).map fun m => (fieldAt b (0x38 + 4 * m) 1, fieldAt b (0x39 + 4 * m) 1, fieldAt b (0x3A + 4 * m) 1,
    fieldAt b (0x3B + 4 * m) 1)
  if fieldAt b 0 4 ≠ 0x49535A4B ∨ fieldAt b 4 2 ≠ 1 ∨ 15 < fieldAt b 6 1 ∨ zeroAt b 7 1 = false ∨ fieldAt b 8 4 ≠ len ∨ b.length ≠ len
      ∨ len % 16 ≠ 0 ∨ len < 256 ∨ 67108864 < len ∨ w = 0 ∨ 64 < w ∨ h = 0 ∨ 32 < h ∨ zeroAt b 0xE 2 = false ∨ fieldAt b 0x10 4 = 0
      ∨ fieldAt b 0x14 4 < 70 ∨ nc = 0 ∨ w * h < nc ∨ 1024 < ns ∨ 256 < nt ∨ 4096 < nd ∨ zeroAt b 0x58 40 = false
      ∨ xi.all (fun x => x.2.2.2 == 0 || (x.2.2.2 == 1 && decide (x.1 < w) && decide (x.2.1 < h) && decide (x.2.2.1 < 8))) = false
      ∨ offsetsOk len [(nc, oc), (ns, os), (nt, ot), (nd, od)] = false then none
  else
    let body := b.take (len - 48)
    match parseCells w h nc (body.drop oc), parseMany (parseStream w h) 32 ns (if ns = 0 then [] else body.drop os),
        parseTrees w h nt (if nt = 0 then [] else body.drop ot) with
    | some cs, some ss, some ts =>
      match parseDatas cs nd (if nd = 0 then [] else body.drop od) with
      | some ds =>
        if keysDistinct (cs.map fun c => (c.dx, c.dy)) && ss.all (streamFits cs) then
          some ⟨fieldAt b 0x30 8, fieldAt b 6 1, w, h, fieldAt b 0x10 4, fieldAt b 0x14 4, xi, cs, ss, ts, ds⟩
        else none
      | none => none
    | _, _, _ => none

end Sys2Proof.Machine
end

