-- ==== Sys2Proof/Machine/Sections.lean ====
section
/-! DEFINITION. Placing, loading, releasing and unloading sections (R73 to R91, R198 to R205, R208, R222 to R226, R249, R652, R653). -/
namespace Sys2Proof

/-- How a failed read completes a load or a descriptor (R226, R322d). -/
def ReadEnd.ending (k : ReadEnd) : Ending :=
  match k with
  | .ok => Machine.endDone
  | .poison => ⟨0x30, 1, 0⟩
  | .failed => ⟨0x33, 1, 0⟩
  | .bound => Machine.endBound

end Sys2Proof

namespace Sys2Proof.Machine

/-! ### Routes, trees and reservations -/

/-- The path from a router to a destination (R68): router, input port, output port at each step. -/
def route (pos inp dst : Nat) : Nat → List (Nat × Nat × Nat)
  | 0 => []
  | fuel + 1 =>
    let o := routePort pos dst
    (pos, inp, o) :: (match neighbour pos o with | some (p, i) => route p i dst fuel | none => [])
def fullRoute (pos inp dst : Nat) : List (Nat × Nat × Nat) := route pos inp dst 100

/-- The EXT field of a KIND 0 record, MC and MCG of a KIND 1 record (R249, R260). -/
def StreamRec.ext (r : StreamRec) : Bool := r.kind == 0 && fieldAt r.param 4 1 == 1
def StreamRec.mc (r : StreamRec) : Bool := r.kind == 1 && bitOf (fieldAt r.param 1 1) 1
def StreamRec.mcg (r : StreamRec) : Nat := bitsOf (fieldAt r.param 2 4) 30 19
/-- The engine or bridge a placement gives record `i`. -/
def engineOf (p : Placement) (i : Nat) : Option Nat := (p.engines.find? fun e => e.1 == i).map (·.2)

def State.placePos (s : State) (p : Placement) (dx dy : Nat) : Nat := s.physOf (p.orgX + dx) (p.orgY + dy)

/-- The engine that roots a multicast tree: that of the KIND 1 record with MC = 1 and this group (R260). -/
def mcEngine (streams : List StreamRec) (p : Placement) (mcg : Nat) : Option Nat :=
  match (List.range streams.length).find? fun i =>
    match streams[i]? with
    | some r => r.mc && r.mcg == mcg
    | none => false with
  | some i => engineOf p i
  | none => none

/-- One router's part of a multicast tree: input port and output mask by position (R78, R79). -/
def mcMerge (m : List (Nat × Nat × Nat)) : List (Nat × Nat × Nat) → List (Nat × Nat × Nat)
  | [] => m
  | (pos, i, o) :: r =>
    let m1 := match m.find? fun e => e.1 == pos with
      | some e => m.map fun x => if x.1 = pos then (pos, e.2.1, e.2.2 ||| 2 ^ o) else x
      | none => m ++ [(pos, i, 2 ^ o)]
    mcMerge m1 r
def State.mcTree (s : State) (streams : List StreamRec) (p : Placement) (t : Tree) : List (Nat × Nat × Nat) :=
  let (root, inp) := match mcEngine streams p t.id with
    | some k => (enginePos k, enginePort k)
    | none => (s.placePos p t.rootDx t.rootDy, 4)
  mcMerge [] (t.leaves.flatMap fun l => fullRoute root inp (s.placePos p l.1 l.2))

/-- A router's part of a reduction tree: inputs in child order, output port (R82, R232). -/
def redMerge (m : List (Nat × List Nat × Nat)) : List (Nat × Nat × Nat) → List (Nat × List Nat × Nat)
  | [] => m
  | (pos, i, o) :: r =>
    let m1 := match m.find? fun e => e.1 == pos with
      | some e => m.map fun x => if x.1 = pos then (pos, if e.2.1.contains i then e.2.1 else e.2.1 ++ [i], o) else x
      | none => m ++ [(pos, [i], o)]
    redMerge m1 r
def State.redTree (s : State) (p : Placement) (t : Tree) : List (Nat × List Nat × Nat) :=
  let root := s.placePos p t.rootDx t.rootDy
  redMerge [] (t.leaves.flatMap fun l => fullRoute (s.placePos p l.1 l.2) 4 root)

/-- Table entries of a section: position and entry words. -/
def State.mcEntries (s : State) (region : Nat) (streams : List StreamRec) (trees : List Tree) (p : Placement) : List (Nat × Nat × Nat) :=
  trees.flatMap fun t =>
    if t.kind = 0 then (s.mcTree streams p t).map fun e => (e.1, region + t.id * 256 + 2 ^ 31, e.2.1 + e.2.2 * 256) else []
def State.redEntries (s : State) (region : Nat) (trees : List Tree) (p : Placement) : List (Nat × List Nat) :=
  (List.range trees.length).flatMap fun k =>
    match trees[k]? with
    | none => []
    | some t =>
      if t.kind = 1 then (s.redTree p t).map fun e =>
        let mask := e.2.1.foldl (fun a i => a + 2 ^ i) 0
        let loc := e.2.1.contains 4
        let order := (List.range e.2.1.length).foldl (fun a i => a + e.2.1.getD i 0 * 8 ^ i) 0
        let fl := ((p.flits.find? fun x => x.1 == k).map (·.2)).getD 17
        (e.1, [region + t.id * 256 + 2 ^ 31, mask + e.2.2 * 256 + b2n loc * 2048, order + e.2.1.length * 2 ^ 16, 128 * fl * e.2.1.length])
      else []

/-- A router's tables as they will stand at the next step 6. -/
def Router.shadow (r : Router) : Router :=
  if r.shadowed then r else { r with mcSh := r.mc, redSh := r.red, shadowed := true }

def Router.mcFree (r : Router) : Option Nat := (List.range 64).find? fun i => !bitOf (mapGet 0 r.shadow.mcSh (2 * i)).toNat 31
def Router.redFree (r : Router) : Option Nat := (List.range 32).find? fun i => !bitOf (mapGet 0 r.shadow.redSh (4 * i)).toNat 31
def Router.seFree (r : Router) : Option Nat := (List.range 256).find? fun i => !bitOf (mapGet 0 r.sePort i).toNat 31

def putWords (m : SMap Word) (i : Nat) (ws : List Nat) : SMap Word := mapWrite 0 m i (ws.map (BitVec.ofNat 32))

/-- Slot sets a reserved flow holds at each output port of its path (R73, R74): set k moves on by two slots a hop. -/
def setsAtHop (mask h : Nat) : Nat :=
  (List.range 4).foldl (fun a k => if bitOf mask k then a ||| 2 ^ ((k + 2 * h) % 4) else a) 0
def countSets (m : Nat) : Nat := (List.range 4).foldl (fun a k => a + b2n (bitOf m k)) 0
/-- The slot sets a placement gives record `i` at its source port; 0 for an unreserved stream. -/
def setsOf (p : Placement) (i : Nat) (r : StreamRec) : Nat :=
  if r.slotSets = 0 then 0 else ((p.sets.find? fun e => e.1 == i).map (·.2 % 16)).getD 0
/-- The record is the source of a flow: a cell's outbound stream to a cell, or a stream of an engine or a bridge. -/
def StreamRec.flows (r : StreamRec) : Bool := r.kind != 0 || r.dir == 1
/-- Every reserved flow holds as many slot sets as its record asks for (R73). -/
def setsFit (streams : List StreamRec) (p : Placement) : Bool :=
  streams.zipIdx.all fun e => !e.1.flows || countSets (setsOf p e.2 e.1) == e.1.slotSets

/-- The cell at the other end of a stream that leaves its section (R249), once that section is loaded. -/
def State.extPos (s : State) (p : Placement) (i dir : Nat) : Option Nat :=
  match p.ext.find? fun e => e.1 == i with
  | none => none
  | some (_, sid, str) =>
    match s.sectById sid with
    | none => none
    | some u => (u.streams.find? fun y => y.id == str && y.ext && y.dir != dir).map fun y => s.physOf (u.orgX + y.dx) (u.orgY + y.dy)
/-- The reservations of the flow of record `i`: position, output port, slot sets (R73, R74). -/
def State.flowPlan (s : State) (streams : List StreamRec) (trees : List Tree) (p : Placement) (i : Nat) : List (Nat × Nat × Nat) :=
  match streams[i]? with
  | none => []
  | some r =>
    let mask := setsOf p i r
    let here := s.placePos p r.dx r.dy
    let hops := fun (l : List (Nat × Nat × Nat)) (h0 : Nat) => l.zipIdx.map fun e => (e.1.1, e.1.2.2, setsAtHop mask (h0 + e.2))
    if mask = 0 then []
    else match engineOf p i with
      | some k =>
        if r.dir = 1 then hops (fullRoute here 4 (enginePos k)) 0
        else if r.mc then
          (match trees.find? fun t => t.kind == 0 && t.id == r.mcg with
          | some t => (t.leaves.flatMap fun l => hops (fullRoute (enginePos k) (enginePort k) (s.placePos p l.1 l.2)) 1).eraseDups
          | none => [])
        else hops (fullRoute (enginePos k) (enginePort k) here) 1
      | none =>
        if r.kind ≠ 0 ∨ r.dir = 0 then []
        else if r.ext then (match s.extPos p i r.dir with | some dst => hops (fullRoute here 4 dst) 0 | none => [])
        else hops (fullRoute here 4 (s.placePos p r.peerDx r.peerDy)) 0
/-- The reservations of a section, by record. -/
def State.slotPlan (s : State) (streams : List StreamRec) (trees : List Tree) (p : Placement) : List (Nat × Nat × Nat × Nat) :=
  (List.range streams.length).flatMap fun i => (s.flowPlan streams trees p i).map fun e => (i, e)

/-- What a layout takes of the tables: the positions of its multicast entries, position and combining-store bytes of its reduction entries,
its reservations, the positions of its SE_PORT entries, its press queues. -/
structure Claims where
  mc : List Nat
  red : List (Nat × Nat)
  slots : List (Nat × Nat × Nat)
  sePorts : List Nat
  queues : List (Nat × Option Nat)
deriving DecidableEq, Repr

def State.claimsOf (s : State) (streams : List StreamRec) (trees : List Tree) (p : Placement) : Claims :=
  { mc := (s.mcEntries 0 streams trees p).map (·.1)
    red := (s.redEntries 0 trees p).map fun e => (e.1, e.2.getD 3 0)
    slots := (s.slotPlan streams trees p).map (·.2)
    sePorts := p.engines.map fun e => enginePos e.2
    queues := streams.zipIdx.filterMap fun e =>
      if e.1.kind = 2 ∧ e.1.dir = 1 then some (fieldAt e.1.param 0 1, (p.queues.find? fun q => q.1 == e.2).map (·.2)) else none }
def Claims.add (a b : Claims) : Claims := ⟨a.mc ++ b.mc, a.red ++ b.red, a.slots ++ b.slots, a.sePorts ++ b.sePorts, a.queues ++ b.queues⟩
/-- What the loads in progress will take when they are released. -/
def State.pendingClaims (s : State) : Claims :=
  s.work.loads.foldl (fun a l => match parseImage l.image.length l.image with
    | some g => a.add (s.claimsOf g.streams g.trees l.place)
    | none => a) ⟨[], [], [], [], []⟩

/-- Valid entries of a table whose region stays. -/
def tableKept (gone : List Nat) (m : SMap Word) (stride n : Nat) : List Nat :=
  (List.range n).filter fun i => let w := (mapGet 0 m (stride * i)).toNat; bitOf w 31 && !gone.contains (bitsOf w 7 0)

/-- Slot sets held at a port once a layout is in force beside the sections that stay. -/
def State.wheelWith (s : State) (gone : List Nat) (plan : List (Nat × Nat × Nat)) (pos port : Nat) : Nat :=
  let kept := (s.work.sects.filter fun t => !gone.contains t.region).flatMap fun t => t.slots.map (·.2)
  (plan ++ kept).foldl (fun a e => if e.1 = pos ∧ e.2.1 = port then a ||| e.2.2 else a) 0

/-- Every press pair has a queue of its channel that no pair holds or will hold (R290). -/
def State.queuesFit (s : State) (gone : List Nat) (own pending : List (Nat × Option Nat)) : Bool :=
  own.all fun a => match a.2 with
    | some q =>
      let held := match (mapGet PressQ.zero (mapGet Press.zero s.press a.1).queues q).pair with
        | some pr => !gone.contains pr.region
        | none => false
      decide (q < 4) && !held && ((own ++ pending).filter (· == a)).length == 1
    | none => false
/-- The layout keeps every limit of R73, R75, R78, R82, R86, R252, R261 and R290, beside the sections that stay (`gone`: the regions that do
not) and the loads in progress. -/
def State.layoutFits (s : State) (gone : List Nat) (streams : List StreamRec) (trees : List Tree) (p : Placement) : Bool :=
  let own := s.claimsOf streams trees p
  let pend := s.pendingClaims
  let all_ := own.add pend
  let count := fun (l : List Nat) (x : Nat) => (l.filter (· == x)).length
  let mcAt := fun pos => (tableKept gone (s.router pos).shadow.mcSh 2 64).length + count all_.mc pos
  let redAt := fun pos => (tableKept gone (s.router pos).shadow.redSh 4 32).length + count (all_.red.map (·.1)) pos
  let store := fun pos => (tableKept gone (s.router pos).shadow.redSh 4 32).foldl (fun a i =>
      a + (mapGet 0 (s.router pos).shadow.redSh (4 * i + 3)).toNat) 0
    + all_.red.foldl (fun a e => if e.1 = pos then a + e.2 else a) 0
  let seAt := fun pos => (tableKept gone (s.router pos).sePort 1 256).length + count all_.sePorts pos
  setsFit streams p
    && own.mc.eraseDups.all (fun pos => decide (mcAt pos ≤ 64))
    && (own.red.map (·.1)).eraseDups.all (fun pos => decide (redAt pos ≤ 32) && decide (store pos ≤ 16384))
    && own.slots.all (fun e => decide (countSets (s.wheelWith gone all_.slots e.1 e.2.1) ≤ 3))
    && own.sePorts.eraseDups.all (fun pos => decide (seAt pos ≤ 256))
    && trees.all (fun t => t.kind == 1 || (mcEngine streams p t.id).isNone || decide (t.leaves.length ≤ 256))
    && s.queuesFit gone own.queues pend.queues

/-! ### Contexts -/

/-- A context that no section holds. REGION reset leaves tile registers, masks and sticky flags as they are (R201, R205). -/
def Ctx.emptied (c : Ctx) : Ctx :=
  { Ctx.blank with tiles := c.tiles, masks := c.masks, vxFlags := c.vxFlags, mxFlags := c.mxFlags }
/-- REGION reset of a context (R205). -/
def Ctx.regionReset (c : Ctx) : Ctx :=
  { c with ti := [], curd := [], curdLate := [], fin := false, cnt := c.cnt.map fun k => { k with v := k.init } }

/-- Change context `n` at every cell of a rectangle. -/
def State.onRegion (s : State) (orgX orgY w h n : Nat) (f : Ctx → Ctx) : State :=
  ((List.range h).flatMap fun j => (List.range w).map fun i => s.physOf (orgX + i) (orgY + j)).foldl
    (fun t pos => t.setCtx pos n (f (t.ctx pos n))) s
def State.onSect (s : State) (t : Sect) (f : Ctx → Ctx) : State := s.onRegion t.orgX t.orgY t.w t.h t.ctx f

/-- Set an event bit on the page of every cell of a rectangle. -/
def State.regionEvent (s : State) (orgX orgY w h bit : Nat) : State :=
  ((List.range h).flatMap fun j => (List.range w).map fun i => s.physOf (orgX + i) (orgY + j)).foldl
    (fun t pos => t.event (pgCell pos) bit) s

/-- The lowest REGION value that is free (R199). -/
def State.freeRegion (s : State) : Option Nat :=
  (List.range 256).find? fun r => !(s.work.sects.any fun t => t.region == r) && !(s.work.loads.any fun l => l.accepted && l.region == r)

/-- Items whose continuation of a section is discarded end with this reason (R222, R396, R652, R653). -/
def State.discardConts (s : State) (sid code reason : Nat) : State :=
  (s.work.descs.filter fun d => d.conts.contains sid).foldl (fun t d => t.post d.id code reason 0 true) s

/-- Reservations leave the wheels at the next step 6: position, port, slot sets. -/
def State.clearFlows (s : State) (l : List (Nat × Nat × Nat)) : State :=
  l.foldl (fun a e =>
    let r := a.router e.1
    let cur := match mapGet none r.wheelSh e.2.1 with | some m => m | none => mapGet 0 r.wheel e.2.1
    a.setRouter e.1 { r with wheelSh := mapSet none r.wheelSh e.2.1 (some (cur &&& (15 - e.2.2 % 16))) }) s
/-- The reservations of a section that are in the wheels. -/
def Sect.heldSlots (t : Sect) : List (Nat × Nat × Nat) :=
  (t.slots.filter fun e => t.live && !t.slotsDue.contains e.1).map (·.2)
/-- Flows of other sections to a section that leaves lose their paths (R249). -/
def State.dropFlowsTo (s : State) (t : Sect) : State :=
  s.work.sects.foldl (fun a u =>
    let recs := (u.place.ext.filter fun e => e.2.1 == t.sid && u.region != t.region).map (·.1)
    if recs.isEmpty then a
    else
      let b := a.clearFlows ({ u with slots := u.slots.filter fun e => recs.contains e.1 } : Sect).heldSlots
      { b with work := { b.work with sects := b.work.sects.map fun x => if x.region = u.region then { x with
          slots := x.slots.filter fun e => !recs.contains e.1
          slotsDue := x.slotsDue.filter fun i => !recs.contains i } else x } }) s

/-- Remove a section's tables, reservations, ports and press queues. -/
def State.clearTables (s : State) (t : Sect) : State :=
  let drop := fun (m : SMap Word) (stride n : Nat) => (List.range n).foldl (fun a i =>
    let w := (mapGet 0 a (stride * i)).toNat
    if bitOf w 31 ∧ bitsOf w 7 0 = t.region then mapWrite 0 a (stride * i) (List.replicate stride 0) else a) m
  let poss := ((s.mcEntries t.region t.streams t.trees t.place).map (·.1) ++ (s.redEntries t.region t.trees t.place).map (·.1)).eraseDups
  let s1 := poss.foldl (fun a pos =>
    let r := (a.router pos).shadow
    a.setRouter pos { r with mcSh := drop r.mcSh 2 64, redSh := drop r.redSh 4 32 }) s
  let s2 := s1.clearFlows t.heldSlots
  let s3 := (t.place.engines.map fun e => enginePos e.2).eraseDups.foldl (fun a pos =>
    let r := a.router pos
    a.setRouter pos { r with sePort := drop r.sePort 1 256 }) s2
  let bound := s3.press.flatMap fun e => (e.2.queues.filter fun q =>
    match q.2.pair with | some pr => pr.region == t.region | none => false).map fun q => (e.1, q.1)
  let s4 := bound.foldl (fun (a : State) e =>
    (a.setRegBit (pgPress e.1 * 0x1000 + 0x48) (4 + e.2) false).setFld (pgPress e.1) (R.press_QSTS.up (4 * e.2)) 0xFFFF) s3
  { s4 with
    press := s4.press.map fun e => (e.1, { e.2 with
      order := e.2.order.filter fun o => !bound.contains (e.1, o.1)
      queues := e.2.queues.map fun q => if bound.contains (e.1, q.1) then (q.1, PressQ.zero) else q })
    ses := s4.ses.map fun e => (e.1, { e.2 with
      ends := e.2.ends.filter fun x => x.region != t.region
      jobs := e.2.jobs.filter fun j => j.region != t.region || decide (2 ≤ j.opc) })
    tyz := { s4.tyz with
      rsvAsk := s4.tyz.rsvAsk.filter fun x => x.1 != t.region
      rsvBad := s4.tyz.rsvBad.filter fun x => x != t.region } }

/-- A stream end whose peer is in a region loses it. -/
def StreamEnd.unbind (region : Nat) (st : StreamEnd) : StreamEnd :=
  match st.peer with
  | some (_, r, _) => if r = region then { st with peer := none, credits := if st.dir = 1 then 0 else st.credits, bound := 0 } else st
  | none => st
def Cell.unbind (region : Nat) (c : Cell) : Cell :=
  { c with ctxs := c.ctxs.map fun e => (e.1, { e.2 with streams := e.2.streams.map (StreamEnd.unbind region) }) }
def Sect.unbind (region : Nat) (t : Sect) : Sect :=
  { t with xo := t.xo.filter fun x => match x.2 with | some (r, _, _, _) => r != region | none => false }
/-- Unbind every stream end and external output bound to a region. -/
def State.unbind (s : State) (region : Nat) : State :=
  { s with
    grid := { s.grid with cells := s.grid.cells.map fun e => (e.1, e.2.unbind region) }
    work := { s.work with sects := s.work.sects.map (Sect.unbind region) } }

/-- Unload a section: its contexts become EMPTY and its REGION value is freed (R652, R653). -/
def State.unloadSect (s : State) (t : Sect) (reason : Nat) (emptyCtx : Bool) : State :=
  let s1 := ((s.discardConts t.sid refCapacity reason).clearTables t).dropFlowsTo t
  let s2 := if emptyCtx then s1.onSect t Ctx.emptied else s1
  let s3 := { s2 with work := { s2.work with sects := s2.work.sects.filter fun x => x.region != t.region } }
  s3.unbind t.region

/-! ### Loads -/

/-- The key a slot holds (R556): that of its highest row that is valid and not revoked. -/
def State.slotKey (s : State) (slot : Nat) : Option (List Byte) :=
  ((s.rind.rows.filter fun r => r.slot == slot && r.valid && r.checkOk && !r.revoked).getLast?).map (·.key)

def State.loadOf (s : State) (d : Nat) : Option Load := s.work.loads.find? fun l => l.desc == some d
def State.setLoad (s : State) (l : Load) (f : Load → Load) : State :=
  { s with work := { s.work with loads := s.work.loads.map fun x => if x = l then f x else x } }
def State.dropLoad (s : State) (l : Load) : State := { s with work := { s.work with loads := s.work.loads.filter fun x => x ≠ l } }
/-- An outcome of the load's descriptor, if it has one. -/
def State.loadPost (s : State) (l : Load) (code reason detail : Nat) : State :=
  match l.desc with
  | some d => s.post d code reason detail true
  | none => s

/-- Does a rectangle in context `n` share a cell with a section's? -/
def Sect.meets (t : Sect) (n ox oy w h : Nat) : Bool :=
  t.ctx == n && decide (t.orgX < ox + w) && decide (ox < t.orgX + t.w) && decide (t.orgY < oy + h) && decide (oy < t.orgY + t.h)

/-- The regions a new image takes the place of: those whose context it needs (R222), and a loaded section of its SECTION_ID (R653). -/
def State.replacedBy (s : State) (sid : Nat) (p : Placement) (w h : Nat) : List Nat :=
  (s.work.sects.filter fun t => t.sid == sid || t.meets p.ctx p.orgX p.orgY w h).map (·.region)
/-- Sections that will be loaded beside the new one: those whose context neither it nor a load in progress needs, and the loads (R199). -/
def State.loadedBeside (s : State) (p : Placement) (w h : Nat) : Nat :=
  (s.work.sects.filter fun t => t.live && !t.meets p.ctx p.orgX p.orgY w h
    && !s.work.loads.any fun l => t.meets l.place.ctx l.place.orgX l.place.orgY l.w l.h).length + s.work.loads.length

/-- Placement is possible (R198, R200): inside the grid, off removed segments, within the table limits. -/
def State.placeOk (s : State) (img : Option Image) (sid w h : Nat) (p : Placement) : Bool :=
  decide (p.ctx < 4) && decide (p.orgX + w ≤ 64) && decide (p.orgY + h ≤ 32)
    && ((List.range h).all fun j => (List.range w).all fun i => !s.removed ((p.orgX + i) / 16) (p.orgY + j))
    && (match img with | some g => s.layoutFits (s.replacedBy sid p w h) g.streams g.trees p | none => true)

def loadW (image : List Byte) : Nat := let w := fieldAt image 0xC 1; if w ≤ 64 then w else 0
def loadH (image : List Byte) : Nat := let h := fieldAt image 0xD 1; if h ≤ 32 then h else 0

/-- Begin a load of an image at a placement (R199, R200, R222). -/
def State.beginLoad (s : State) (desc : Option Nat) (p : Placement) (image : List Byte) : State :=
  let refuse := fun reason => match desc with | some d => s.post d refCapacity reason 0 true | none => s
  let w := loadW image
  let h := loadH image
  let sid := fieldAt image 0x30 8
  if 256 ≤ s.loadedBeside p w h then refuse 0x0A
  else if !s.placeOk (parseImage image.length image) sid w h p then refuse 0x0B
  else
    let l : Load := ⟨desc, image, p, 0, false, sid, w, h, s.slotKey (4 + fieldAt image 6 1 % 16), none,
      s.work.sects.any fun t => t.sid == sid && t.live && t.meets p.ctx p.orgX p.orgY w h⟩
    let s1 := { s with work := { s.work with loads := s.work.loads ++ [l] } }
    match desc with
    | some d => s1.onDesc d fun x => { x with phase := .working }
    | none => s1

/-- Context `n` of every cell of the rectangle may enter LOADING (R222, Table 7.1): no run of it is in progress, and no image arrives there. -/
def State.ctxFree (s : State) (n ox oy w h : Nat) : Bool :=
  (List.range h).all fun j => (List.range w).all fun i =>
    let st := (s.ctx (s.physOf (ox + i) (oy + j)) n).state
    st != .active && st != .loading
/-- No run of context `n` at a cell of the rectangle is in progress. -/
def State.ctxIdle (s : State) (n ox oy w h : Nat) : Bool :=
  (List.range h).all fun j => (List.range w).all fun i => (s.ctx (s.physOf (ox + i) (oy + j)) n).state != .active

/-- Unload the sections in the way of a load (R222, R653). -/
def State.clearWay (s : State) (l : Load) : State :=
  (s.work.sects.filter fun t => t.meets l.place.ctx l.place.orgX l.place.orgY l.w l.h).foldl (fun a t => a.unloadSect t 0x09 true) s
/-- Accept a load under a REGION value (R158, R199, R222, R223): the contexts enter LOADING in REGION reset, with MX_FLAGS cleared. What their tile
and mask registers hold stays (log entry 91). -/
def State.acceptLoad (s : State) (l : Load) (reg : Nat) : State :=
  let p := l.place
  (s.setLoad l fun x => { x with accepted := true, region := reg }).onRegion p.orgX p.orgY l.w l.h p.ctx fun c =>
    { c.emptied with vxFlags := 0, mxFlags := 0, state := .loading, region := reg, orgX := p.orgX, orgY := p.orgY, w := l.w, h := l.h }

/-- LOAD_ACCEPT (R222, R223). -/
def execLoadAccept (d : Nat) (s : State) : Host.Outcome State Fault Refusal := s.onClock <|
  match s.loadOf d with
  | none => s.passOver "no load is in progress under this number"
  | some l =>
    if l.accepted then s.passOver "the load is accepted already"
    else if !s.grid.on_ || s.grid.heldReset then s.passOver "the grid is held in reset or has no power"
    else if !s.ctxFree l.place.ctx l.place.orgX l.place.orgY l.w l.h then s.passOver "a run of the context is in progress, or an image arrives there"
    else
      match (s.clearWay l).freeRegion with
      | some reg => .next ((s.clearWay l).acceptLoad l reg)
      | none => s.passOver "no REGION value is free"

/-- A load fails (R226): its contexts become EMPTY, its REGION value is free again. -/
def State.failLoad (s : State) (l : Load) (e : Ending) : State :=
  let p := l.place
  let s1 := if l.accepted then
    (s.onRegion p.orgX p.orgY l.w l.h p.ctx Ctx.emptied).regionEvent p.orgX p.orgY l.w l.h 14 else s
  (s1.dropLoad l).loadPost l e.code e.reason e.detail

/-- A stream end as its record describes it, unbound (R238). -/
def StreamRec.toEnd (r : StreamRec) : StreamEnd :=
  ⟨r.id, r.dir, r.kind, r.fmt, r.slotSets, r.peerDx, r.peerDy, r.feed, r.bufOff, r.bufLen, r.param, none, 0, 0, [], [], 0, 0, 0, false,
    false, none, []⟩

/-- Deliver an image (R224): cell records to the contexts, data segments to scratchpad. -/
def State.deliverImage (s : State) (l : Load) (g : Image) : State :=
  let p := l.place
  let s1 := g.cells.foldl (fun a c =>
    let pos := a.placePos p c.dx c.dy
    let x := a.ctx pos p.ctx
    a.setCtx pos p.ctx { x with
      base := c.base
      bound := c.bound
      mxcfg := c.mxcfg
      record := true
      saveOff := c.saveOff
      trig := c.trig
      cnt := c.cnt
      toMap := c.toMap }) s
  let s2 := g.streams.foldl (fun a r =>
    let pos := a.placePos p r.dx r.dy
    let x := a.ctx pos p.ctx
    a.setCtx pos p.ctx { x with streams := x.streams ++ [r.toEnd] }) s1
  s2

/-- The data segments of an image reach scratchpad as they arrive. -/
def State.deliverData (s : State) (l : Load) (g : Image) : State :=
  g.data.foldl (fun a d =>
    let pos := a.placePos l.place d.dx d.dy
    match g.cells.find? fun c => c.dx == d.dx && c.dy == d.dy with
    | some c => a.spWrite pos (c.base * 1024 + d.off) d.bytes []
    | none => a) s

/-- The tag of an image matches under the key of its slot (R224, R226). -/
def tagMatches (key : Option (List Byte)) (image : List Byte) : Bool :=
  match key with
  | none => false
  | some k => decide (256 ≤ image.length) && Config.hmacSha384 k (image.take (image.length - 48)) == image.drop (image.length - 48)

/-- The last byte of an image has arrived and its tag is computed (R225, R226). -/
def State.verifyLoad (s : State) (l : Load) : State :=
  match parseImage l.image.length l.image with
  | none => if tagMatches l.key l.image then s.failLoad l (endFormat 3) else s.failLoad l ⟨0x32, 0, 0⟩
  | some g =>
    let s1 := s.wakeGrid.deliverData l g
    if tagMatches l.key l.image then (s1.deliverImage l g).setLoad l fun x => { x with verified := some s.tb }
    else s1.failLoad l ⟨0x32, 0, 0⟩

/-- IMAGE_VERIFY_COMPLETE (R225, R226) at instant `at_`. -/
def execImageVerifyComplete (d : Nat) (at_ : Dword) (s : State) : Host.Outcome State Fault Refusal := s.onClock <|
  match s.loadOf d with
  | none => s.passOver "no load is in progress under this number"
  | some l =>
    if !l.accepted || l.verified.isSome then s.passOver "no image is arriving for this load"
    else .next ((s.advance at_).verifyLoad l)

/-- IMAGE_READ_FAIL (R226): a read of the image fails. -/
def execImageReadFail (d : Nat) (how : ReadEnd) (at_ : Dword) (s : State) : Host.Outcome State Fault Refusal := s.onClock <|
  match s.loadOf d with
  | none => s.passOver "no load is in progress under this number"
  | some l =>
    if l.verified.isSome ∨ how = .ok then s.passOver "no read of this image fails"
    else .next ((s.advance at_).failLoad l how.ending)

end Sys2Proof.Machine
end

