-- ==== Sys2Proof/Machine/Streams.lean ====
section
/-! DEFINITION. Streams (R236 to R250, R262, R264): data and CRD packets at cells and engines, sending of units, protocol errors. -/
namespace Sys2Proof.Machine

def State.engine (s : State) (k : Nat) : SEngine := mapGet SEngine.zero s.ses k
def State.setEngine (s : State) (k : Nat) (e : SEngine) : State := { s with ses := mapSet SEngine.zero s.ses k e }

/-- The record index of a stream end of a context, by STREAM_ID and direction. -/
def Ctx.endOf (c : Ctx) (id dir : Nat) : Option Nat := c.streams.findIdx? fun e => e.id == id && e.dir == dir

/-- Change one stream end of a context. -/
def State.onEnd (s : State) (pos n i : Nat) (f : StreamEnd → StreamEnd) : State :=
  let c := s.ctx pos n
  s.setCtx pos n { c with streams := c.streams.modify i f }

/-- A stream protocol error at a cell's end (R242): reported, the end marked ERROR, the runs that bind the stream faulted. -/
def State.endError (s : State) (pos n i seq : Nat) : State :=
  let c := s.ctx pos n
  match c.streams[i]? with
  | none => s
  | some e =>
    let s1 := ((s.protoError pos c.region e.id seq).onEnd pos n i fun x => { x with error := true }).faultRegion c.region endInternal
    match e.peer with
    | some (_, r, _) => if r = c.region then s1 else s1.faultRegion r endInternal
    | none => s1

/-- A packet of a stream that no end here binds: a protocol error of its region. -/
def State.strayPacket (s : State) (pos : Nat) (p : MeshPacket) : State :=
  (s.protoError pos (hRegion p.hdr) (hTag p.hdr) (hUnitSeq p.hdr)).faultRegion (hRegion p.hdr) endInternal

/-- The poisoned granules of a payload within `n` bytes from byte `o`, numbered from there. -/
def poisonSlice (ps : List Nat) (o n : Nat) : List Nat :=
  (ps.filter fun g => decide (o / 8 ≤ g) && decide (g < (o + n) / 8)).map (· - o / 8)

/-- Write arriving units into an inbound buffer (R245). -/
def State.putUnits (s : State) (pos n i : Nat) (bs : List Byte) (ps : List Nat) : Nat → State
  | 0 => s
  | k + 1 =>
    let c := s.ctx pos n
    match c.streams[i]? with
    | none => s
    | some e =>
      let o := c.base * 1024 + e.bufOff + 64 * (e.wr % max e.slots 1)
      let s1 := s.spWrite pos o (takePad 0 64 bs) ((poisonSlice ps 0 64).map (· + o / 8))
      (s1.onEnd pos n i fun x => { x with wr := x.wr + 1 }).putUnits pos n i (bs.drop 64) (poisonSlice ps 64 4096) k

/-- A data packet reaches a cell (R240, R242, R245). -/
def State.cellData (s : State) (pos : Nat) (p : MeshPacket) : State :=
  match s.ctxOfRegion pos (hRegion p.hdr) with
  | none => s.strayPacket pos p
  | some n =>
    match (s.ctx pos n).endOf (hTag p.hdr) 0 with
    | none => s.strayPacket pos p
    | some i =>
      match (s.ctx pos n).streams[i]? with
      | none => s
      | some e =>
        let k := p.payload.length / 64
        if hUnitSeq p.hdr ≠ e.wr % 65536 ∨ e.slots < e.wr - e.rd + k then s.endError pos n i (hUnitSeq p.hdr)
        else
          let at_ := fun g => (s.ctx pos n).base * 1024 + e.bufOff + (64 * e.wr + 8 * g) % max 64 (64 * e.slots)
          (s.correctAt pos p at_).putUnits pos n i p.payload p.poison k

/-- A CRD packet reaches a producer cell (R236, R242). -/
def State.cellCredit (s : State) (pos : Nat) (p : MeshPacket) : State :=
  match s.ctxOfRegion pos (hRegion p.hdr) with
  | none => s.strayPacket pos p
  | some n =>
    match (s.ctx pos n).endOf (hTag p.hdr) 1 with
    | none => s.strayPacket pos p
    | some i =>
      match (s.ctx pos n).streams[i]? with
      | none => s
      | some e =>
        if e.bound < e.credits + hCredits p.hdr then s.endError pos n i (hUnitSeq p.hdr)
        else s.onEnd pos n i fun x => { x with credits := x.credits + hCredits p.hdr }

/-! ### Engine ends -/

def SEngine.endOf (g : SEngine) (region stream : Nat) (out : Bool) : Option Nat :=
  g.ends.findIdx? fun e => e.region == region && e.stream == stream && e.out == out
def State.onSeEnd (s : State) (k i : Nat) (f : SeEnd → SeEnd) : State :=
  let g := s.engine k
  s.setEngine k { g with ends := g.ends.modify i f }

/-- A protocol error found at an engine's or a bridge's end: its router's position reports it. -/
def State.seEndError (s : State) (k i seq : Nat) : State :=
  match (s.engine k).ends[i]? with
  | none => s
  | some e => ((s.protoError (enginePos k) e.region e.stream seq).onSeEnd k i fun x => { x with error := true }).faultRegion e.region endInternal

/-- Units of 64 bytes with their poison. -/
def unitsOf (bs : List Byte) (ps : List Nat) (last : Bool) : Nat → List (List Byte × List Nat × Bool)
  | 0 => []
  | n + 1 => (bs.take 64, poisonSlice ps 0 64, last && n == 0) :: unitsOf (bs.drop 64) (poisonSlice ps 64 4096) last n

/-- A packet reaches a stream engine or a bridge (R236, R242, R256, R352). -/
def State.engineData (s : State) (k : Nat) (p : MeshPacket) : State :=
  match (s.engine k).endOf (hRegion p.hdr) (hTag p.hdr) false with
  | none => s.strayPacket (enginePos k) p
  | some i =>
    match (s.engine k).ends[i]? with
    | none => s
    | some e =>
      let n := p.payload.length / 64
      if hUnitSeq p.hdr ≠ e.nextSeq % 65536 ∨ e.bound < e.inbox.length + n then s.seEndError k i (hUnitSeq p.hdr)
      else (s.correctAt (enginePos k) p fun g => 8 * g).onSeEnd k i fun x => { x with nextSeq := x.nextSeq + n, inbox := x.inbox ++ unitsOf p.payload p.poison (hLast p.hdr) n }
def State.engineCredit (s : State) (k : Nat) (p : MeshPacket) : State :=
  match (s.engine k).endOf (hRegion p.hdr) (hTag p.hdr) true with
  | none => s.strayPacket (enginePos k) p
  | some i =>
    match (s.engine k).ends[i]? with
    | none => s
    | some e =>
      let n := hCredits p.hdr
      if e.leaves.isEmpty then
        (if e.bound < e.credits + n then s.seEndError k i (hUnitSeq p.hdr)
        else s.onSeEnd k i fun x => { x with credits := x.credits + n })
      else
        let src := hSrcPy p.hdr * 68 + hSrcPx p.hdr
        let b := match s.ctxOfRegion src e.region with
          | some c => match (s.ctx src c).endOf e.stream 0 with
            | some j => ((s.ctx src c).streams[j]?.map StreamEnd.slots).getD 0
            | none => 0
          | none => 0
        if b < mapGet 0 e.leaves src + n then s.seEndError k i (hUnitSeq p.hdr)
        else s.onSeEnd k i fun x => { x with leaves := mapPut x.leaves src (mapGet 0 x.leaves src + n) }

/-- A packet enters the mesh from an engine's or a bridge's link. -/
def State.engineSend (s : State) (k : Nat) (p : MeshPacket) : State :=
  s.enter (enginePos k) (some (enginePort k)) p

/-- Return the credits of places an engine has freed (R241). -/
def State.seReturn (s : State) (k i : Nat) : State :=
  match (s.engine k).ends[i]? with
  | none => s
  | some e =>
    if e.freed = 0 then s
    else
      let s1 := s.onSeEnd k i fun x => { x with freed := 0, firstFree := none }
      s1.engineSend k (crdPacket (enginePos k) e.pos e.region e.stream (e.freedSeq + 65535) e.freed)

/-- An engine frees places of an inbound stream; four of them return their credits. -/
def State.seFreed (s : State) (k i n : Nat) : State :=
  let s1 := s.onSeEnd k i fun x => { x with
    freed := x.freed + n
    freedSeq := (x.freedSeq + n) % 65536
    firstFree := match x.firstFree with | some t => some t | none => some s.tb }
  match (s1.engine k).ends[i]? with
  | some e => if 4 ≤ e.freed then s1.seReturn k i else s1
  | none => s1

/-! ### Commands -/

/-- The packet is the oldest of its network in a receive buffer, or is not there: buffers are first in, first out (R118, R263). -/
def firstOf (l : List MeshPacket) (p : MeshPacket) : Bool :=
  !l.contains p || (l.find? fun q => vnIndex q.hdr == vnIndex p.hdr) == some p
/-- The packet may be taken from where it waits at a position. -/
def State.mayTake (s : State) (pos : Nat) (p : MeshPacket) : Bool := firstOf (s.localBuffer pos p) p
/-- Take a packet that waits at a position's Local port or at its engine: the engine, if it went there. -/
def State.takePacket (s : State) (pos : Nat) (p : MeshPacket) : State × Option Nat :=
  match engineAt pos with
  | some k =>
    if s.grid.toEngine.contains (k, p) then
      ({ s with grid := { s.grid with toEngine := s.grid.toEngine.erase (k, p) } }.freedLocal pos, some k)
    else (s.takeLocal pos p, none)
  | none => (s.takeLocal pos p, none)

/-- The instant at which 16 fc have passed since a release, if it is still to come. -/
def State.after16 (s : State) (from_ : Option Dword) : State :=
  match from_ with
  | some t => s.advance (t + BitVec.ofNat 64 (s.nsOfFc 16))
  | none => s
/-- CRD_TIMER_RETURN (R241): 16 fc have passed since the first release not returned, at record `i` of context `n` of a position, or,
with `n` 4 or more, at end `i` of engine `pos`. -/
def execCrdTimerReturn (pos n i : Nat) (s : State) : Host.Outcome State Fault Refusal := s.onGrid <|
  if n < 4 then
    match (s.ctx pos n).streams[i]? with
    | some e =>
      if e.dir = 0 ∧ 0 < e.credits then .next ((s.after16 e.firstFree).returnCredits pos n i) else s.passOver "no release is outstanding"
    | none => s.passOver "no such stream end"
  else
    match (s.engine pos).ends[i]? with
    | some e => if !e.out ∧ 0 < e.freed then .next ((s.after16 e.firstFree).seReturn pos i) else s.passOver "no release is outstanding"
    | none => s.passOver "no such stream end"

/-- Transfer size of a stream in bytes (R249, R250, Table 11.11); 64 for the kinds to which the spec gives none. -/
def StreamEnd.xfer (e : StreamEnd) : Nat :=
  if e.kind = 0 then fieldAt e.param 2 2
  else if e.kind = 1 then min 1024 (64 * ((bitsOf (fieldAt e.param 2 4) 18 0 + 63) / 64))
  else if e.kind = 4 then fieldAt e.param 6 2
  else 64

/-- The network of Table 8.4. -/
def StreamEnd.network (e : StreamEnd) : Nat := if e.slotSets = 0 ∧ e.xfer ≤ 256 then 2 else 0

/-- The units of an outbound buffer from position `rd`, with their poisoned granules. -/
def State.takeUnits (s : State) (pos n i : Nat) : Nat → State × List Byte × List Nat
  | 0 => (s, [], [])
  | k + 1 =>
    let c := s.ctx pos n
    match c.streams[i]? with
    | none => (s, [], [])
    | some e =>
      let j := e.rd % max e.slots 1
      let o := c.base * 1024 + e.bufOff + 64 * j
      let (s1, bs, ps) := s.spRead pos o 64
      let s2 := s1.onEnd pos n i fun x => { x with
        rd := x.rd + 1
        credits := x.credits - 1
        nextSeq := (x.nextSeq + 1) % 65536
        filled := mapSet 0 x.filled j 0 }
      let (s3, rest, qs) := s2.takeUnits pos n i k
      (s3, bs ++ rest, ps.map (· - o / 8) ++ qs.map (· + 8))

/-- The number of units of the next packet of a producer end (R240): a whole transfer, or after the last write what is left; 0: none. -/
def StreamEnd.sendable (e : StreamEnd) : Nat :=
  let full := min (min 1024 e.xfer / 64) e.slots
  let ready := e.wr - e.rd
  if full ≤ ready then full else if e.lastDue then ready else 0
/-- `k` units of a producer end leave in a packet to its peer (position, REGION, STREAM_ID), the last one marked where nothing is left. -/
def State.sendUnits (s : State) (pos n i : Nat) (e : StreamEnd) (peer : Nat × Nat × Nat) (k : Nat) : State :=
  let last := e.lastDue && e.wr - e.rd == k
  let (s1, bs, ps) := s.takeUnits pos n i k
  let s2 := s1.onEnd pos n i fun x => { x with lastDue := x.lastDue && !last }
  s2.inject pos (.data (mkHeader peer.1 pos e.network false 0 peer.2.1 peer.2.2 (e.nextSeq % 65536 + b2n last * 65536) bs.length) bs ps)
/-- STREAM_UNIT_SEND (R236, R240, R247, R250, R262): the producer end `i` of context `n` sends its next packet. -/
def execStreamUnitSend (pos n i : Nat) (s0 : State) : Host.Outcome State Fault Refusal := s0.onGrid <|
  let s := s0.settleFin pos n
  match (s.ctx pos n).streams[i]? with
  | none => s.passOver "no such stream end"
  | some e =>
    match e.peer with
    | none => s.passOver "the peer is not bound"
    | some peer =>
      if e.dir ≠ 1 ∨ e.sendable = 0 ∨ e.credits < e.sendable then s.passOver "no packet of this stream may be sent"
      else .next (s.sendUnits pos n i e peer e.sendable)

end Sys2Proof.Machine
end

