-- ==== Sys2Proof/Machine/Tyzil.lean ====
section
/-! DEFINITION. Tyzil packets, ports and routing, and the Ethernet gateways' sending side (R331 to R351, R370, R371). -/
namespace Sys2Proof.Machine

/-! ### Packet header fields (Table 11.8) -/

def TyzPkt.dstDev (p : TyzPkt) : Nat := fieldAt p.bytes 0 2 % 8192
def TyzPkt.dstDom (p : TyzPkt) : Nat := fieldAt p.bytes 0 2 / 8192
def TyzPkt.srcDev (p : TyzPkt) : Nat := fieldAt p.bytes 2 2 % 8192
def TyzPkt.srcDom (p : TyzPkt) : Nat := fieldAt p.bytes 2 2 / 8192
def TyzPkt.op (p : TyzPkt) : Nat := fieldAt p.bytes 4 1
def TyzPkt.tc (p : TyzPkt) : Nat := bitsOf (fieldAt p.bytes 5 1) 1 0
def TyzPkt.esc (p : TyzPkt) : Nat := bitsOf (fieldAt p.bytes 5 1) 2 2
def TyzPkt.waypoints (p : TyzPkt) : Nat := bitsOf (fieldAt p.bytes 5 1) 4 3
def TyzPkt.hop (p : TyzPkt) : Nat := bitsOf (fieldAt p.bytes 6 1) 4 0
def TyzPkt.nhops (p : TyzPkt) : Nat := bitsOf (fieldAt p.bytes 7 1) 4 0
def TyzPkt.route (p : TyzPkt) : Nat := fieldAt p.bytes 8 12
def TyzPkt.escMask (p : TyzPkt) : Nat := fieldAt p.bytes 20 3
def TyzPkt.len (p : TyzPkt) : Nat := fieldAt p.bytes 24 2
def TyzPkt.tag (p : TyzPkt) : Nat := fieldAt p.bytes 26 2 % 4096
def TyzPkt.arg (p : TyzPkt) : Nat := fieldAt p.bytes 28 8
def TyzPkt.payload (p : TyzPkt) : List Byte := p.bytes.drop 40
/-- Poisoned granules of the payload. -/
def TyzPkt.payPoison (p : TyzPkt) : List Nat := (p.poison.filter fun g => decide (5 ≤ g)).map (· - 5)
/-- Payload bytes that follow a header; a RD_REQ carries none (Table 11.8). -/
def payLen (hdr : List Byte) : Nat := if fieldAt hdr 4 1 = 2 then 0 else fieldAt hdr 24 2
/-- Flits of a packet (R338). -/
def TyzPkt.flits (p : TyzPkt) : Nat := (p.bytes.length + 239) / 240

/-- A packet with a fresh header: no route yet. -/
def tyzPacket (dstDev dstDom srcDev srcDom op tc len tag arg : Nat) (payload : List Byte) (poison : List Nat) : TyzPkt :=
  ⟨leBytes 2 (dstDev % 8192 + dstDom % 8 * 8192) ++ leBytes 2 (srcDev % 8192 + srcDom % 8 * 8192) ++ leBytes 1 op ++ leBytes 1 (tc % 4)
    ++ List.replicate 18 0 ++ leBytes 2 len ++ leBytes 2 (tag % 4096) ++ leBytes 8 arg ++ List.replicate 4 0 ++ payload,
    poison.map (· + 5), 16⟩
def TyzPkt.set (p : TyzPkt) (o : Nat) (bs : List Byte) : TyzPkt := { p with bytes := listBlit p.bytes o bs }
/-- TC, ESC and WAYPOINTS replaced. -/
def TyzPkt.setClass (p : TyzPkt) (esc way : Nat) : TyzPkt := p.set 5 (leBytes 1 (p.tc + esc % 2 * 4 + way % 4 * 8))

/-! ### Ports -/

def State.port (s : State) (n : Nat) : TyzPort := mapGet TyzPort.zero s.tyz.ports n
def State.setPort (s : State) (n : Nat) (p : TyzPort) : State := { s with tyz := { s.tyz with ports := mapSet TyzPort.zero s.tyz.ports n p } }
def State.portState (s : State) (n : Nat) : Nat := s.fld (pgTyz n) R.tyz_STS % 8
def State.portGen (s : State) (n : Nat) : Nat := bitsOf (s.fld (pgTyz n) R.tyz_STS) 5 4
/-- In service: UP, SPARED or HALF, and not waiting for a tick (R333). -/
def State.portServes (s : State) (n : Nat) : Bool :=
  (s.portState n == 2 || s.portState n == 3 || s.portState n == 4) && !(s.port n).due
/-- A port has trained: it is UP, SPARED, HALF or, since then, LOST. -/
def State.portTrained (s : State) : Bool := (List.range 16).any fun n => decide (2 ≤ s.portState n)
def ownDev (s : State) : Nat := s.fld (pgTyz 0) R.tyz0_DEV_ID
def ownDom (s : State) : Nat := s.fld (pgTyz 0) R.tyz0_DOM_ID

/-- Bounds of the receive channels (Table 11.5), by channel 2·TC + ESC. -/
def channelBound (ch : Nat) : Nat := if ch / 2 = 0 then 512 else if ch / 2 = 3 then 32 else 128

/-- A flit (Table 11.4). -/
def flitBytes (fseq type ack crdCh crdN : Nat) (payload : List Byte) (poison : Nat) : List Byte :=
  let b := leBytes 2 (fseq % 4096 + type * 4096) ++ leBytes 2 (ack % 4096) ++ leBytes 1 crdCh ++ leBytes 2 crdN ++ [0] ++ takePad 0 240 payload
    ++ leBytes 4 poison
  b ++ leBytes 4 (crc32 b)
/-- The ACK a port sends: the last FSEQ received in order. -/
def TyzPort.ack (p : TyzPort) : Nat := (p.rxSeq + 4095) % 4096

/-- Send an IDLE flit: acknowledgement and credit (R337). -/
def State.sendIdle (s : State) (n crdCh crdN : Nat) : State :=
  let p := s.port n
  s.emit (.tyzil n (flitBytes p.txSeq 1 p.ack crdCh crdN [] 0))
def State.sendNak (s : State) (n : Nat) : State :=
  let p := s.port n
  s.emit (.tyzil n (flitBytes p.txSeq 3 p.ack 0 0 [] 0))

/-- The flow key of a packet that may hold a reservation: the BIND_KEY of a STREAM packet. -/
def TyzPkt.flowKey (p : TyzPkt) : Option Nat := if p.op = 0 then some (p.arg / 2 ^ 32) else none

/-- The reserved flow of a packet has allowance left in the frame (R342). -/
def TyzPort.allowed (p : TyzPort) (q : TyzPkt) : Bool :=
  match q.flowKey with
  | none => false
  | some k => match p.rsvTx.find? fun e => e.1 == k with
    | none => false
    | some (_, b) => decide (mapGet 0 p.rsvUsed k + q.bytes.length ≤ b)

/-- A packet's channel has credit for its flits, and the replay buffer has room. -/
def TyzPort.ready (p : TyzPort) (q : TyzPkt) : Bool :=
  let ch := 2 * q.tc + q.esc
  decide (mapGet 0 p.used ch + q.flits ≤ channelBound ch) && decide (p.replay.length + q.flits ≤ 2048)

/-- Service class in the round-robin of the second tier: TC3, TC2, promoted TC0; 3 TC1; 4 TC0. -/
def tierOf (e : TyzPkt × Bool) : Nat := if e.1.tc = 3 then 0 else if e.1.tc = 2 then 1 else if e.2 then 2 else if e.1.tc = 1 then 3 else 4

/-- The packet a port sends next (R342). -/
def TyzPort.next (p : TyzPort) : Option (TyzPkt × Bool) :=
  let ok := p.queue.filter fun e => p.ready e.1
  let rsv := ok.filter fun e => p.allowed e.1
  match rsv.find? fun e => e.1.flowKey != some p.lastKey with
  | some e => some e
  | none =>
    match rsv.head? with
    | some e => some e
    | none =>
      let rr := [(p.lastTier + 1) % 3, (p.lastTier + 2) % 3, p.lastTier % 3, 3, 4]
      rr.findSome? fun t => ok.find? fun e => tierOf e == t

/-- Flits of a packet: payload bytes and poison masks. -/
def flitParts (bs : List Byte) (ps : List Nat) : Nat → List (List Byte × Nat)
  | 0 => []
  | n + 1 => (bs.take 240, ((ps.filter (· < 30)).eraseDups).foldl (fun a g => a + 2 ^ g) 0)
      :: flitParts (bs.drop 240) ((ps.filter fun g => decide (30 ≤ g)).map (· - 30)) n

/-- Send one DATA flit. -/
def State.sendFlit (s : State) (n ch : Nat) (part : List Byte × Nat) : State :=
  let p := s.port n
  let f := flitBytes p.txSeq 0 p.ack 0 0 part.1 part.2
  (s.setPort n { p with
    txSeq := (p.txSeq + 1) % 4096
    replay := p.replay ++ [(p.txSeq, f)]
    used := mapSet 0 p.used ch (mapGet 0 p.used ch + 1) }).emit (.tyzil n f)

/-- Send waiting packets while one is ready. -/
def State.pumpPort (s : State) (n : Nat) : Nat → State
  | 0 => s
  | fuel + 1 =>
    let p := s.port n
    if !s.portServes n || p.retraining then s
    else
      match p.next with
      | none => s
      | some e =>
        let q := e.1
        let p1 := { p with
          queue := p.queue.erase e
          lastTier := if p.allowed q then p.lastTier else if tierOf e < 3 then tierOf e else p.lastTier
          lastKey := if p.allowed q then q.flowKey.getD 0 else p.lastKey
          rsvUsed := if p.allowed q then mapSet 0 p.rsvUsed (q.flowKey.getD 0) (mapGet 0 p.rsvUsed (q.flowKey.getD 0) + q.bytes.length)
            else p.rsvUsed }
        ((flitParts q.bytes q.poison q.flits).foldl (fun t x => t.sendFlit n (2 * q.tc + q.esc) x) (s.setPort n p1)).pumpPort n fuel
/-- Hand a packet to a port. -/
def State.portSend (s : State) (n : Nat) (q : TyzPkt) : State :=
  let p := s.port n
  (s.setPort n { p with queue := p.queue ++ [(q, false)] }).pumpPort n (p.queue.length + 1)

/-! ### Gateways (R370, R371, R627) -/

def State.peer (s : State) (d : Nat) : EthPeer := mapGet EthPeer.zero s.peers d
def State.setPeer (s : State) (d : Nat) (p : EthPeer) : State := { s with peers := mapSet EthPeer.zero s.peers d p }
/-- The port that carries domain `d`: E0 where both do (R627). -/
def State.peerPort (s : State) (d : Nat) : Option Nat :=
  [0, 1].find? fun k => s.flag (pgEth k) (R.eth_PEER0_CTL_PORT.up (0x20 * d))
def State.peerUp (s : State) (d : Nat) : Bool :=
  match s.peerPort d with
  | some k => s.flag (pgEth k) (R.eth_PEER0_CTL_UP.up (0x20 * d))
  | none => false

/-- An encapsulated datagram (Table 11.17). -/
def encap (flags src dst pseq pack crdCh crdN : Nat) (bs : List Byte) : List Byte :=
  leBytes 2 0x5A54 ++ leBytes 1 1 ++ leBytes 1 flags ++ leBytes 1 (src % 8 + dst % 8 * 16) ++ [0] ++ leBytes 2 bs.length ++ leBytes 4 pseq
    ++ leBytes 4 pack ++ leBytes 1 crdCh ++ leBytes 2 crdN ++ List.replicate 5 0 ++ bs

/-- Units of 256 bytes of a packet. -/
def units256 (n : Nat) : Nat := (n + 255) / 256

/-- Emit a datagram on the port of a domain. -/
def State.ethEmit (s : State) (d key : Nat) (bs : List Byte) : State :=
  match s.peerPort d with
  | none => s
  | some k => (s.emit (.eth k d (49152 + key % 16384) (s.fld (pgEth k) R.eth_UDP) bs)).bump (pgEth k) R.eth_TX_DGRAM 0 1

/-- The key that gives a datagram its source port (R370): the BIND_KEY of the stream packet it carries. -/
def dgramKey (b : List Byte) : Nat := if fieldAt b 6 2 ≠ 0 ∧ fieldAt b 28 1 ≤ 1 then fieldAt b 56 4 else 0

/-- Send the waiting packets of a domain, one a datagram, within window and credits. -/
def State.pumpPeer (s : State) (d : Nat) : Nat → State
  | 0 => s
  | fuel + 1 =>
    let p := s.peer d
    match p.waiting with
    | [] => s
    | q :: r =>
      let ch := 2 * q.tc + q.esc
      if 4096 ≤ p.unacked.length ∨ channelBound ch < mapGet 0 p.used ch + units256 q.bytes.length then s
      else
        let b := encap 0 (ownDom s) d p.nextSeq ((p.expect + 0xFFFFFFFF) % 2 ^ 32) 0 0 q.bytes
        ((s.setPeer d { p with
          waiting := r
          nextSeq := (p.nextSeq + 1) % 2 ^ 32
          unacked := p.unacked ++ [(p.nextSeq, b)]
          used := mapSet 0 p.used ch (mapGet 0 p.used ch + units256 q.bytes.length) }).ethEmit d (dgramKey b) b).pumpPeer d fuel
def State.gatewaySend (s : State) (d : Nat) (q : TyzPkt) : State :=
  let p := s.peer d
  (s.setPeer d { p with waiting := p.waiting ++ [q] }).pumpPeer d (p.waiting.length + 1)

/-! ### Routing (R347 to R349) -/

/-- The route entry for a device in a table, where VALID. -/
def State.routeEntry (s : State) (table dev : Nat) : Option Nat :=
  let e := mapGet 0 s.tyz.routes (table * 8192 + dev)
  if bitOf e 127 then some e else none
/-- The entry rule 4 takes: the primary, or the alternate where the primary's first port is not in service. -/
def State.pickRoute (s : State) (dev : Nat) : Option Nat :=
  let good := fun (e : Option Nat) => match e with | some x => if s.portServes (x % 16) && decide (0 < bitsOf x 124 120) then some x else none | none => none
  match good (s.routeEntry 0 dev) with
  | some e => some e
  | none => good (s.routeEntry 1 dev)
/-- Copy an entry into a header and set HOP to 0. -/
def TyzPkt.withRoute (p : TyzPkt) (e : Nat) : TyzPkt :=
  (((p.set 8 (leBytes 12 e)).set 20 (leBytes 3 (e / 2 ^ 96))).set 6 [0]).set 7 (leBytes 1 (bitsOf e 124 120))
/-- Rule 3: send on port ROUTE[HOP] with its escape bit. -/
def State.followRoute (s : State) (p : TyzPkt) : State :=
  let h := p.hop
  let n := bitsOf p.route (4 * h + 3) (4 * h)
  s.portSend n ((p.setClass (b2n (bitOf p.escMask h)) p.waypoints).set 6 (leBytes 1 (h + 1)))
def State.unroutable (s : State) : State := (s.bump (pgTyz 0) R.tyz0_UNROUTABLE 3 1).event (pgTyz 0) 4
/-- Rule 4: take a route of this device's own; at injection WAYPOINTS stays. -/
def State.takeRoute (s : State) (p : TyzPkt) (dev : Nat) (inject : Bool) : State :=
  if !inject && p.waypoints == 3 then s.unroutable
  else
    match s.pickRoute dev with
    | none => s.unroutable
    | some e => s.followRoute ((p.withRoute e).setClass p.esc (if inject then p.waypoints else p.waypoints + 1))
/-- The device within this domain to which a packet goes: its destination, or the gateway of its domain (R370). -/
def State.towards (s : State) (p : TyzPkt) : Option Nat :=
  if p.dstDom = ownDom s then some p.dstDev
  else
    let g := R.tyz0_DOM_GW_DEV.up (4 * p.dstDom)
    if s.flag (pgTyz 0) (R.tyz0_DOM_GW_VALID.up (4 * p.dstDom)) then some (s.fld (pgTyz 0) g) else none
/-- Forward a packet that is not delivered here (R348 rules 2 to 4). -/
def State.forward (s : State) (p : TyzPkt) (inject : Bool) : State :=
  match s.towards p with
  | none => s.unroutable
  | some dev =>
    if p.dstDom ≠ ownDom s ∧ dev = ownDev s then s.gatewaySend p.dstDom p
    else if !inject && decide (p.hop < p.nhops) && s.portServes (bitsOf p.route (4 * p.hop + 3) (4 * p.hop)) then s.followRoute p
    else s.takeRoute p dev inject

/-- A collective contribution is taken at every device on its way (R360), unless ORPHAN is set. -/
def TyzPkt.contributes (p : TyzPkt) : Bool := decide (0x11 ≤ p.op) && decide (p.op ≤ 0x14) && !bitOf p.arg 35
/-- Inject or forward a packet, or deliver it here (R348, R360). -/
def State.routePacket (s : State) (p : TyzPkt) (inject : Bool) : State :=
  if p.contributes ∨ (p.dstDom = ownDom s ∧ p.dstDev = ownDev s) then { s with tyz := { s.tyz with delivered := s.tyz.delivered ++ [p] } }
  else s.forward p inject

/-- A packet of this device's own. -/
def State.sendTyz (s : State) (dstDev dstDom op tc len tag arg : Nat) (payload : List Byte) (poison : List Nat) : State :=
  s.routePacket (tyzPacket dstDev dstDom (ownDev s) (ownDom s) op tc len tag arg payload poison) true

/-- Poisoned 8-byte granules of bytes read in pieces. -/
def piecePoison (ps : List (List Byte × Bool)) : List Nat :=
  (ps.foldl (fun (a : Nat × List Nat) p =>
    let n := p.1.length
    (a.1 + n, if p.2 then a.2 ++ (List.range (granulesOf a.1 n)).map (· + a.1 / 8) else a.2)) (0, [])).2.eraseDups

end Sys2Proof.Machine
end

