-- ==== Sys2Proof/Machine/Discipline.lean ====
section
/-! DEFINITION. The discipline of the timebase, FRAME_SYNC_IN, tick alignment over Tyzil and PTP, and the frame engine's enable
(R19 to R23, R30, R49 to R56, R363 to R368, R373, R600, R649). -/
namespace Sys2Proof.Machine

def frameSts : Nat := pgFrame * 0x1000 + 0x80
def State.alignLost (s : State) : Bool := s.regBit frameSts 2
/-- The frame engine is enabled by FRAME.CTL.ENABLE. -/
def State.enabled (s : State) : Bool := s.flag pgFrame R.hdr_CTL_ENABLE

/-- This device is its own root (R363). -/
def State.selfRoot (s : State) : Bool := bitOf (s.fld (pgTyz 0) R.tyz0_ALIGN2) 4
def State.parentPort (s : State) : Nat := s.fld (pgTyz 0) R.tyz0_ALIGN2 % 16

/-- The discipline source: 0 none, 1 PTP, 2 DOMAIN, 3 FRAME_SYNC_IN (R19, R49). Whether the device is its own root and whether ALIGN takes
effect are as the last tick found them (R55, R363). -/
def State.discSource (s : State) : Nat :=
  let sel := s.fld pgFrame R.frame_TB_SRC
  if sel = 1 then 1 else if sel = 2 ∧ !s.disc.ownRoot then 2
  else if s.fld pgFrame R.frame_SYNC_MODE = 2 ∧ s.disc.pinAligns then 3 else 0
/-- The discipline source is no longer `was`: the new one has 10 ms to deliver (R23), the loss of the old one ends, and with no source the
offset reads 0 and no adjustment stands (R49). -/
def State.sourceChanged (s : State) (was : Nat) : State :=
  if s.discSource = was then s
  else
    let s1 := { s with disc := { s.disc with
      lastValid := s.tb
      srcLost := false
      byHoldover := false
      rate := 0
      left := 0 } }.setRegBit frameSts 4 false
    if s1.discSource = 0 then s1.setFld pgFrame R.frame_ALIGN_OFFSET_NS 0 else s1

/-- ALIGN_LOST is set (R50). -/
def State.setAlignLost (s : State) : State :=
  let s1 := { s with disc := { s.disc with okTicks := 0 } }
  if s.alignLost then s1 else ((s1.setRegBit frameSts 2 true).event pgFrame 1).setCause 6 true

/-- Limit an offset to half a period (R49). -/
def State.limitOffset (s : State) (x : Int) : Int :=
  let h : Int := (s.periodNs / 2 : Nat)
  max (-h) (min h x)
def State.offsetNs (s : State) : Int := signed 32 (s.fld pgFrame R.frame_ALIGN_OFFSET_NS)
def State.withinLimit (s : State) : Bool := decide (s.offsetNs.natAbs ≤ s.fld pgFrame R.frame_ALIGN_LIMIT_NS)

/-- The largest adjustment, in parts per 10⁹ (R20). -/
def State.slewMax (s : State) : Nat := s.fld pgFrame R.frame_TB_CFG * 1000
/-- The size of the adjustment that removes an offset of `n` ns (R20, Table 2.2): none for 0; the limit where one frame at the limit does not
remove it; else any within the limit, as the spec fixes none. -/
def State.slewFor (s : State) (n : Nat) : State × Nat :=
  if n = 0 then (s, 0)
  else if s.periodNs * s.slewMax ≤ n * 10 ^ 9 then (s, s.slewMax)
  else
    let (v, s1) := s.takeFree
    (s1, 1 + v.toNat % max s.slewMax 1)
/-- The device begins to remove an offset, only by its rate (R20). A parent's offset (R365) is how far the parent is ahead, that of an
edge or of PTP how far this device is ahead (log entry 83). -/
def State.slew (s : State) (x : Int) : State :=
  let (s1, m) := s.slewFor x.natAbs
  let up := if s1.discSource = 2 then decide (0 < x) else decide (x < 0)
  { s1 with disc := { s1.disc with
    rate := if up then (m : Int) else -(m : Int)
    left := x } }
/-- A frame has passed: what the adjustment has removed is gone, and it ends with the offset. During a loss it is held (R23). -/
def State.slewTick (s : State) : State :=
  if s.disc.srcLost then s
  else
    let step : Nat := (s.periodNs * s.disc.rate.natAbs + 10 ^ 9 - 1) / 10 ^ 9
    let rest := s.disc.left.natAbs - step
    { s with disc := { s.disc with
      left := if 0 ≤ s.disc.left then (rest : Int) else -(rest : Int)
      rate := if rest = 0 then 0 else s.disc.rate } }

/-- A valid measurement of the discipline source (R20, R23, R49, R50). -/
def State.measure (s : State) (x : Int) : State :=
  let y := s.limitOffset x
  let s1 := (s.setFld pgFrame R.frame_ALIGN_OFFSET_NS (wrapInt 32 y)).setRegBit frameSts 4 false
  let s2 := { s1 with disc := { s1.disc with
    lastValid := s1.tb
    srcLost := false
    byHoldover := false } }
  let s3 := s2.slew y
  if s3.withinLimit then { s3 with disc := { s3.disc with byOffset := false } }
  else { s3.setAlignLost with disc := { s3.setAlignLost.disc with byOffset := true } }

/-- The discipline source is lost at this instant (R23): TB_LOST, its event, and for PTP the port's SYNCED and event. -/
def State.sourceLost (t : State) : State :=
  let t1 := (t.setRegBit frameSts 4 true).event pgFrame 0
  let k := if t.flag (pgEth 0) R.eth_PTP_EN then 0 else 1
  let t2 := if t.discSource = 1 then (t1.setRegBit (pgEth k * 0x1000 + 0x4C) 3 false).event (pgEth k) 2 else t1
  { t2 with disc := { t2.disc with srcLost := true, lostAt := t2.tb } }
/-- TB_SRC_LOST (R23): the source has delivered no valid measurement for 10 ms. -/
def execTbSrcLost (at_ : Dword) (s : State) : Host.Outcome State Fault Refusal :=
  let t := s.advance at_
  if t.discSource = 0 ∨ t.disc.srcLost ∨ !t.frameOn ∨ (t.tb - t.disc.lastValid).toNat < 10000000 then s.passOver "the source is not lost"
  else .next t.sourceLost

/-- HOLDOVER_EXPIRE (R23, R50). -/
def execHoldoverExpire (at_ : Dword) (s : State) : Host.Outcome State Fault Refusal :=
  let t := s.advance at_
  if !t.disc.srcLost ∨ t.disc.byHoldover ∨ (t.tb - t.disc.lostAt).toNat < t.fld pgFrame R.frame_ALIGN_HOLDOVER_MS * 1000000 then
    s.passOver "holdover has not expired"
  else .next { t.setAlignLost with disc := { t.setAlignLost.disc with byHoldover := true } }

/-- The parent's values differ from this device's (R366): a device that is its own root, or whose parent's port is out of service, has no
parent that differs. -/
def State.mismatched (s : State) : Bool := s.tyz.mismatch && !s.selfRoot && s.portServes s.parentPort
/-- A tick counts towards recovery while the offset is within its limit and neither a loss nor a mismatch goes on (R52; log entry 83). -/
def State.countOkTick (s : State) : State :=
  let ok := s.withinLimit && !s.disc.srcLost && !s.mismatched
  { s with disc := { s.disc with okTicks := if ok then s.disc.okTicks + 1 else 0 } }

/-- ALIGN_RECOVER (R52): 16 consecutive ticks within the limit. -/
def execAlignRecover (s : State) : Host.Outcome State Fault Refusal :=
  if s.alignLost ∧ 16 ≤ s.disc.okTicks then .next ((s.setRegBit frameSts 2 false).setCause 6 false)
  else s.passOver "16 ticks within the limit have not passed"

/-- The number of the next tick (R30): one more than COUNT, or after a stop the first instant strictly after the resume instant. -/
def State.nextTick (s : State) : Nat :=
  match s.sys.resumeAt with
  | none => (s.frameNo + 1) % 2 ^ 64
  | some t =>
    let d := (t - BitVec.ofNat 64 s.epoch).toInt
    ((d / (max s.periodNs 1 : Nat) + 1) % (2 ^ 64 : Nat)).toNat
/-- The local tick nearest to an instant, the later of two (R56): the last tick or the next one, or before the first tick after a stop that
tick, since none has fired before it. -/
def State.nearestTick (s : State) (at_ : Dword) : Nat :=
  let n := s.nextTick
  if s.sys.resumeAt.isSome then n
  else if (s.periodNs : Int) ≤ 2 * (at_ - s.tickAt s.frameNo).toInt then n
  else if 2 * (at_ - s.tickAt s.frameNo).toInt < -(s.periodNs : Int) then (s.frameNo + (2 ^ 64 - 1)) % 2 ^ 64 else s.frameNo
/-- FRAME_SYNC_IN_EDGE (R54, R56): an edge at `at_` belongs to the nearest tick, the later of two. -/
def execFrameSyncInEdge (at_ : Dword) (s : State) : Host.Outcome State Fault Refusal :=
  let t := s.advance at_
  if t.fld pgFrame R.frame_SYNC_MODE = 0 ∨ !t.frameOn then .next t
  else
    let n := t.nearestTick at_
    .next { t with disc := { t.disc with edges := t.disc.edges ++ [(at_, n, (at_ - t.tickAt n).toInt)] } }

/-- Saturate to 32 bits. -/
def sat32 (x : Int) : Nat := wrapInt 32 (max (-2147483648) (min 2147483647 x))

/-- The edges of tick `n`, of which `e` is the oldest, are judged: the one nearest to the tick, the earliest of equals, is used; each other one
is an error with its saturated offset (R56, R649). -/
def State.useEdge (t : State) (n : Nat) (e : Dword × Nat × Int) : State :=
  let mine := t.disc.edges.filter fun x => x.2.1 == n
  let used := mine.foldl (fun a x => if x.2.2.natAbs < a.2.2.natAbs then x else a) e
  let t1 := { t with disc := { t.disc with edges := t.disc.edges.filter fun x => x.2.1 != n } }
  let t2 : State := (mine.erase used).foldl (fun (a : State) x => a.pageError pgFrame 0x98 0xF 0x11 (BitVec.ofNat 32 (sat32 x.2.2))) t1
  let t3 := t2.setFld pgFrame R.frame_SYNC_OFS_NS (sat32 used.2.2)
  if t3.discSource = 3 then t3.measure used.2.2 else t3
/-- SYNC_EDGE_SELECT (R54, R56, R649): the used edge of the oldest tick whose last instant has passed; the others are counted. Edges that
wait when the pin is OFF or the frame engine stops are ignored. -/
def execSyncEdgeSelect (at_ : Dword) (s : State) : Host.Outcome State Fault Refusal :=
  let t := s.advance at_
  match t.disc.edges with
  | [] => s.passOver "no edge waits"
  | e :: _ =>
    let n := e.2.1
    if t.fld pgFrame R.frame_SYNC_MODE = 0 ∨ !t.frameOn then .next { t with disc := { t.disc with edges := [] } }
    else if before t.tb (t.tickAt n + BitVec.ofNat 64 (t.periodNs / 2)) then s.passOver "an edge may still come for this tick"
    else .next (t.useEdge n e)

/-- A write of FRAME.TB or FRAME.EPOCH is ignored while the frame engine is enabled (R21). -/
def State.whenDisabled (s : State) (rq : Req) (off : Nat) (val : Dword) (f : State → State) : State :=
  s.busWrite rq (pgFrame * 0x1000 + off) (BitVec.ofNat 32 (val.toNat / 2 ^ 32)) fun t =>
    if t.enabled then (t.reservedWrite rq.iface pgFrame off (BitVec.ofNat 32 (val.toNat / 2 ^ 32)), resReserved) else (f t, resDone)

/-- TIMEBASE_WRITE (R21): both words of FRAME.TB are committed. -/
def execTimebaseWrite (rq : Req) (val : Dword) (s : State) : Host.Outcome State Fault Refusal :=
  .next (s.whenDisabled rq 0x4C val fun t => t.setTimebase val)
/-- EPOCH_WRITE (R21). -/
def execEpochWrite (rq : Req) (val : Dword) (s : State) : Host.Outcome State Fault Refusal :=
  .next (s.whenDisabled rq 0x74 val fun t => t.setFld64 pgFrame R.frame_EPOCH val.toNat)

/-- FRAME_ENABLE (R30): the first tick is the first instant strictly after the write. -/
def execFrameEnable (rq : Req) (s : State) : Host.Outcome State Fault Refusal :=
  .next (s.busWrite rq (pgFrame * 0x1000 + 8) 1 fun t =>
    if t.enabled then (t, resDone)
    else ({ t.setFld pgFrame R.hdr_CTL_ENABLE 1 with sys := { t.sys with resumeAt := some t.tb } }, resDone))
/-- FRAME_DISABLE (R600). -/
def execFrameDisable (rq : Req) (s : State) : Host.Outcome State Fault Refusal :=
  .next (s.busWrite rq (pgFrame * 0x1000 + 8) 0 fun t => (t.setFld pgFrame R.hdr_CTL_ENABLE 0, resDone))

/-! ### Alignment over Tyzil (R363 to R368) -/

/-- Rank of a device among ROOT0 to ROOT3; 4: not a root. -/
def State.rootRank (s : State) (dev : Nat) : Nat :=
  let r := [s.fld (pgTyz 0) R.tyz0_ALIGN0_ROOT0, s.fld (pgTyz 0) R.tyz0_ALIGN0_ROOT1, s.fld (pgTyz 0) R.tyz0_ALIGN1_ROOT2,
    s.fld (pgTyz 0) R.tyz0_ALIGN1_ROOT3]
  ((List.range 4).find? fun i => r.getD i 0 == dev).getD 4

/-- What the ports in service hear: rank, depth, port, root. -/
def State.announced (s : State) : List (Nat × Nat × Nat × Nat) :=
  (List.range 16).filterMap fun n =>
    match (s.port n).heard with
    | some (root, depth, _) => if s.portServes n ∧ s.rootRank root < 4 then some (s.rootRank root, depth, n, root) else none
    | none => none
/-- The announcement to follow: best root, then least depth, then lowest port. -/
def bestHeard (l : List (Nat × Nat × Nat × Nat)) : Option (Nat × Nat × Nat × Nat) :=
  match l with
  | [] => none
  | x :: xs => some (xs.foldl (fun a b => if b.1 < a.1 ∨ (b.1 = a.1 ∧ b.2.1 < a.2.1) then b else a) x)

/-- This device is a root, and hears none of a higher priority (R363). -/
def State.leads (s : State) : Bool :=
  let own := s.rootRank (ownDev s)
  match bestHeard s.announced with | some b => decide (own < 4) && decide (own ≤ b.1) | none => decide (own < 4)
/-- Choose root and parent anew; report depth and bound (R363, R367). -/
def State.chooseParent (s : State) : State :=
  let best := bestHeard s.announced
  let put := fun (parent self depth root bound : Nat) =>
    ((s.setFld (pgTyz 0) R.tyz0_ALIGN2 (parent + self * 16 + depth % 256 * 256 + root * 65536)).setFld (pgTyz 0) R.tyz0_BOUND_NS bound)
  if s.leads then put 0 1 0 (ownDev s) 8
  else match best with
    | none => s
    | some (_, depth, n, root) =>
      let bound := 8 + ((depth + 1) * (if s.portGen n = 0 then 6 else 3) + 9) / 10
      let s1 := put n 0 (depth + 1) root bound
      if s.fld pgFrame R.frame_ALIGN_LIMIT_NS < bound then s1.event (pgTyz 0) 5 else s1

/-- The ALIGN flit that a port sends now (R364): root and depth, the timebase, the echo of the last flit heard, epoch, period and guard in
force and as pending. -/
def State.alignFlit (t : State) (n : Nat) : AlignFlit :=
  let e := (t.port n).echo
  let a := t.fld (pgTyz 0) R.tyz0_ALIGN2
  ⟨bitsOf a 28 16, bitsOf a 15 8, t.tb, e.1, e.2, BitVec.ofNat 64 t.epoch, t.fld pgFrame R.frame_PERIOD_EFF,
    t.fld pgFrame R.frame_GUARD_EFF, BitVec.ofNat 64 (t.fld64 pgFrame R.frame_PERIOD_AT), t.fld pgFrame R.frame_PERIOD,
    t.fld pgFrame R.frame_GUARD⟩
/-- ALIGN_FLIT_SEND (R364). -/
def execAlignFlitSend (n : Nat) (at_ : Dword) (s : State) : Host.Outcome State Fault Refusal := s.onClock <|
  let t := s.advance at_
  if !t.portServes n then s.passOver "the port is not in service"
  else .next (t.emit (.tyzAlign n (t.alignFlit n)))

/-- Fields in which the parent differs from this device (R366, R649). -/
def State.differs (s : State) (f : AlignFlit) : Nat :=
  b2n (f.epoch.toNat != s.epoch) + b2n (f.period != s.fld pgFrame R.frame_PERIOD_EFF) * 2 + b2n (f.guard != s.fld pgFrame R.frame_GUARD_EFF) * 4
    + b2n (f.periodAt.toNat != s.fld64 pgFrame R.frame_PERIOD_AT) * 8 + b2n (f.pendPeriod != s.fld pgFrame R.frame_PERIOD) * 16
    + b2n (f.pendGuard != s.fld pgFrame R.frame_GUARD) * 32

/-- The sender's offset θ (R365); the half of an odd difference is a free choice of the two neighbours. -/
def State.theta (s : State) (f : AlignFlit) (t4 : Dword) : State × Int :=
  let d := (f.echoRx - f.echoTx).toInt - (t4 - f.tTx).toInt
  let (v, s1) := s.takeFree
  if d % 2 = 0 then (s, d / 2) else (s1, d / 2 + b2n (v.getLsbD 0))

/-- A flit has come in on a port: its echo and announcement are kept, root and parent chosen anew (R363, R364). -/
def State.hearFlit (t : State) (n : Nat) (at_ : Dword) (f : AlignFlit) : State :=
  (t.setPort n { t.port n with
    echo := (f.tTx, at_)
    heard := some (f.root, f.depth, at_) }).chooseParent
/-- The parent's values are compared (R366, R649), and a DOMAIN source measures θ where the flit echoes one of this device's (R365, R368). -/
def State.parentFlit (t1 : State) (n : Nat) (at_ : Dword) (f : AlignFlit) : State :=
  let d := t1.differs f
  let begins := d != 0 && (!t1.tyz.mismatch || t1.disc.compared != some n)
  let t2 := if begins then t1.pageError pgFrame 0x70 0xF 0x10 (BitVec.ofNat 32 (d + n * 256)) else t1
  let t3 := { t2 with
    tyz := { t2.tyz with mismatch := d != 0 }
    disc := { t2.disc with compared := some n } }
  let t4 := if d ≠ 0 then t3.setAlignLost else t3
  if t4.discSource = 2 ∧ ¬(f.echoTx = 0 ∧ f.echoRx = 0) then (t4.theta f at_).1.measure (t4.theta f at_).2 else t4
/-- ALIGN_FLIT_RECEIVE (R363, R365, R366, R368): a flit arrives at port `n` at `at_`. -/
def execAlignFlitReceive (n : Nat) (at_ : Dword) (f : AlignFlit) (s : State) : Host.Outcome State Fault Refusal := s.onClock <|
  let t := s.advance at_
  if !t.portServes n then s.passOver "the port is not in service"
  else
    let t1 := t.hearFlit n at_ f
    if t1.selfRoot then .next { t1 with disc := { t1.disc with compared := none } }
    else if t1.parentPort ≠ n then .next t1
    else .next (t1.parentFlit n at_ f)

/-- The port is synced; the offset counts where PTP is the source and the port is the one it follows (R373). -/
def State.ptpOffset (t : State) (k : Nat) (offset : Int) : State :=
  let t1 := t.setRegBit (pgEth k * 0x1000 + 0x4C) 3 true
  if t1.discSource = 1 ∧ (k = 0 ∨ !t1.flag (pgEth 0) R.eth_PTP_EN) then t1.measure offset else t1
/-- PTP_MESSAGE (R373): the IEEE 1588 exchange on port Ek yields an offset. -/
def execPtpMessage (k : Nat) (at_ : Dword) (offset : Int) (s : State) : Host.Outcome State Fault Refusal := s.onClock <|
  let t := s.advance at_
  if !t.flag (pgEth k) R.eth_PTP_EN ∨ !t.regBit (pgEth k * 0x1000 + 0x4C) 0 then s.passOver "PTP does not run on this port"
  else .next (t.ptpOffset k offset)

end Sys2Proof.Machine
end

