-- ==== Sys2Proof/Machine/TyzLink.lean ====
section
/-! DEFINITION. Tyzil ports and flits, packets routed, aging, route table copies, and the Ethernet ports (R331 to R351, R369 to R371,
R625 to R627). -/
namespace Sys2Proof.Machine

/-! ### Port states (R333 to R336) -/

/-- Ports UP or SPARED, and the cause PORT (Tables 14.12, 21.13). -/
def State.portCounts (s : State) : State :=
  let up := ((List.range 16).filter fun n => (s.portState n == 2 || s.portState n == 3) && !(s.port n).due).length
  (s.setFld (pgTyz 0) R.tyz0_PORTS up).setCause 4 ((List.range 16).any fun n => s.portState n == 4 || s.portState n == 5)
def State.setPortSts (s : State) (n st gen map : Nat) : State :=
  (s.setFld (pgTyz n) R.tyz_STS (st + gen * 16 + map % 512 * 256)).portCounts

def laneMask (ls : List Nat) : Nat := ls.eraseDups.foldl (fun a l => a + 2 ^ l) 0
/-- Lanes in use with these failed: all data lanes; with the spare; the four lowest healthy ones; none. -/
def lanesInUse (failed : List Nat) : Nat :=
  let data := (List.range 8).filter fun l => failed.contains l
  let healthy := (List.range 9).filter fun l => !failed.contains l
  if data.isEmpty then 0xFF
  else if data.length = 1 ∧ !failed.contains 8 then laneMask healthy
  else if 4 ≤ healthy.length then laneMask (healthy.take 4) else 0
/-- The state these failed lanes leave. -/
def laneState (failed : List Nat) : Nat :=
  let m := lanesInUse failed
  if m = 0xFF then 2 else if bitOf m 8 ∧ 8 ≤ ((List.range 9).filter fun l => bitOf m l).length then 3 else if m = 0 then 5 else 4

/-- Traffic that waited for a lost port takes another route (R336, R348 rule 4). -/
def State.rerouteAll (s : State) : List (TyzPkt × Bool) → State
  | [] => s
  | e :: es =>
    (match s.towards e.1 with
    | none => s.unroutable
    | some dev => s.takeRoute e.1 dev false).rerouteAll es

/-- A port enters LOST (R336). -/
def State.portLost (s : State) (n : Nat) : State :=
  let p := s.port n
  let s1 := ((s.setPort n { TyzPort.zero with failed := p.failed }).setPortSts n 5 (s.portGen n) 0).rasReport 2 0x22 (pgTyz n) [n] 0
  (s1.event (pgTyz n) 0).rerouteAll p.queue

/-- Send every unacknowledged flit again. -/
def State.replay (s : State) (n : Nat) : State := (s.port n).replay.foldl (fun (a : State) f => a.emit (.tyzil n f.2)) s

/-- A port starts to retrain under R340. -/
def State.retrain (s : State) (n : Nat) : State :=
  let p := s.port n
  if p.retraining then s else (s.setPort n { p with retraining := true }).bump (pgTyz n) R.tyz_RETRAIN_CNT 2 1

/-- A port awaits training: TRAINING, or DOWN with EN set. -/
def State.trains (s : State) (n : Nat) : Bool := s.portState n == 1 || (s.portState n == 0 && s.flag (pgTyz n) R.tyz_CFG_EN)

/-- A write of TYZn.CFG (R333): EN starts training, or takes the port down. -/
def State.writeTyzCfg (s : State) (i : Iface) (n : Nat) (val : Word) : State × Nat :=
  let (s1, r) := s.plainWrite i (pgTyz n) 0x48 val
  let en := bitOf val.toNat 0
  let s2 := s1.setFld (pgTyz n) R.tyz_CFG_EN (b2n en)
  (if en then (if s2.portState n = 0 then s2.setPortSts n 1 0 0 else s2)
   else ((s2.setPort n { TyzPort.zero with failed := (s2.port n).failed }).setPortSts n 0 0 0), r)

/-- TYZ_PORT_ENABLE (R333). -/
def execTyzPortEnable (rq : Req) (n : Nat) (val : Word) (s : State) : Host.Outcome State Fault Refusal :=
  .next (s.busWrite rq (pgTyz n * 0x1000 + 0x48) val fun t => t.writeTyzCfg rq.iface n val)

/-- A retraining port is in service again and replays (R340). -/
def State.retrained (s : State) (n : Nat) : State :=
  let p := s.port n
  (((s.setPort n { p with retraining := false }).calLanes (9 * n) 9).replay n).pumpPort n (p.queue.length + 1)
/-- TYZ_TRAIN_COMPLETE (R332, R333, R340): the other end advertises `peerGen`. -/
def execTyzTrainComplete (n peerGen : Nat) (s : State) : Host.Outcome State Fault Refusal := s.onClock <|
  let p := s.port n
  if p.retraining then .next (s.retrained n)
  else if s.trains n then
    let g := min (s.fld (pgTyz n) R.tyz_CFG_MAX_GEN) peerGen
    .next ((s.setPortSts n (laneState p.failed) g (lanesInUse p.failed)).calLanes (9 * n) 9)
  else s.passOver "the port is not in training"

/-- TYZ_TRAIN_TIMEOUT (R333): 1 s without success. -/
def execTyzTrainTimeout (n : Nat) (s : State) : Host.Outcome State Fault Refusal := s.onClock <|
  if s.trains n then .next (s.portLost n) else s.passOver "the port is not in training"

/-- TYZ_LOST_RETRAIN (R333): the attempt of a LOST port succeeds or not; success is in service from the next tick. -/
def execTyzLostRetrain (n : Nat) (ok : Bool) (peerGen : Nat) (s : State) : Host.Outcome State Fault Refusal := s.onClock <|
  if s.portState n ≠ 5 then s.passOver "the port is not LOST"
  else if ok then
    .next (((s.setPort n { TyzPort.zero with due := true }).setPortSts n 2 (min (s.fld (pgTyz n) R.tyz_CFG_MAX_GEN) peerGen) 0xFF).calLanes
      (9 * n) 9)
  else .next s

/-- A lane fails (R334, R336): spare, half set, or lost; both ends exchange LANEMAP. -/
def State.laneFail (s : State) (n lane : Nat) : State :=
  let p := s.port n
  let old := s.portState n
  let failed := if p.failed.contains lane then p.failed else p.failed ++ [lane]
  let st := laneState failed
  let s1 := s.setPort n { p with failed := failed }
  if old = 4 ∨ st = 5 then (s1.portLost n).mapRecord false
  else
    let map := lanesInUse failed
    let s2 := ((s1.setPortSts n st (s.portGen n) map).emit (.tyzLaneMap n map)).replay n
    let s3 := if st = 3 ∧ old = 2 then (s2.rasReport 1 0x20 (pgTyz n) [n, lane] 0).event (pgTyz n) 2
      else if st = 4 then (s2.rasReport 2 0x21 (pgTyz n) [n, laneMask failed] 0).event (pgTyz n) 3 else s2
    s3.mapRecord false

/-- TYZ_LANE_FAIL (R334). -/
def execTyzLaneFail (n lane : Nat) (s : State) : Host.Outcome State Fault Refusal := s.onClock <|
  if s.portServes n ∧ lane < 9 then .next (s.laneFail n lane) else s.passOver "the port is not in service"

/-- The first lane that this end uses and a proposed map leaves out. -/
def State.lanesDiffer (s : State) (n map : Nat) : Option Nat :=
  (List.range 8).find? fun l => bitOf (lanesInUse (s.port n).failed) l && !bitOf map l
/-- TYZ_LANEMAP_FLIT (R334): the other end proposes a map; one that is in force already is agreed. -/
def execTyzLanemapFlit (n map : Nat) (s : State) : Host.Outcome State Fault Refusal := s.onClock <|
  if !s.portServes n then s.passOver "the port is not in service"
  else
    match s.lanesDiffer n map with
    | some l => .next (s.laneFail n l)
    | none => .next s

/-! ### Flits (R337 to R343) -/

def flitOk (b : List Byte) : Bool := b.length == 256 && fieldAt b 252 4 == crc32 (b.take 252)

/-- Acknowledgement and credit of a flit (R339, R341). -/
def State.ackCredit (s : State) (n : Nat) (b : List Byte) : State :=
  let p := s.port n
  let a := fieldAt b 2 2 % 4096
  let keep := match p.replay.findIdx? fun f => f.1 == a with | some i => p.replay.drop (i + 1) | none => p.replay
  let ch := fieldAt b 4 1 % 8
  let k := fieldAt b 5 2 % 1024
  let s1 := s.setPort n { p with replay := keep }
  if k = 0 then s1
  else if mapGet 0 p.used ch < k then
    ((s1.event (pgTyz n) 1).rasReport 2 0x23 (pgTyz n) [n, ch] 0).retrain n
  else s1.setPort n { p with
    replay := keep
    used := mapSet 0 p.used ch (mapGet 0 p.used ch - k) }

/-- A damaged flit is discarded and NAKed (R339). -/
def State.badFlit (s : State) (n : Nat) : State := (s.sendNak n).bump (pgTyz n) R.tyz_NAK_CNT 1 1

/-- Poisoned granules of a flit, numbered in the packet. -/
def flitPoison (b : List Byte) (base : Nat) : List Nat := ((List.range 30).filter fun g => bitOf (fieldAt b 248 4) g).map (· + base)

/-- A good DATA flit in order joins the packet in arrival; a whole packet is ready to be routed. -/
def State.takeFlit (s : State) (n : Nat) (b : List Byte) : State :=
  let p := s.port n
  let rx := p.rx ++ (b.drop 8).take 240
  let ps := p.rxPoison ++ flitPoison b (p.rx.length / 8)
  let total := 40 + payLen rx
  let p1 := { p with rxSeq := (p.rxSeq + 1) % 4096 }
  let s1 := if rx.length < total then s.setPort n { p1 with
      rx := rx
      rxPoison := ps }
    else { s.setPort n { p1 with
        rx := []
        rxPoison := [] } with tyz := { s.tyz with
          ports := (s.setPort n { p1 with
            rx := []
            rxPoison := [] }).tyz.ports
          inbox := s.tyz.inbox ++ [⟨rx.take total, ps.filter fun g => decide (g < (total + 7) / 8), n⟩] } }
  s1.sendIdle n 0 0

/-- What waits at a port goes out while it can. -/
def State.pumpAll (s : State) (n : Nat) : State := s.pumpPort n ((s.port n).queue.length + 1)
/-- A good DATA flit: acknowledgement and credit; in order it is taken, ahead of its turn it is NAKed, a repeated one is acknowledged again. -/
def State.dataFlit (s : State) (n : Nat) (b : List Byte) : State :=
  let s1 := s.ackCredit n b
  let p := s1.port n
  let q := fieldAt b 0 2 % 4096
  (if q = p.rxSeq then s1.takeFlit n b
    else if (q + 4096 - p.rxSeq) % 4096 < 2048 then s1.badFlit n else s1.sendIdle n 0 0).pumpAll n
/-- A good NAK flit: replay from ACK + 1; the 16th within 1 µs retrains the port (R340). -/
def State.nakFlit (t : State) (n : Nat) (b : List Byte) : State :=
  let t1 := t.ackCredit n b
  let p := t1.port n
  let ts := recent t1.tb 1000 (t1.tb :: p.naks)
  let t2 := ((t1.setPort n { p with naks := ts }).replay n).bump (pgTyz n) R.tyz_REPLAY_CNT 0 1
  if 16 ≤ ts.length then t2.retrain n else t2
/-- TYZ_DATA_FLIT (R338, R339). -/
def execTyzDataFlit (n : Nat) (b : List Byte) (s : State) : Host.Outcome State Fault Refusal := s.onClock <|
  if !s.portServes n then s.passOver "the port is not in service"
  else if !flitOk b then .next (s.badFlit n)
  else .next (s.dataFlit n b)

/-- TYZ_IDLE_FLIT (R337). -/
def execTyzIdleFlit (n : Nat) (b : List Byte) (s : State) : Host.Outcome State Fault Refusal := s.onClock <|
  if !s.portServes n then s.passOver "the port is not in service"
  else if !flitOk b then .next (s.badFlit n)
  else .next ((s.ackCredit n b).pumpAll n)

/-- TYZ_NAK_FLIT (R339, R340): replay from ACK + 1; 16 within 1 µs retrain the port. -/
def execTyzNakFlit (n : Nat) (b : List Byte) (at_ : Dword) (s : State) : Host.Outcome State Fault Refusal := s.onClock <|
  if !s.portServes n then s.passOver "the port is not in service"
  else
    let t := s.advance at_
    .next (if flitOk b then t.nakFlit n b else t.badFlit n)

/-- TYZ_ACK_TIMEOUT (R340). -/
def execTyzAckTimeout (n : Nat) (s : State) : Host.Outcome State Fault Refusal := s.onClock <|
  if s.portServes n ∧ !(s.port n).replay.isEmpty then .next (s.retrain n) else s.passOver "no flit is unacknowledged"

/-- TC0_AGE_PROMOTE (R342): the oldest TC0 packet that waits at port `n` joins the TC3 and TC2 round-robin. -/
def execTc0AgePromote (n : Nat) (s : State) : Host.Outcome State Fault Refusal := s.onClock <|
  let p := s.port n
  match p.queue.findIdx? fun e => e.1.tc == 0 && !e.2 with
  | none => s.passOver "no TC0 packet waits here"
  | some i => .next ((s.setPort n { p with queue := p.queue.modify i fun e => (e.1, true) }).pumpPort n (p.queue.length + 1))

/-- A packet leaves the receive buffer of the port it came by, and its flits are credited (R341). -/
def State.creditBack (s : State) (p : TyzPkt) : State := if p.src < 16 then s.sendIdle p.src (2 * p.tc + p.esc) p.flits else s
/-- A whole packet leaves its receive buffer and is routed; one that passes through counts its flits (R422). -/
def State.routeOn (s1 : State) (p : TyzPkt) : State :=
  let s2 := if p.contributes then s1 else s1.creditBack p
  let mine := p.contributes || (p.dstDom == ownDom s1 && p.dstDev == ownDev s1)
  (if mine then s2 else s2.actOwner 1024 (Activity.addFlits (2 * p.flits))).routePacket p false
/-- TYZ_PACKET_ROUTE (R348, R349): the oldest whole packet leaves its receive buffer and goes by the first rule that applies. A collective
contribution keeps its credit until a merge point takes it (R84, R359). -/
def execTyzPacketRoute (s : State) : Host.Outcome State Fault Refusal := s.onClock <|
  match s.tyz.inbox with
  | [] => s.passOver "no packet waits"
  | p :: r => .next (State.routeOn { s with tyz := { s.tyz with inbox := r } } p)

/-- RT_COPY (R625): the tables in force are copied into the shadow. -/
def execRtCopy (rq : Req) (s : State) : Host.Outcome State Fault Refusal :=
  .next (s.busWrite rq (pgTyz 0 * 0x1000 + 0x138) 2 fun t => ({ t with tyz := { t.tyz with routesSh := t.tyz.routes } }, resDone))

/-- TYZ_MGMT (R346, R374): a MGMT packet reaches control firmware, which learns what `reach` says of other devices. -/
def execTyzMgmt (reach : List (Nat × Bool)) (s : State) : Host.Outcome State Fault Refusal := s.onClock <|
  match s.tyz.delivered.find? fun p => p.op == 0x20 with
  | none => s.passOver "no MGMT packet is delivered"
  | some p => .next { s with tyz := { s.tyz with
      delivered := s.tyz.delivered.erase p
      reachDue := s.tyz.reachDue ++ reach } }

/-! ### Ethernet (R369 to R371, R626, R627) -/

def ethSts (k : Nat) : Nat := pgEth k * 0x1000 + 0x4C

/-- ETH_LINK_UP (R626). -/
def State.ethUp (s : State) (k : Nat) : State :=
  s.setReg (ethSts k) (BitVec.ofNat 32 (setBits (setBits (s.reg (ethSts k)).toNat 0 0 1) 2 1 (bitsOf (mapGet Eth.zero s.eth k).cfg.toNat 2 1)))
/-- ETH_LINK_UP. -/
def execEthLinkUp (k : Nat) (s : State) : Host.Outcome State Fault Refusal := s.onClock <|
  if !s.flag (pgEth k) R.eth_CFG_EN then s.passOver "the port is not enabled"
  else .next (s.ethUp k)
/-- ETH_LINK_DOWN (R626). -/
def execEthLinkDown (k : Nat) (s : State) : Host.Outcome State Fault Refusal := s.onClock <|
  if !s.regBit (ethSts k) 0 then s.passOver "the link is down"
  else .next ((s.setRegBit (ethSts k) 0 false).event (pgEth k) 0)

/-- A write of ETHk.CFG (R626): the settings take effect when EN goes from 0 to 1. -/
def State.writeEthCfg (s : State) (i : Iface) (k : Nat) (val : Word) : State × Nat :=
  let was := s.flag (pgEth k) R.eth_CFG_EN
  let (s1, r) := s.plainWrite i (pgEth k) 0x48 val
  let en := bitOf val.toNat 0
  let s2 := s1.setFld (pgEth k) R.eth_CFG_EN (b2n en)
  if en ∧ !was then
    ({ s2 with eth := mapSet Eth.zero s2.eth k ⟨s2.reg (pgEth k * 0x1000 + 0x48), (List.range 2).map fun i => s2.reg (pgEth k * 0x1000 + 0x70 + 4 * i),
        (List.range 4).map fun i => s2.reg (pgEth k * 0x1000 + 0x78 + 4 * i)⟩ }, r)
  else if !en ∧ was then (s2.setRegBit (ethSts k) 0 false, r) else (s2, r)

/-- The packets of a datagram's payload. -/
def splitPackets : Nat → List Byte → List TyzPkt
  | 0, _ => []
  | n + 1, b =>
    let total := 40 + payLen b
    if b.length < 40 ∨ b.length < total then [] else ⟨b.take total, [], 17⟩ :: splitPackets n (b.drop total)

/-- A peer's acknowledgement (R371, R627): what it covers is released; the first one brings a peer up. -/
def State.peerAck (s : State) (d k pack : Nat) : State :=
  let p := s.peer d
  match p.unacked.findIdx? fun e => e.1 == pack with
  | none => s
  | some i => (s.setPeer d { p with
      unacked := p.unacked.drop (i + 1)
      resends := 0 }).setFld (pgEth k) (R.eth_PEER0_CTL_UP.up (0x20 * d)) 1

/-- The datagram is of this protocol's version and for this domain (R370). -/
def State.dgramMine (s : State) (b : List Byte) : Bool :=
  fieldAt b 0 2 == 0x5A54 && fieldAt b 2 1 == 1 && bitsOf (fieldAt b 4 1) 6 4 == ownDom s
/-- A datagram for this domain (R370, R371): its acknowledgement and credit; one with data that is expected brings its packets, and every one
with data is acknowledged. -/
def State.dgram (s1 : State) (k : Nat) (b : List Byte) : State :=
  let d := bitsOf (fieldAt b 4 1) 2 0
  let s2 := s1.peerAck d k (fieldAt b 12 4)
  let p := s2.peer d
  let ch := fieldAt b 16 1 % 8
  let s3 := s2.setPeer d { p with used := mapSet 0 p.used ch (mapGet 0 p.used ch - fieldAt b 17 2) }
  if bitOf (fieldAt b 3 1) 0 then (s3.actOwner 1024 (Activity.addEth (8 + b.length))).pumpPeer d ((s3.peer d).waiting.length + 1)
  else
    let p3 := s3.peer d
    let good := fieldAt b 8 4 == p3.expect
    let pk := if good then splitPackets 256 ((b.drop 24).take (fieldAt b 6 2)) else []
    let s4 := { s3.setPeer d { p3 with expect := if good then (p3.expect + 1) % 2 ^ 32 else p3.expect } with
      tyz := { s3.tyz with inbox := s3.tyz.inbox ++ pk } }
    let (c, u) := match pk.head? with | some q => (2 * q.tc + q.esc, units256 q.bytes.length) | none => (0, 0)
    let s5 := (s4.actOwner 1024 (Activity.addEth 32)).ethEmit d 0 (encap 1 (ownDom s1) d 0 (((s4.peer d).expect + 0xFFFFFFFF) % 2 ^ 32) c u [])
    s5.pumpPeer d ((s5.peer d).waiting.length + 1)
/-- ETH_DGRAM_RECEIVE (R370, R371): a datagram with this UDP payload arrives at Ek; `fcsOk`: its frame check matches. -/
def execEthDgramReceive (k : Nat) (b : List Byte) (fcsOk : Bool) (s : State) : Host.Outcome State Fault Refusal := s.onClock <|
  if !s.regBit (ethSts k) 0 then s.passOver "the link is down"
  else if !fcsOk then .next (s.bump (pgEth k) R.eth_FCS_ERR 3 1)
  else
    let s1 := s.bump (pgEth k) R.eth_RX_DGRAM 1 1
    .next (if s1.dgramMine b then s1.dgram k b else s1)

/-- Everything unacknowledged to domain `d`, whose port is Ek, is sent again; the 64th time the peer is down (R371). -/
def State.resendAll (s : State) (d k : Nat) : State :=
  let p := s.peer d
  let s1 := p.unacked.foldl (fun (a : State) e => ((a.ethEmit d (dgramKey e.2) e.2).actOwner 1024 (Activity.addEth (8 + e.2.length))).bump (pgEth k) R.eth_RESEND 2 1) s
  let s2 := s1.setPeer d { s1.peer d with resends := p.resends + 1 }
  if p.resends + 1 = 64 then (s2.setFld (pgEth k) (R.eth_PEER0_CTL_UP.up (0x20 * d)) 0).event (pgEth k) 1 else s2
/-- ETH_RTO_EXPIRE (R371, R627): everything unacknowledged to domain `d` is sent again; the 64th time the peer is down. -/
def execEthRtoExpire (d : Nat) (s : State) : Host.Outcome State Fault Refusal := s.onClock <|
  let p := s.peer d
  match s.peerPort d with
  | none => s.passOver "no port carries this domain"
  | some k =>
    if p.unacked.isEmpty then s.passOver "nothing is unacknowledged" else .next (s.resendAll d k)

end Sys2Proof.Machine
end

