-- ==== Sys2Proof/Machine/TyzBridge.lean ====
section
/-! DEFINITION. Bridges and Tyzil streams, collectives across devices (R352, R356, R358 to R362), and the arrival of stream packets at
cells, engines and bridges (R236, R242, R245). -/
namespace Sys2Proof.Machine

/-- KIND 4 parameters (Table 11.11) of the stream an end belongs to. -/
def State.endParam (s : State) (e : SeEnd) : List Byte := (((s.ctx e.pos e.ctx).streams[e.idx]?).map (·.param)).getD []
def prmKey (q : List Byte) : Nat := fieldAt q 2 4
def prmXfer (q : List Byte) : Nat := fieldAt q 6 2
def prmTc (q : List Byte) : Nat := fieldAt q 10 1
def prmColl (q : List Byte) : Nat := fieldAt q 11 1

/-- The bridge end whose parameters satisfy `p`. -/
def State.findBridge (s : State) (out : Bool) (p : List Byte → Bool) : Option (Nat × Nat) :=
  (List.range 32).findSome? fun b =>
    let g := s.engine (32 + b)
    (g.ends.findIdx? fun e => e.out == out && p (s.endParam e)).map fun i => (32 + b, i)
/-- The network of the stream at its cell. -/
def State.endNetwork (s : State) (e : SeEnd) : Nat := (((s.ctx e.pos e.ctx).streams[e.idx]?).map StreamEnd.network).getD 0

/-- A packet of a region's stream passes between this device and another (R418). -/
def State.actTyz (s : State) (region dom len : Nat) : State :=
  let direct := dom != ownDom s && (s.flag (pgTyz 0) (R.tyz0_DOM_GW_VALID.up (4 * dom))) && s.fld (pgTyz 0) (R.tyz0_DOM_GW_DEV.up (4 * dom)) == ownDev s
  s.actRegion region (if direct then Activity.addEth (72 + len) else Activity.addFlits ((279 + len) / 240))

/-- Units joined: bytes and poisoned granules. -/
def joinUnits : List (List Byte × List Nat × Bool) → List Byte × List Nat
  | [] => ([], [])
  | u :: us => let (b, p) := joinUnits us; (u.1 ++ b, u.2.1 ++ p.map (· + 8))

/-- Units of the next packet: up to the transfer size, cut after LAST; none while it is not full. -/
def nextUnits (n : Nat) (us : List (List Byte × List Nat × Bool)) : Nat :=
  match (us.take n).findIdx? fun u => u.2.2 with
  | some i => i + 1
  | none => if n ≤ us.length then n else 0

/-- A bridge sends what a cell's stream has gathered: a STREAM packet, or a LOCAL operand of a collective (R356, R359). -/
def State.pumpBridge (s : State) (k i : Nat) : Nat → State
  | 0 => s
  | fuel + 1 =>
    match (s.engine k).ends[i]? with
    | none => s
    | some e =>
      let q := s.endParam e
      let n := nextUnits (max 1 (prmXfer q / 64)) e.inbox
      if n = 0 ∨ e.error then s
      else
        let us := e.inbox.take n
        let (bs, ps) := joinUnits us
        let last := us.any fun u => u.2.2
        let seq := (e.nextSeq + 65536 * (e.inbox.length + 1) - e.inbox.length) % 65536
        let s1 := s.onSeEnd k i fun x => { x with inbox := x.inbox.drop n }
        if prmColl q = 0 then
          ((s1.actTyz e.region (fieldAt q 0 2 / 8192) bs.length).sendTyz (fieldAt q 0 2 % 8192) (fieldAt q 0 2 / 8192) 0 (prmTc q) bs.length e.stream
            (seq + b2n last * 2 ^ 16 + prmKey q * 2 ^ 32) bs ps).pumpBridge k i fuel
        else
          let (v, s2) := s1.takeFree
          let id := prmKey q % 4096
          let sq := seq / max 1 (prmXfer q / 64) % 256
          let p := tyzPacket v.toNat (ownDom s) (ownDev s) (ownDom s) (prmColl q) 1 bs.length id (sq + bs.length / 4 * 2 ^ 8 + 2 ^ 19) bs ps
          (({ s2 with tyz := { s2.tyz with delivered := s2.tyz.delivered ++ [p] } }).onSeEnd k i fun x => { x with
            freedSeq := seq % 65536 }).seFreed k i n |>.pumpBridge k i fuel

/-- Send units of an in-stream from a bridge to its cell. -/
def State.bridgeToCell (s : State) (k : Nat) (e : SeEnd) (seq : Nat) (bs : List Byte) (ps : List Nat) (last : Bool) : Nat → State
  | 0 => s
  | fuel + 1 =>
    if bs.isEmpty then s
    else
      let c := bs.take 1024
      let fin := bs.length ≤ 1024
      let p := MeshPacket.data (mkHeader e.pos (enginePos k) (s.endNetwork e) false 0 e.region e.stream
        (seq % 65536 + b2n (last && fin) * 65536) c.length) c (poisonSlice ps 0 1024)
      (s.engineSend k p).bridgeToCell k e (seq + 16) (bs.drop 1024) ((ps.filter fun g => decide (128 ≤ g)).map (· - 128)) last fuel

/-- A bridge sends results of a collective to its cell, under credits. -/
def State.pumpColl (s : State) (k i : Nat) : State :=
  match (s.engine k).ends[i]? with
  | none => s
  | some e =>
    let n := min e.credits e.inbox.length
    if n = 0 then s
    else
      let (bs, ps) := joinUnits (e.inbox.take n)
      let s1 := s.onSeEnd k i fun x => { x with
        inbox := x.inbox.drop n
        credits := x.credits - n
        nextSeq := (x.nextSeq + n) % 65536 }
      s1.bridgeToCell k e e.nextSeq bs ps false (bs.length / 1024 + 1)

/-- A CRD packet from a cell reaches a bridge: it goes on to the producer's device, or frees a collective's results. -/
def State.bridgeCredit (s : State) (k : Nat) (p : MeshPacket) : State :=
  match (s.engine k).endOf (hRegion p.hdr) (hTag p.hdr) true with
  | none => s.strayPacket (enginePos k) p
  | some i =>
    match (s.engine k).ends[i]? with
    | none => s
    | some e =>
      let q := s.endParam e
      if prmColl q = 0 then
        (s.actTyz e.region (fieldAt q 0 2 / 8192) 0).sendTyz (fieldAt q 0 2 % 8192) (fieldAt q 0 2 / 8192) 1 2 0 e.stream (hUnitSeq p.hdr + hCredits p.hdr * 2 ^ 17 + prmKey q * 2 ^ 32) [] []
      else (s.engineCredit k p).pumpColl k i

/-- A stream packet at an engine or a bridge, which sends on what its credits allow. -/
def State.engineTakes (s1 : State) (k : Nat) (pkt : MeshPacket) : State :=
  let s2 := s1.engineData k pkt
  if k < 32 then s2 else
    match (s2.engine k).endOf (hRegion pkt.hdr) (hTag pkt.hdr) false with
    | some i => s2.pumpBridge k i 64
    | none => s2
/-- STREAM_DATA_ARRIVE (R245, R352): a data packet has reached the Local port of a position, or its engine or bridge. -/
def execStreamDataArrive (pos : Nat) (pkt : MeshPacket) (s : State) : Host.Outcome State Fault Refusal := s.onGrid <|
  if hOp pkt.hdr ≠ 0 ∨ hCrd pkt.hdr ∨ pkt.body ≠ .data then s.passOver "not a stream data packet"
  else if !s.mayTake pos pkt then s.passOver "an earlier packet of its network waits here"
  else
    match s.takePacket pos pkt with
    | (s1, some k) => .next (s1.engineTakes k pkt)
    | (s1, none) => .next (s1.cellData pos pkt)

/-- CRD_ARRIVE (R236). -/
def execCrdArrive (pos : Nat) (pkt : MeshPacket) (s : State) : Host.Outcome State Fault Refusal := s.onGrid <|
  if hOp pkt.hdr ≠ 0 ∨ !hCrd pkt.hdr ∨ pkt.body ≠ .data then s.passOver "not a CRD packet"
  else if !s.mayTake pos pkt then s.passOver "an earlier packet of its network waits here"
  else
    match s.takePacket pos pkt with
    | (s1, some k) => .next (if k < 32 then s1.engineCredit k pkt else s1.bridgeCredit k pkt)
    | (s1, none) => .next (s1.cellCredit pos pkt)

/-- The first delivered packet of an operation. -/
def State.takeDelivered (s : State) (op : Nat) : Option (State × TyzPkt) :=
  match s.tyz.delivered.find? fun p => p.op == op with
  | none => none
  | some p => some ({ s with tyz := { s.tyz with delivered := s.tyz.delivered.erase p } }, p)

/-- Units of a remote stream at the bridge end `i`: in sequence they go to their cell, else the end reports an error (R242, R356). -/
def State.streamFromTyz (s1 : State) (p : TyzPkt) (k i : Nat) (e : SeEnd) : State :=
  let seq := p.arg % 65536
  if seq ≠ e.nextSeq % 65536 ∨ e.error then s1.seEndError k i seq
  else
    let s2 := s1.onSeEnd k i fun x => { x with nextSeq := (x.nextSeq + p.payload.length / 64) % 65536 }
    (s2.actTyz e.region p.srcDom p.payload.length).bridgeToCell k e seq p.payload p.payPoison (bitOf p.arg 16) 8
/-- TYZ_STREAM (R356): a STREAM packet goes to the cell its BIND_KEY names. -/
def execTyzStream (s : State) : Host.Outcome State Fault Refusal := s.onClock <|
  match s.takeDelivered 0x00 with
  | none => s.passOver "no STREAM packet is delivered"
  | some (s1, p) =>
    match s1.findBridge true fun q => prmColl q == 0 && prmKey q == p.arg / 2 ^ 32 with
    | none => .next s1
    | some (k, i) =>
      match (s1.engine k).ends[i]? with
      | none => .next s1
      | some e => .next (s1.streamFromTyz p k i e)

/-- TYZ_CRD (R356): credits go to the producer cell. -/
def execTyzCrd (s : State) : Host.Outcome State Fault Refusal := s.onClock <|
  match s.takeDelivered 0x01 with
  | none => s.passOver "no CRD packet is delivered"
  | some (s1, p) =>
    match s1.findBridge false fun q => prmColl q == 0 && prmKey q == p.arg / 2 ^ 32 with
    | none => .next s1
    | some (k, i) =>
      match (s1.engine k).ends[i]? with
      | none => .next s1
      | some e => .next ((s1.actTyz e.region p.srcDom 0).engineSend k (crdPacket (enginePos k) e.pos e.region e.stream (p.arg % 65536) (bitsOf p.arg 28 17)))

/-! ### Collectives (R358 to R361) -/

/-- The VALID entry with a COLL_ID and an OP: its words 0, 1 and 2. Any OP: 0. -/
def State.collEntry (s : State) (id op : Nat) : Option (Nat × Nat × Nat) :=
  (List.range 256).findSome? fun i =>
    let w0 := (mapGet 0 s.tyz.coll (4 * i)).toNat
    if bitOf w0 31 && bitsOf w0 11 0 == id && (op == 0 || bitsOf w0 23 16 == op) then
      some (w0, (mapGet 0 s.tyz.coll (4 * i + 1)).toNat, (mapGet 0 s.tyz.coll (4 * i + 2)).toNat) else none
def collParent (w1 : Nat) : Nat := bitsOf w1 4 0
def collPorts (w1 : Nat) : List Nat := (List.range 16).filter fun n => bitOf w1 (16 + n)

/-- Runs of sections that bind a collective end with a fault. -/
def State.faultColl (s : State) (id : Nat) : State :=
  (s.work.sects.filter fun t => t.streams.any fun r => r.kind == 4 && prmColl r.param != 0 && prmKey r.param % 4096 == id).foldl
    (fun (a : State) t => a.faultSection t.sid endInternal) s
/-- RED_ORPHAN of a collective (R360). -/
def State.collOrphan (s : State) (id : Nat) : State := (s.event (pgTyz 0) 7).faultColl id

/-- A result reaches the LOCAL in-stream of a collective. -/
def State.collLocal (s : State) (id : Nat) (p : TyzPkt) : State :=
  match s.findBridge true fun q => prmColl q != 0 && prmKey q % 4096 == id with
  | none => s
  | some (k, i) =>
    let n := (p.payload.length + 63) / 64
    let us := unitsOf (takePad 0 (n * 64) p.payload) p.payPoison false n
    (s.onSeEnd k i fun x => { x with inbox := x.inbox ++ us }).pumpColl k i

/-- COLL_RES packets to the child ports. -/
def State.collToChildren (s : State) (id seq : Nat) (p : TyzPkt) : List Nat → State
  | [] => s
  | n :: ns =>
    let dev := mapGet 0 s.tyz.kids (id * 16 + n)
    let q := tyzPacket dev (ownDom s) (ownDev s) (ownDom s) 0x15 1 p.payload.length id (p.arg / 256 * 256 % 2 ^ 35 + seq) p.payload p.payPoison
    (s.portSend n q).collToChildren id seq p ns

/-- A packet as the merge arithmetic of the mesh takes it. -/
def TyzPkt.operand (p : TyzPkt) (sat : Bool) : MeshPacket :=
  .data (b2n sat * 2 ^ 93 + b2n (bitOf p.arg 33) * 2 ^ 96 + b2n (bitOf p.arg 34) * 2 ^ 97) p.payload p.payPoison

/-- Every operand has come: merge them in child order and send the result on (R359, R361). -/
def State.collMerge (s : State) (op id seq w0 w1 w2 : Nat) (ops : List TyzPkt) : State :=
  match ops with
  | [] => s
  | p :: _ =>
    match ops.map (·.operand (bitOf w0 24)) with
    | [] => s
    | m :: ms =>
      let (s1, r) := s.mergeAll (op - 0x10) m ms
      let contrib := (ops.foldl (fun a x => a + bitsOf x.arg 31 19) 0) % 8192
      let arg := seq + bitsOf p.arg 18 8 * 2 ^ 8 + contrib * 2 ^ 19 + b2n (bitOf w0 24) * 2 ^ 32 + b2n (hOvf r.hdr) * 2 ^ 33
        + b2n (hInv r.hdr) * 2 ^ 34
      let dst := match ops.find? fun x => x.src < 16 with | some x => x.dstDev | none => p.dstDev
      let q := tyzPacket dst (ownDom s) (ownDev s) (ownDom s) op 1 r.payload.length id arg r.payload r.poison
      if collParent w1 = 31 then
        let s2 := if contrib = w2 % 8192 then s1 else s1.faultColl id
        let s3 := s2.collLocal id q
        if bitOf w0 25 then s3.collToChildren id seq q (collPorts w1) else s3
      else s1.portSend (collParent w1 % 16) q

/-- Inputs of a collective's merge here, in child order (R359): LOCAL (16), then the child ports. -/
def collInputs (w1 : Nat) : List Nat := (if bitOf w1 8 then [16] else []) ++ collPorts w1
/-- A contribution waits, its credit kept: two other SEQs of its collective are held here (R84, R359). -/
def State.collWaits (s : State) (p : TyzPkt) : Bool :=
  match s.collEntry p.tag p.op with
  | none => false
  | some (_, w1, _) =>
    let others := s.tyz.pend.filter fun e => e.id == p.tag
    (collInputs w1).contains p.src && !bitOf p.arg 35 && !(others.any fun e => e.seq == p.arg % 256) && decide (2 ≤ others.length)
/-- A contribution with no entry here (R360): the root discards it, any other device sends it on with ORPHAN set. -/
def State.collStray (s : State) (p : TyzPkt) : State :=
  if p.dstDom = ownDom s ∧ p.dstDev = ownDev s ∧ p.src < 16 then s.collOrphan p.tag
  else s.forward (p.set 28 (leBytes 8 (p.arg + (if bitOf p.arg 35 then 0 else 2 ^ 35)))) (p.src == 16)
/-- A contribution meets its entry (R88, R90, R359): a duplicate or mismatched one is an error; with the last operand the merge is performed. -/
def State.collMatch (s1 : State) (op : Nat) (p : TyzPkt) (w0 w1 w2 : Nat) : State :=
  let id := p.tag
  let seq := p.arg % 256
  let mine := collInputs w1
  let s2 := if p.src < 16 then { s1 with tyz := { s1.tyz with kids := mapSet 0 s1.tyz.kids (id * 16 + p.src) p.srcDev } } else s1
  match s2.tyz.pend.find? fun e => e.id == id && e.seq == seq with
  | none =>
    if mine.length = 1 then s2.collMerge op id seq w0 w1 w2 [p]
    else { s2 with tyz := { s2.tyz with pend := s2.tyz.pend ++ [⟨id, seq, [(p.src, p)]⟩] } }
  | some e =>
    if e.ops.any (fun o => o.1 == p.src) ∨ e.ops.any (fun o => bitsOf o.2.arg 18 8 != bitsOf p.arg 18 8) then s2.faultColl id
    else
      let e1 := { e with ops := e.ops ++ [(p.src, p)] }
      if mine.all fun k => e1.ops.any fun o => o.1 == k then
        let s3 := { s2 with tyz := { s2.tyz with pend := s2.tyz.pend.erase e } }
        s3.collMerge op id seq w0 w1 w2 (mine.filterMap fun k => (e1.ops.find? fun o => o.1 == k).map (·.2))
      else { s2 with tyz := { s2.tyz with pend := s2.tyz.pend.map fun x => if x = e then e1 else x } }
/-- A contribution that a merge point takes (R359, R360): an orphan, one without an entry here or from no input of it, or an operand. -/
def State.contribution (s1 : State) (op : Nat) (p : TyzPkt) : State :=
  if bitOf p.arg 35 then s1.collOrphan p.tag
  else match s1.collEntry p.tag op with
    | none => s1.collStray p
    | some (w0, w1, w2) => if !(collInputs w1).contains p.src then s1.collStray p else s1.collMatch op p w0 w1 w2
/-- The contribution of operation `op` that is taken next: the oldest that need not wait. -/
def State.nextContribution (s : State) (op : Nat) : Option TyzPkt := s.tyz.delivered.find? fun p => p.op == op && !s.collWaits p
/-- The oldest contribution of operation `op` that need not wait is matched to its entry and merged (R84, R88, R90, R359, R360). -/
def State.collArrive (s : State) (op : Nat) : Host.Outcome State Fault Refusal :=
  match s.nextContribution op with
  | none => s.passOver "no such contribution is delivered, or each waits"
  | some p => .next ((({ s with tyz := { s.tyz with delivered := s.tyz.delivered.erase p } }).creditBack p).contribution op p)

/-- TYZ_ADD_I32 (R359). -/
def execTyzAddI32 (s : State) : Host.Outcome State Fault Refusal := s.onClock <| s.collArrive 0x11
/-- TYZ_ADD_F32 (R359). -/
def execTyzAddF32 (s : State) : Host.Outcome State Fault Refusal := s.onClock <| s.collArrive 0x12
/-- TYZ_MAX_F32 (R359). -/
def execTyzMaxF32 (s : State) : Host.Outcome State Fault Refusal := s.onClock <| s.collArrive 0x13
/-- TYZ_LSE_MERGE (R359). -/
def execTyzLseMerge (s : State) : Host.Outcome State Fault Refusal := s.onClock <| s.collArrive 0x14

/-- TYZ_COLL_RES (R360, R361). -/
def execTyzCollRes (s : State) : Host.Outcome State Fault Refusal := s.onClock <|
  match s.takeDelivered 0x15 with
  | none => s.passOver "no COLL_RES is delivered"
  | some (s1, p) =>
    match s1.collEntry p.tag 0 with
    | none => .next (s1.collOrphan p.tag)
    | some (_, w1, _) => .next ((s1.collToChildren p.tag (p.arg % 256) p (collPorts w1)).collLocal p.tag p)

end Sys2Proof.Machine
end

