-- ==== Sys2Proof/Machine/StreamEngines.lean ====
section
/-! DEFINITION. Stream engines (R251 to R267, R303, R317, R321c, R353 to R355): descriptors, reads, writes, migration, remote accesses. -/
namespace Sys2Proof.Machine

/-! ### Descriptors (Table 8.7) -/

def kReg (f : Fld) (k : Nat) : Fld := f.up (0x20 * k)
def State.ringBase (s : State) (k : Nat) : Nat := s.fld pgStream (kReg R.stream_RING_BASE0 k) % 0x10000000
def State.ringHead (s : State) (k : Nat) : Nat := s.fld pgStream (kReg R.stream_HEAD0 k)
def State.ringTail (s : State) (k : Nat) : Nat := s.fld pgStream (kReg R.stream_DB0 k)

/-- The 32 bytes of a descriptor. -/
def descrBytes (addr rowLen stride rows stream opc cellAddr region : Nat) (mc : Bool) (mcg owner : Nat) : List Byte :=
  leBytes 8 addr ++ leBytes 4 rowLen ++ leBytes 4 stride ++ leBytes 2 rows ++ leBytes 2 (stream % 4096 + opc * 4096) ++ leBytes 4 cellAddr
    ++ leBytes 1 region ++ leBytes 1 (b2n mc) ++ leBytes 2 mcg ++ leBytes 2 owner ++ leBytes 2 0

/-- A CELL_ADDR is a scratchpad address of Table 4.1, 64-byte aligned (R104, R265). -/
def cellAddrOk (a : Nat) : Bool := a % 64 == 0 && !bitOf a 31 && (bitOf a 30 || bitsOf a 29 19 == 0)
/-- A descriptor holds no reserved value (R8, R253, R254, R265). -/
def descrOk (b : List Byte) : Bool :=
  let rl := fieldAt b 8 4
  let opc := fieldAt b 0x12 2 / 4096
  decide (1 ≤ rl) && decide (rl ≤ 262144) && decide (rl ≤ fieldAt b 0xC 4) && decide (1 ≤ fieldAt b 0x10 2) && decide (opc ≤ 3)
    && (opc == 1 || rl % 64 == 0) && (if 2 ≤ opc then cellAddrOk (fieldAt b 0x14 4) else zeroAt b 0x14 4)
    && decide (fieldAt b 0x19 1 ≤ 1) && (fieldAt b 0x19 1 == 0 || opc == 0) && decide (fieldAt b 0x1A 2 < 4096)
    && decide (fieldAt b 0x1C 2 < 2048) && zeroAt b 0x1E 2

/-- A descriptor as the engine holds it. -/
def jobOf (ring : Nat) (b : List Byte) : SeJob :=
  { kind := 0
    ring := ring
    addr := fieldAt b 0 8
    rowLen := fieldAt b 8 4
    stride := fieldAt b 0xC 4
    rows := fieldAt b 0x10 2
    stream := fieldAt b 0x12 2 % 4096
    opc := fieldAt b 0x12 2 / 4096
    cellAddr := fieldAt b 0x14 4
    region := fieldAt b 0x18 1
    mc := bitOf (fieldAt b 0x19 1) 0
    mcg := fieldAt b 0x1A 2 % 4096
    owner := fieldAt b 0x1C 2
    issued := 0
    moved := 0
    buf := []
    item := 0
    rec_ := 0
    len := 0
    unacked := 0
    asked := []
    granted := []
    bad := if descrOk b then none else some 0x34 }

/-- A READ or WRITE that fails cuts the run of its REGION in this fc (R259, R650). -/
def State.jobFault (s : State) (j : SeJob) (e : Ending) : State := if j.opc ≤ 1 then s.faultRegion j.region e else s
/-- The engine takes up its posted descriptors, from HEAD to TAIL (R620). -/
def State.takePosted (s : State) (k : Nat) : Nat → State
  | 0 => s
  | n + 1 =>
    let h := s.ringHead k
    if h = s.ringTail k then s
    else
      let (s0, b) := s.sramRead (s.ringBase k + 32 * h) 32
      let j := jobOf h b
      let g := s0.engine k
      let s1 := s0.setEngine k { g with jobs := g.jobs ++ [j] }
      let s2 := if j.bad.isSome then s1.jobFault j (endFormat 4) else s1
      (s2.setFld pgStream (kReg R.stream_HEAD0 k) ((h + 1) % 256)).takePosted k n
/-- Firmware posts a descriptor. -/
def State.postDescr (s : State) (k : Nat) (b : List Byte) : State :=
  let t := s.ringTail k
  ((s.sramWrite (s.ringBase k + 32 * t) b).setFld pgStream (kReg R.stream_DB0 k) ((t + 1) % 256)).takePosted k 256

/-- A write of DB of engine `k`. -/
def State.writeDb (s : State) (k : Nat) (tail : Word) : State × Nat :=
  ((s.setFld pgStream (kReg R.stream_DB0 k) (tail.toNat % 256)).takePosted k 256, resDone)
/-- STREAM_DB_WRITE (R254, R620). -/
def execStreamDbWrite (rq : Req) (k : Nat) (tail : Word) (s : State) : Host.Outcome State Fault Refusal :=
  .next (s.busWrite rq (pgStream * 0x1000 + 0x104 + 0x20 * k) tail fun t => t.writeDb k tail)

/-! ### Units -/

def SeJob.upr (j : SeJob) : Nat := (j.rowLen + 63) / 64
def SeJob.total (j : SeJob) : Nat := if j.kind = 1 then (j.len + 63) / 64 else j.rows * j.upr
def SeJob.fw (j : SeJob) : Bool := bitOf j.owner 10
/-- Activity of a descriptor: its OWNER's, and where a run binds the stream, that of the run's item (R267, R418). -/
def State.actJob (s : State) (j : SeJob) (f : Activity → Activity) : State :=
  let s1 := s.actOwner (if j.fw then 1024 else j.owner % 1024) f
  match (s.sectByRegion j.region).bind fun t => s.work.runs.find? fun r => r.sid == t.sid && r.going with
  | some r => if 2 ≤ j.opc then s1 else s1.actItem r.item f
  | none => s1
/-- Global address and length of a unit. -/
def SeJob.unitAddr (j : SeJob) (u : Nat) : Nat :=
  if j.kind = 1 then j.addr + 64 * u else j.addr + u / max 1 j.upr * j.stride + u % max 1 j.upr * 64
def SeJob.unitLen (j : SeJob) (u : Nat) : Nat :=
  if j.kind = 1 then min 64 (j.len - 64 * u) else min 64 (j.rowLen - u % max 1 j.upr * 64)

def State.job (s : State) (k i : Nat) : Option SeJob := (s.engine k).jobs[i]?
def State.onJob (s : State) (k i : Nat) (f : SeJob → SeJob) : State :=
  let g := s.engine k
  s.setEngine k { g with jobs := g.jobs.modify i f }
/-- A descriptor fails. -/
def State.badJob (s : State) (k i : Nat) (e : Ending) : State :=
  match s.job k i with
  | none => s
  | some j => (s.onJob k i fun x => { x with bad := some (x.bad.getD e.code) }).jobFault j e
/-- The job of a ring index. -/
def State.jobIdx (s : State) (k ring : Nat) : Option Nat := (s.engine k).jobs.findIdx? fun j => j.kind == 0 && j.ring == ring

/-- The engine's end for a job. -/
def State.jobEnd (s : State) (k : Nat) (j : SeJob) (out : Bool) : Option Nat := (s.engine k).endOf j.region j.stream out
/-- Credits an end holds for one more unit (R255, R261). -/
def SeEnd.hasCredit (e : SeEnd) (n : Nat) : Bool :=
  !e.error && (if e.leaves.isEmpty then decide (n ≤ e.credits) else e.leaves.all fun l => decide (n ≤ l.2))
def SeEnd.takeCredit (e : SeEnd) (n : Nat) : SeEnd :=
  if e.leaves.isEmpty then { e with credits := e.credits - n } else { e with leaves := e.leaves.map fun l => (l.1, l.2 - n) }

/-- A local address lies in the host-exposed range (R302). -/
def State.exposedAt (s : State) (a : Nat) : Bool :=
  match s.memLoc a with
  | .module _ off _ => decide (s.ilvS - s.hdmBytes ≤ off) && decide (0 < s.hdmBytes)
  | _ => false

/-- The 64-byte lines of `n` bytes from `a` that lie in the host-exposed range. -/
def State.linesExposed (s : State) (a n : Nat) : List Nat := ((memPieces a n).map fun p => p.1 / 64 * 64).filter s.exposedAt
def State.hostExposed (s : State) (a n : Nat) : Bool := !(s.linesExposed a n).isEmpty
/-- The link runs CXL 2.0. -/
def State.cxl2 (s : State) : Bool := bitsOf (s.fld pgHost R.host_LINK_STS) 13 12 == 1
/-- Ask the host for a line (R317): the snoop of the link's CXL version. Under CXL 2.0 a write goes through the host, with its data. -/
def State.askHost (s : State) (line : Nat) (whole write : Bool) (data : List Byte) (poison : Bool) : State :=
  let kind := if !s.cxl2 then (if write then cxlBiSnpInv else cxlBiSnpData) else if !write then cxlRdCurr else if whole then cxlItoMWr else cxlWrInv
  s.emit (.cxl kind line (if s.cxl2 && write then data else []) (s.cxl2 && write && poison))
/-- The host has not yet answered for a line of unit `u`. -/
def SeJob.mustAsk (j : SeJob) (u : Nat) (lines : List Nat) : Bool := !lines.all fun l => j.granted.any fun g => g.1 == u && g.2.1 == l
/-- Unit `u` of job `i`, `n` bytes at local address `a`, waits for the host: each of its lines is asked for once (R317). -/
def State.askUnit (s : State) (k i : Nat) (j : SeJob) (u a n : Nat) (write : Bool) (data : List Byte) (poison : Bool) : State :=
  let open_ := (s.linesExposed a n).filter fun l => !(j.asked.contains (u, l)) && !(j.granted.any fun g => g.1 == u && g.2.1 == l)
  open_.foldl (fun (t : State) l =>
    let lo := max a l
    let part := (data.drop (lo - a)).take (min (a + n) (l + 64) - lo)
    (t.askHost l (decide (min (a + n) (l + 64) - lo = 64)) write part poison).onJob k i fun x => { x with asked := x.asked ++ [(u, l)] }) s
/-- The bytes the host supplied for a whole unit (R317, CXL 2.0). -/
def SeJob.hostBytes (j : SeJob) (u a n : Nat) : Option (List Byte) :=
  let ps := (memPieces a n).map fun p => (j.granted.find? fun g => g.1 == u && g.2.1 == p.1 / 64 * 64 && !g.2.2.isEmpty).map fun g =>
    takePad 0 p.2 (g.2.2.drop (p.1 % 64))
  if ps.all Option.isSome then some (ps.flatMap fun p => p.getD []) else none

/-- A multicast header (R261). -/
def mcHeader (src vn region tag mcg word2 payload : Nat) : Nat :=
  withHcrc (mcg % 4096 + posPx src * 2 ^ 12 + posPy src * 2 ^ 19 + vn * 2 ^ 24 + 2 ^ 26 + flitsOf payload * 2 ^ 27 + region * 2 ^ 40
    + tag * 2 ^ 48 + word2 * 2 ^ 64)

/-- The run that binds a region's streams was cut, and no run of the section has started since (R258, R295). -/
def State.stopped (s : State) (region : Nat) : Bool :=
  match s.sectByRegion region with
  | none => false
  | some t => t.halted

/-- Count the bytes of a host-queue stream (R321c). -/
def State.progress (s : State) (j : SeJob) (n : Nat) : State :=
  let key := (j.region * 4096 + j.rec_) * 2 + j.opc
  let arg := match (s.sectByRegion j.region).bind fun t => t.streams[j.rec_]? with
    | some r => fieldAt r.param 1 1
    | none => 0xFF
  if j.kind ≠ 1 then s
  else s.onDesc j.item fun d => { d with
    prog := mapSet 0 d.prog key (mapGet 0 d.prog key + n)
    progDue := if d.progDue.any (fun e => e.1 == key) then d.progDue else d.progDue ++ [(key, arg)] }

/-- Deliver units that have returned, in UNIT_SEQ order and as whole packets (R255); `flush`: also a part of one (R258). -/
def State.deliver (s : State) (k i : Nat) (flush : Bool) : Nat → State
  | 0 => s
  | fuel + 1 =>
    match s.job k i with
    | none => s
    | some j =>
      match s.jobEnd k j true with
      | none => s
      | some ei =>
        match (s.engine k).ends[ei]? with
        | none => s
        | some e =>
          let xfer := (((s.ctx e.pos e.ctx).streams[e.idx]?).map StreamEnd.xfer).getD 64
          let have_ := (List.range (j.buf.length)).takeWhile fun n => j.buf.any fun b => b.1 == j.moved + n
          let full := min (xfer / 64) (j.total - j.moved)
          let n := if full ≤ have_.length then full else if flush then have_.length else 0
          if n = 0 then s
          else
            let us := (List.range n).filterMap fun d => j.buf.find? fun b => b.1 == j.moved + d
            let bs := us.flatMap (·.2.1)
            let ps := (List.range us.length).flatMap fun d =>
              match us[d]? with | some u => if u.2.2 then (List.range 8).map (· + 8 * d) else [] | none => []
            let last := j.moved + n == j.total
            let w2 := e.nextSeq % 65536 + b2n last * 65536
            let vn := s.endNetwork e
            let h := if j.mc then mcHeader (enginePos k) vn j.region j.stream j.mcg w2 bs.length
              else mkHeader e.pos (enginePos k) vn false 0 j.region j.stream w2 bs.length
            let s1 := (s.onSeEnd k ei fun x => { x with nextSeq := (x.nextSeq + n) % 65536 }).onJob k i fun x => { x with
              moved := x.moved + n
              buf := x.buf.filter fun b => decide (j.moved + n ≤ b.1) }
            ((s1.progress j bs.length).engineSend k (.data h bs ps)).deliver k i flush fuel

/-- A request to another device (R353). -/
def State.remoteRequest (s : State) (k : Nat) (j : SeJob) (u : Nat) (write : Bool) (bs : List Byte) (poison : List Nat) : State :=
  let a := j.unitAddr u
  let tag := s.tyz.nextTag % 4096
  let r : Rma := ⟨tag, k, j.ring, j.opc, u, write, s.tb⟩
  let s0 := s.actJob j (Activity.addFlits (if write then (279 + bs.length) / 240 else 1))
  let s1 := { s0 with tyz := { s0.tyz with
    nextTag := (tag + 1) % 4096
    rma := s0.tyz.rma ++ [r] } }
  if write then s1.sendTyz (a / 2 ^ 51) (ownDom s) 4 0 bs.length tag (a % 2 ^ 51) bs poison
  else s1.sendTyz (a / 2 ^ 51) (ownDom s) 2 2 (j.unitLen u) tag (a % 2 ^ 51) [] []

/-! ### READ and WRITE -/

/-- The next read of a job is issued under one credit of its stream. -/
def State.readIssued (s : State) (k i ei : Nat) : State :=
  (s.onSeEnd k ei fun x => x.takeCredit 1).onJob k i fun x => { x with issued := x.issued + 1 }
/-- SE_READ (R255, R258, R260, R261, R317): engine `k` issues the next read of its job `i`, under credit. -/
def execSeRead (k i : Nat) (s : State) : Host.Outcome State Fault Refusal := s.onClock <|
  match s.job k i with
  | none => s.passOver "no such descriptor"
  | some j =>
    match s.jobEnd k j true with
    | none => s.passOver "the stream is not bound"
    | some ei =>
      match (s.engine k).ends[ei]? with
      | none => s.passOver "the stream is not bound"
      | some e =>
        let u := j.issued
        let a := j.unitAddr u
        if j.opc ≠ 0 ∨ j.bad.isSome ∨ s.stopped j.region ∨ j.total ≤ u ∨ 256 ≤ u - j.moved ∨ !e.hasCredit 1 then
          s.passOver "the engine may issue no read"
        else if j.kind = 1 then
          .next ((s.readIssued k i ei).emit (.hostRead a (j.unitLen u) k))
        else if a / 2 ^ 51 ≠ ownDev s then
          .next ((s.readIssued k i ei).remoteRequest k j u false [] [])
        else if j.mustAsk u (s.linesExposed (a % 2 ^ 51) (j.unitLen u)) then .next (s.askUnit k i j u (a % 2 ^ 51) (j.unitLen u) false [] false)
        else
          match s.memLocs (a % 2 ^ 51) (j.unitLen u) j.fw with
          | .error f => .next (s.badJob k i f.jobEnding)
          | .ok _ => .next (s.readIssued k i ei)

/-- A unit has returned: it waits in the reorder buffer for its turn. -/
def State.unitBack (s : State) (k i u : Nat) (bs : List Byte) (poison : Bool) : State :=
  match s.job k i with
  | none => s
  | some j => (s.onJob k i fun x => { x with buf := x.buf ++ [(u, takePad 0 64 bs, poison)] }).deliver k i (s.stopped j.region) 256

/-- The `n` bytes of unit `u` of a job: the host's where it supplied them (R317, CXL 2.0), or module memory's. -/
def State.hostOrMemory (s : State) (hits : List (Nat × Upset)) (j : SeJob) (u n : Nat) : MemAns :=
  match j.hostBytes u (j.unitAddr u % 2 ^ 51) n with
  | some bs => .ok (s.strikeModules hits) [(bs, false)]
  | none => (s.strikeModules hits).memRead (j.unitAddr u % 2 ^ 51) n j.fw
/-- MODULE_READ_RETURN (R255, R257): unit `u` that job `i` issued returns from module memory, or, for a host-queue stream, from the
host with `data`. -/
def execModuleReadReturn (k i u : Nat) (data : List Byte) (how : ReadEnd) (hits : List (Nat × Upset)) (s : State) :
    Host.Outcome State Fault Refusal := s.onClock <|
  match s.job k i with
  | none => s.passOver "no such descriptor"
  | some j =>
    if j.issued ≤ u ∨ u < j.moved ∨ j.buf.any (fun b => b.1 == u) ∨ j.opc ≠ 0 then s.passOver "this unit is not outstanding"
    else if j.kind = 1 then
      (if how = .ok then .next (s.unitBack k i u data false) else .next (s.badJob k i how.ending))
    else if j.unitAddr u / 2 ^ 51 ≠ ownDev s then s.passOver "the unit comes from another device"
    else
      match s.hostOrMemory hits j u (j.unitLen u) with
      | .ok t ps => .next ((t.actJob j (Activity.addUnits 1)).unitBack k i u (ps.flatMap (·.1)) (ps.any (·.2)))
      | .fail f => .next (s.badJob k i f.jobEnding)

/-- BISNP_RESPONSE (R317): the host's answer for the oldest line of a unit that a job waits for; after the last one the unit proceeds. -/
def execBisnpResponse (k i : Nat) (answer : HostAnswer) (s : State) : Host.Outcome State Fault Refusal := s.onClock <|
  match s.job k i with
  | none => s.passOver "no such descriptor"
  | some j =>
    match j.asked.find? fun e => e.1 == answer.unit with
    | some e => .next (s.onJob k i fun x => { x with
        asked := x.asked.erase e
        granted := x.granted ++ [(e.1, e.2, if s.cxl2 then answer.data.take 64 else [])] })
    | none => s.passOver "no answer is awaited"

/-- The oldest unit received at an inbound end is taken: its place is free, and it counts as issued, and as moved or as awaiting its
acknowledgement. `rest`: the units behind it. -/
def State.unitTaken (t : State) (k i ei : Nat) (rest : List (List Byte × List Nat × Bool)) (moved unacked : Nat) : State :=
  ((t.onSeEnd k ei fun x => { x with
    inbox := rest
    freedSeq := (x.nextSeq + 65536 - x.inbox.length) % 65536 }).seFreed k ei 1).onJob k i fun x => { x with
      issued := x.issued + 1
      moved := x.moved + moved
      unacked := x.unacked + unacked }
/-- SE_WRITE (R256, R257, R317, R321c, R353): engine `k` writes the next unit its job `i` has received. -/
def execSeWrite (k i : Nat) (hits : List (Nat × Upset)) (s : State) : Host.Outcome State Fault Refusal := s.onClock <|
  match s.job k i with
  | none => s.passOver "no such descriptor"
  | some j =>
    match s.jobEnd k j false with
    | none => s.passOver "the stream is not bound"
    | some ei =>
      match (s.engine k).ends[ei]? with
      | none => s.passOver "the stream is not bound"
      | some e =>
        match e.inbox with
        | [] => s.passOver "no unit has come"
        | un :: rest =>
          let u := j.issued
          let a := j.unitAddr u
          let bs := un.1.take (j.unitLen u)
          let poison := !un.2.1.isEmpty
          if j.opc ≠ 1 ∨ j.bad.isSome then s.passOver "the engine writes nothing for this descriptor"
          else if j.kind = 1 then
            (if j.len < 64 * u + 64 then .next (s.badJob k i endBound)
            else .next ((s.unitTaken k i ei rest 1 0).progress j 64 |>.emit (.hostWrite a un.1)))
          else if j.total ≤ u then s.passOver "every row is written"
          else if a / 2 ^ 51 ≠ ownDev s then
            .next ((s.unitTaken k i ei rest 0 1).remoteRequest k j u true bs (if poison then un.2.1.filter fun g => decide (8 * g < bs.length) else []))
          else if j.mustAsk u (s.linesExposed (a % 2 ^ 51) bs.length) then .next (s.askUnit k i j u (a % 2 ^ 51) bs.length true bs poison)
          else
            match (s.strikeModules hits).memWrite (a % 2 ^ 51) bs (fun _ _ => poison) j.fw with
            | .ok t _ => .next ((t.actJob j (Activity.addUnits 1)).unitTaken k i ei rest 1 0)
            | .fail f => .next (s.badJob k i f.jobEnding)

/-! ### Migration (R265 to R267) -/

/-- The timebase lies in the run phase of the frame in progress (R28, R29). -/
def State.inRunPhase (s : State) : Bool :=
  !before s.tb (s.tickAt s.frameNo + 2000) && before s.tb s.guardStart

/-- No context that holds a REGION is ACTIVE. -/
def State.regionIdle (s : State) (region : Nat) : Bool :=
  match s.sectByRegion region with
  | none => true
  | some t => s.ctxIdle t.ctx t.orgX t.orgY t.w t.h

/-- The cell a migration reaches (R265): its position and context; none outside the region (R108). -/
def State.migCell (s : State) (j : SeJob) : Option (Nat × Nat) :=
  match s.sectByRegion j.region with
  | none => none
  | some t =>
    let a := j.cellAddr
    let dx := if bitOf a 30 then bitsOf a 24 19 else 0
    let dy := if bitOf a 30 then bitsOf a 29 25 else 0
    if t.w ≤ dx ∨ t.h ≤ dy then none else some (s.physOf (t.orgX + dx) (t.orgY + dy), t.ctx)
/-- Where unit `u` of a migration lies in scratchpad: position and slice offset. -/
def State.migTarget (s : State) (j : SeJob) (u : Nat) : Option (Nat × Nat) :=
  match s.migCell j with
  | none => none
  | some (pos, n) =>
    let off := bitsOf j.cellAddr 18 0 + 64 * u
    let c := s.ctx pos n
    if c.bound * 1024 < off + 64 then none else some (pos, c.base * 1024 + off)
/-- A migration leaves its bound (R107, R109): the cell it reaches reports it; the descriptor fails. -/
def State.migBound (s : State) (k i : Nat) (j : SeJob) (u : Nat) : State :=
  (match s.migCell j with
  | some (pos, n) => s.boundFault pos n (j.cellAddr + 64 * u) 64 true
  | none => s).badJob k i endBound

/-- Bytes migrated are counted (R267, R422). -/
def State.migCount (s : State) (k n : Nat) : State :=
  let f := kReg R.stream_MIG_CNT0 k
  let s1 := s.accumulate pgStream f 0 n
  if s1.fld64 pgStream f = 2 ^ 64 - 1 then s1.setRegBit (pgStream * 0x1000 + 0x10C + 0x20 * k) 3 true else s1

/-- The next unit of a migration may be moved. -/
def State.mayMigrate (s : State) (k : Nat) (j : SeJob) (opc : Nat) : Bool :=
  j.opc == opc && j.kind == 0 && j.bad.isNone && decide (j.issued < j.total) && !(s.engine k).paused && s.inRunPhase
    && (decide (0 < j.issued) || s.regionIdle j.region)

/-- Scratchpad receives a migrated unit, poisoned whole where its module granule was (R257). -/
def State.migLand (s : State) (k i u : Nat) (bs : List Byte) (poison : Bool) : State :=
  match s.job k i with
  | none => s
  | some j =>
    match s.migTarget j u with
    | none => s.migBound k i j u
    | some (pos, off) =>
      ((s.spWrite pos off (takePad 0 64 bs) (if poison then (List.range 8).map (· + off / 8) else [])).onJob k i fun x => { x with
        moved := x.moved + 1 }).migCount k 64

/-- The next unit of a migration is issued. -/
def State.unitIssued (t : State) (k i : Nat) : State := t.onJob k i fun x => { x with issued := x.issued + 1 }
/-- SE_MIGRATE_IN (R265 to R267): one unit moves from memory to scratchpad. -/
def execSeMigrateIn (k i : Nat) (hits : List (Nat × Upset)) (s : State) : Host.Outcome State Fault Refusal := s.onClock <|
  match s.job k i with
  | none => s.passOver "no such descriptor"
  | some j =>
    if !s.mayMigrate k j 2 then s.passOver "no migration may proceed"
    else
      let u := j.issued
      let a := j.unitAddr u
      if (s.migTarget j u).isNone then .next (s.migBound k i j u)
      else if a / 2 ^ 51 ≠ ownDev s then .next ((s.unitIssued k i).remoteRequest k j u false [] [])
      else if j.mustAsk u (s.linesExposed (a % 2 ^ 51) 64) then .next (s.askUnit k i j u (a % 2 ^ 51) 64 false [] false)
      else
        match s.hostOrMemory hits j u 64 with
        | .ok t ps => .next (((t.actJob j (Activity.addUnits 1)).unitIssued k i).migLand k i u (ps.flatMap (·.1)) (ps.any (·.2)))
        | .fail f => .next (s.badJob k i f.jobEnding)

/-- SE_MIGRATE_OUT (R265 to R267): one unit moves from scratchpad to memory; `strike`: soft errors in the slice it leaves. -/
def execSeMigrateOut (k i : Nat) (strike : List Upset) (hits : List (Nat × Upset)) (s : State) : Host.Outcome State Fault Refusal := s.onClock <|
  match s.job k i with
  | none => s.passOver "no such descriptor"
  | some j =>
    if !s.mayMigrate k j 3 then s.passOver "no migration may proceed"
    else
      let u := j.issued
      let a := j.unitAddr u
      match s.migTarget j u with
      | none => .next (s.migBound k i j u)
      | some (pos, off) =>
        let (s1, bs, ps) := (s.strikeSlice pos strike).spRead pos off 64
        if a / 2 ^ 51 = ownDev s ∧ j.mustAsk u (s.linesExposed (a % 2 ^ 51) 64) then
          .next (s1.askUnit k i j u (a % 2 ^ 51) 64 true bs (!ps.isEmpty))
        else
          let s2 := (s1.unitIssued k i).migCount k 64
          if a / 2 ^ 51 ≠ ownDev s then
            .next ((s2.onJob k i fun x => { x with unacked := x.unacked + 1 }).remoteRequest k j u true bs (ps.map (· - off / 8)))
          else
            match (s2.strikeModules hits).memWrite (a % 2 ^ 51) bs (fun _ _ => !ps.isEmpty) j.fw with
            | .ok t _ => .next ((t.actJob j (Activity.addUnits 1)).onJob k i fun x => { x with moved := x.moved + 1 })
            | .fail f => .next (s.badJob k i f.jobEnding)

/-- The guard begins: the engines that migrate stop injecting (R266). -/
def State.pauseMigrations (s : State) : State :=
  let busy := fun (g : SEngine) => g.jobs.any fun j => j.kind == 0 && decide (2 ≤ j.opc) && j.bad.isNone && decide (j.moved < j.total)
  { s with ses := s.ses.map fun (e : Nat × SEngine) => (e.1, { e.2 with paused := e.2.paused || busy e.2 }) }
/-- MIGRATION_RESUME (R266): after the admit phase an engine injects migration traffic again. -/
def execMigrationResume (k : Nat) (s : State) : Host.Outcome State Fault Refusal := s.onClock <|
  if (s.engine k).paused ∧ !before s.tb (s.tickAt s.frameNo + 2000) then .next (s.setEngine k { s.engine k with paused := false })
  else s.passOver "migration is not paused, or the admit phase goes on"

/-- A descriptor has ended: its completion record, and STREAM's event where it failed (R259, R620). -/
def State.jobDone (s : State) (k i : Nat) (j : SeJob) : State :=
  let g := s.engine k
  let s1 := s.setEngine k { g with
    jobs := g.jobs.eraseIdx i
    cpl := if j.kind = 0 then mapPut g.cpl j.ring (j.bad.getD 0, j.opc, j.moved) else g.cpl }
  if j.bad.isNone then s1 else s1.event pgStream 0

/-! ### Remote accesses (R353 to R355) -/

/-- The device is in SLEEP: peers are answered BOUND (R591). -/
def State.asleep (s : State) : Bool := s.sys.lpPhase == .asleep || s.sys.lpPhase == .leaving || decide (3 ≤ s.fld pgPower R.power_LP_STATE)

/-- Answer a read request, and a write, of a peer: RD_RSP with a status and data, WR_ACK with a status (R353). -/
def State.answerRead (t : State) (p : TyzPkt) (st : Nat) (bs : List Byte) (ps : List Nat) : State :=
  (t.actOwner 1024 (Activity.addFlits (1 + (279 + bs.length) / 240))).sendTyz p.srcDev p.srcDom 3 0 bs.length p.tag st bs ps
def State.answerWrite (t : State) (p : TyzPkt) (st : Nat) : State :=
  (t.actOwner 1024 (Activity.addFlits (1 + (279 + p.payload.length) / 240))).sendTyz p.srcDev p.srcDom 5 2 0 p.tag st [] []
/-- TYZ_RD_REQ (R345, R353, R591): the oldest delivered read request is performed and answered. -/
def execTyzRdReq (hits : List (Nat × Upset)) (s : State) : Host.Outcome State Fault Refusal := s.onClock <|
  match s.takeDelivered 0x02 with
  | none => s.passOver "no RD_REQ is delivered"
  | some (s1, p) =>
    if s1.asleep ∨ 4096 < p.len then .next (s1.answerRead p 1 [] [])
    else
      match (s1.strikeModules hits).memRead (p.arg % 2 ^ 51) p.len false with
      | .ok t ps => .next (t.answerRead p 0 (ps.flatMap (·.1)) (piecePoison ps))
      | .fail _ => .next (s1.answerRead p 1 [] [])

/-- Some poisoned granule of a packet's payload lies in `n` bytes from offset `o` on. -/
def poisonedIn (ps : List Nat) (o n : Nat) : Bool := ps.any fun g => decide (8 * g < o + n) && decide (o < 8 * g + 8)
/-- TYZ_WR (R353): the oldest delivered write is performed and acknowledged. -/
def execTyzWr (hits : List (Nat × Upset)) (s : State) : Host.Outcome State Fault Refusal := s.onClock <|
  match s.takeDelivered 0x04 with
  | none => s.passOver "no WR is delivered"
  | some (s1, p) =>
    if s1.asleep then .next (s1.answerWrite p 1)
    else
      match (s1.strikeModules hits).memWrite (p.arg % 2 ^ 51) p.payload (poisonedIn p.payPoison) false with
      | .ok t _ => .next (t.answerWrite p 0)
      | .fail _ => .next (s1.answerWrite p 1)

/-- Take the request a response answers. -/
def State.takeRma (s : State) (tag : Nat) (write : Bool) : Option (State × Rma) :=
  match s.tyz.rma.find? fun r => r.tag == tag && r.write == write with
  | none => none
  | some r => some ({ s with tyz := { s.tyz with rma := s.tyz.rma.erase r } }, r)

/-- The flits of a response count for the job it answers (R422). -/
def State.jobFlits (s2 : State) (k i n : Nat) : State :=
  match s2.job k i with
  | some j => s2.actJob j (Activity.addFlits n)
  | none => s2
/-- The data of a read response: a migrated unit lands in scratchpad, another joins its job's units; with an error status the job fails. -/
def State.responseData (s2 : State) (p : TyzPkt) (r : Rma) (i : Nat) : State :=
  let s3 := s2.jobFlits r.engine i ((279 + p.payload.length) / 240)
  if p.arg % 256 ≠ 0 then s3.badJob r.engine i endBound
  else if r.kind = 2 then s3.migLand r.engine i r.unit p.payload (!p.payPoison.isEmpty)
  else s3.unitBack r.engine i r.unit p.payload (!p.payPoison.isEmpty)
/-- A write's acknowledgement: the unit has moved; with an error status the job fails. -/
def State.writeAcked (s2 : State) (p : TyzPkt) (r : Rma) (i : Nat) : State :=
  let s3 := s2.jobFlits r.engine i 1
  if p.arg % 256 ≠ 0 then s3.badJob r.engine i endBound
  else s3.onJob r.engine i fun x => { x with
    unacked := x.unacked - 1
    moved := x.moved + 1 }
/-- TYZ_RD_RSP (R266, R353 to R355): data of a migration waits at the engine outside the run phase. -/
def execTyzRdRsp (s : State) : Host.Outcome State Fault Refusal := s.onClock <|
  match s.takeDelivered 0x03 with
  | none => s.passOver "no RD_RSP is delivered"
  | some (s1, p) =>
    match s1.takeRma p.tag false with
    | none => .next s1
    | some (s2, r) =>
      match s2.jobIdx r.engine r.ring with
      | none => .next s2
      | some i =>
        if r.kind = 2 ∧ !s.inRunPhase then s.passOver "migration data waits for the run phase"
        else .next (s2.responseData p r i)

/-- TYZ_WR_ACK (R353, R355). -/
def execTyzWrAck (s : State) : Host.Outcome State Fault Refusal := s.onClock <|
  match s.takeDelivered 0x05 with
  | none => s.passOver "no WR_ACK is delivered"
  | some (s1, p) =>
    match s1.takeRma p.tag true with
    | none => .next s1
    | some (s2, r) =>
      match s2.jobIdx r.engine r.ring with
      | none => .next s2
      | some i => .next (s2.writeAcked p r i)

/-- TYZ_RMA_TIMEOUT (R355): the request with this tag has had no response within RMA_TO_US. -/
def execTyzRmaTimeout (tag : Nat) (at_ : Dword) (s : State) : Host.Outcome State Fault Refusal := s.onClock <|
  let t := s.advance at_
  match t.tyz.rma.find? fun r => r.tag == tag with
  | none => s.passOver "no such request is outstanding"
  | some r =>
    if (t.tb - r.sentAt).toNat < t.fld (pgTyz 0) R.tyz0_RMA_TO_US * 1000 then s.passOver "the timeout has not passed"
    else
      let t1 := { t with tyz := { t.tyz with rma := t.tyz.rma.erase r } }
      match t1.jobIdx r.engine r.ring with
      | none => .next t1
      | some i => .next (t1.badJob r.engine i endTimeout)

/-- A run of a section is cut (R258): its READ jobs deliver what they have read. -/
def State.flushJobs (s : State) (region : Nat) : State :=
  (List.range 32).foldl (fun (a : State) k =>
    (List.range (a.engine k).jobs.length).foldl (fun (b : State) i =>
      match b.job k i with
      | some j => if j.region = region ∧ j.opc = 0 then b.deliver k i true 256 else b
      | none => b) a) s

end Sys2Proof.Machine
end

