-- ==== Sys2Proof/Machine/Press.lean ====
section
/-! DEFINITION. The Flaoz press (R282 to R301, R304, R413): issue and acceptance of commands, bursts, triples, results, timeouts, HOT. -/
namespace Sys2Proof.Machine

def State.pressOf (s : State) (c : Nat) : Press := mapGet Press.zero s.press c
def State.setPress (s : State) (c : Nat) (p : Press) : State := { s with press := mapSet Press.zero s.press c p }
def Press.queue (p : Press) (q : Nat) : PressQ := mapGet PressQ.zero p.queues q
def State.pressQ (s : State) (c q : Nat) : PressQ := (s.pressOf c).queue q
def State.onPressQ (s : State) (c q : Nat) (f : PressQ → PressQ) : State :=
  let p := s.pressOf c
  s.setPress c { p with queues := mapSet PressQ.zero p.queues q (f (p.queue q)) }
def State.pressAvail (s : State) (c : Nat) : Bool := bitOf (s.fld (pgPress c) R.press_STS) 0

/-- What PRESSn.QSTS shows of a queue: the device's knowledge of it. -/
def State.showQueue (s : State) (c q seq status : Nat) : State :=
  s.setFld (pgPress c) (R.press_QSTS.up (4 * q)) (seq % 65536 + (s.pressQ c q).sent.length * 2 ^ 16 + status * 2 ^ 24)
def State.shownSeq (s : State) (c q : Nat) : Nat := s.fld (pgPress c) (R.press_QSTS.up (4 * q)) % 65536
def State.shownStatus (s : State) (c q : Nat) : Nat := s.fld (pgPress c) (R.press_QSTS.up (4 * q)) / 2 ^ 24

/-- Reset a queue through its QCTL (R287, R288): the FB-2 expects SEQ 0, the engine numbers from 0. The binding stands. -/
def State.resetQueue (s : State) (c q : Nat) : State :=
  let p := s.pressOf c
  ((s.setPress c { p with order := p.order.filter fun e => e.1 != q }).onPressQ c q fun x => { PressQ.zero with pair := x.pair }).showQueue
    c q 0xFFFF 0

/-! ### Commands (R284, Table 9.7) -/

def pcSeq (b : List Byte) : Nat := fieldAt b 0 2
def pcOpc (b : List Byte) : Nat := fieldAt b 2 1
def pcFlags (b : List Byte) : Nat := fieldAt b 3 1
def pcNq (b : List Byte) : Nat := fieldAt b 4 1
def pcFill (b : List Byte) : Nat := fieldAt b 5 1
def pcNblk (b : List Byte) : Nat := fieldAt b 6 2
def pcScale (b : List Byte) : Nat := fieldAt b 8 4
def pcClen (b : List Byte) : Nat := fieldAt b 0xC 4
def pcStart (b : List Byte) : Bool := bitOf (pcFlags b) 1
def pcChain (b : List Byte) : Bool := bitOf (pcFlags b) 2
/-- Where the block list starts. -/
def pcList (b : List Byte) : Nat := 64 + 64 * ((132 * pcNq b + 63) / 64)
/-- Channel-view offsets of the key and value segments of block `k`. -/
def pcKey (b : List Byte) (k : Nat) : Nat := 64 * fieldAt b (pcList b + 8 * k) 4
def pcVal (b : List Byte) (k : Nat) : Nat := 64 * fieldAt b (pcList b + 8 * k + 4) 4
def clenOf (nq nblk : Nat) : Nat := 64 + 64 * ((132 * nq + 63) / 64) + 64 * ((8 * nblk + 63) / 64)
def segBytes : Nat := 4224

/-- A reserved or out-of-range field (R289). -/
def pcBad (b : List Byte) : Bool :=
  let sc := pcScale b
  pcOpc b != 1 || decide (8 ≤ pcFlags b) || pcNq b == 0 || decide (16 < pcNq b) || pcFill b == 0 || decide (32 < pcFill b)
    || pcNblk b == 0 || decide (256 < pcNblk b) || fp32.isNan sc || fp32.isInf sc || !fp32.lt 0 sc
    || pcClen b != clenOf (pcNq b) (pcNblk b) || !zeroAt b 0x10 48
/-- Segments of the block list, as far as the command's bytes hold it. -/
def pcSegments (b : List Byte) : List Nat :=
  (List.range (min (pcNblk b) ((b.length - pcList b) / 8))).flatMap fun k => [pcKey b k, pcVal b k]

/-- Units of the command at the front of an engine's buffer (R291): CLEN tells. -/
def pcUnits (un : List Byte) : Nat := min 128 (max 1 ((pcClen un + 63) / 64))

/-- Least spacing of acceptances, in ns (R298, R413). -/
def State.pcmdNs (s : State) : Nat :=
  if s.regBit (pgPower * 0x1000 + 0xC) 8 then s.fld pgPower R.power_CAP1 else 20

/-- The run that binds a section's press streams goes on (R295). -/
def State.runActive (s : State) (region : Nat) : Bool :=
  match s.sectByRegion region with
  | none => false
  | some t => s.work.runs.any fun r => r.sid == t.sid && r.phase == .active

/-- A segment reaches into the host-exposed range (R302, R304). -/
def State.segExposed (s : State) (o : Nat) : Bool := decide (0 < s.hdmBytes) && decide (s.ilvS - s.hdmBytes < o + segBytes)
/-- A header granule may be written: the queue has credit, commands are spaced (R298, R413), none waits to be accepted (R293), and the run goes
on (R295). -/
def State.mayIssue (t : State) (c q region : Nat) : Bool :=
  (t.pressQ c q).credits != 0
    && (match (t.pressOf c).lastAccept with
      | none => true
      | some a => decide (t.pcmdNs ≤ (t.tb - a).toNat))
    && ((List.range 4).all fun j => (t.pressQ c j).slots.isEmpty) && t.runActive region
/-- The command at the front of an engine's buffer, with the queue's next number; and whether it is poisoned. -/
def PressQ.command (x : PressQ) (e : SeEnd) (n : Nat) : List Byte × Bool :=
  (leBytes 2 x.nextSeq ++ ((e.inbox.take n).flatMap (·.1)).drop 2, (e.inbox.take n).any fun u => !u.2.1.isEmpty)
/-- The engine writes a command of `n` units to its slot (R291). -/
def State.issueCmd (t : State) (c q : Nat) (pr : PressPair) (ei : Nat) (cmd : List Byte × Bool) (n : Nat) : State :=
  let t1 := (t.onSeEnd pr.engine ei fun y => { y with
    inbox := y.inbox.drop n
    freedSeq := (y.nextSeq + 65536 - y.inbox.length - 1) % 65536 }).seFreed pr.engine ei n
  let t2 := t1.onPressQ c q fun y => { y with
    slots := mapPut y.slots (y.nextSeq % 32) cmd
    sent := y.sent ++ [(y.nextSeq, pcChain cmd.1)]
    nextSeq := (y.nextSeq + 1) % 65536
    credits := y.credits - 1 }
  t2.showQueue c q (t2.shownSeq c q) (t2.shownStatus c q)
/-- PRESS_CMD_ISSUE (R287, R291, R293, R295, R298, R304, R413): the engine writes the next command of queue `q`, header granule last. -/
def execPressCmdIssue (c q : Nat) (at_ : Dword) (s : State) : Host.Outcome State Fault Refusal := s.onClock <|
  let t := s.advance at_
  let x := t.pressQ c q
  match x.pair with
  | none => s.passOver "no press stream pair is bound"
  | some pr =>
    match (t.engine pr.engine).endOf pr.region pr.cmdStream false with
    | none => s.passOver "the command stream is not bound"
    | some ei =>
      match (t.engine pr.engine).ends[ei]? with
      | none => s.passOver "the command stream is not bound"
      | some e =>
        match e.inbox with
        | [] => s.passOver "no command has come"
        | un :: _ =>
          let n := pcUnits un.1
          if !t.pressAvail c || !t.inService c then s.passOver "the press is not available"
          else if e.inbox.length < n then s.passOver "the command has not come whole"
          else if !t.mayIssue c q pr.region then s.passOver "no header granule may be written"
          else if (pcSegments (x.command e n).1).any t.segExposed then
            .next ((t.bump (pgPress c) R.press_REFUSED 2 1).faultRegion pr.region ⟨0x23, 0x02, 0⟩)
          else .next (t.issueCmd c q pr ei (x.command e n) n)

/-- Status of a command as it is accepted (R286, R298): 0 none, 1 BOUND, 2 FORMAT, 4 HOT. -/
def State.acceptStatus (t : State) (c : Nat) (x : PressQ) (bs : List Byte) : Nat :=
  if pcBad bs || pcSeq bs != x.expect then 2 else if 105 * 256 ≤ (t.module c).temp then 4
  else if (pcSegments bs).any (fun o => decide (t.ilvS < o + segBytes)) then 1 else 0
/-- The FB-2 accepts the command of a slot: it joins its queue and the press's order, and is counted. -/
def State.acceptCmd (t : State) (c q slot : Nat) (bs : List Byte) (poison : Bool) : State :=
  let x := t.pressQ c q
  let seq := pcSeq bs
  let cmd : PressCmd := ⟨seq, bs, poison, t.tb, t.acceptStatus c x bs, [], t.tb, none, false⟩
  let p := t.pressOf c
  let t1 := (t.setPress c { p with order := p.order ++ [(q, seq)], lastAccept := some t.tb }).onPressQ c q fun y => { y with
    slots := mapErase y.slots slot
    expect := (seq + 1) % 65536
    cmds := y.cmds ++ [cmd] }
  (t1.bump (pgPress c) R.press_CMD_CNT 0 1).actRegion ((x.pair.map (·.region)).getD 256) (Activity.addUnits (bs.length / 64))
/-- PRESS_CMD_ACCEPT (R286, R287, R289, R298): the FB-2 accepts the command in slot `slot` of queue `q` on its VALID header granule. -/
def execPressCmdAccept (c q slot : Nat) (at_ : Dword) (s : State) : Host.Outcome State Fault Refusal := s.onClock <|
  let t := s.advance at_
  match (t.pressQ c q).slots.find? fun e => e.1 == slot with
  | none => s.passOver "no header granule has arrived in this slot"
  | some (_, bs, poison) =>
    if !bitOf (pcFlags bs) 0 then s.passOver "the header granule is not VALID"
    else .next (t.acceptCmd c q slot bs poison)

/-! ### Bursts (R299) -/

/-- Its triples are computed. -/
def PressCmd.computed (m : PressCmd) : Bool := m.result.isSome
def PressCmd.wantsBurst (m : PressCmd) : Bool := m.bad == 0 && decide (m.segs.length < 2 * pcNblk m.bytes)
/-- The command whose bursts the press performs: the oldest accepted one that still wants some. -/
def Press.atWork (p : Press) : Option (Nat × PressCmd) :=
  p.order.findSome? fun e => match (p.queue e.1).cmds.find? fun m => m.seq == e.2 with
    | some m => if m.wantsBurst then some (e.1, m) else none
    | none => none
/-- Burst time (Table 9.11). -/
def State.burstNs (s : State) : Nat := if s.fld (pgMem 0) R.mem_ILV / 2 ^ 16 % 4 = 1 then 32 else 24
/-- The earliest start without tPAW. -/
def Press.ready (p : Press) (m : PressCmd) : Dword :=
  let first := m.acceptedAt + 16
  if m.segs.isEmpty && before p.lastEnd first then first else p.lastEnd
/-- Bursts started in (t − 1,000 ns, t]. -/
def Press.windowed (p : Press) (t : Dword) : Nat := (p.starts.filter fun a => decide ((t - a).toNat < 1000)).length
/-- How long tPAW alone has held a burst that starts at `t`: from when the press was ready, where the window was then full. -/
def Press.held (p : Press) (m : PressCmd) (t : Dword) : Nat :=
  if p.pawLimit ≤ p.windowed (p.ready m) then (t - p.ready m).toNat else 0

/-- Read a segment through the channel view, granule by granule: bytes, poisoned. -/
def State.readSegment (s : State) (c off : Nat) : Nat → State × List Byte × Bool
  | 0 => (s, [], false)
  | n + 1 =>
    let (s1, p) := s.memReadGranule c (off / 64)
    let (s2, b) := s1.viewBytes c off false 64
    let (s3, r, q) := s2.readSegment c (off + 64) n
    (s3, b ++ r, p || q)

def State.onCmd (s : State) (c q seq : Nat) (f : PressCmd → PressCmd) : State :=
  s.onPressQ c q fun x => { x with cmds := x.cmds.map fun m => if m.seq = seq then f m else m }

/-- The segment of a command's next burst. -/
def PressCmd.nextSegment (m : PressCmd) : Nat :=
  if m.segs.length % 2 = 0 then pcKey m.bytes (m.segs.length / 2) else pcVal m.bytes (m.segs.length / 2)
/-- The section whose runs a queue serves: its REGION. -/
def State.queueOwner (t : State) (c q : Nat) : Nat := ((t.pressQ c q).pair.map (·.region)).getD 256
/-- A burst reads the next segment of a command (R299, R300); what tPAW alone has held it is counted. -/
def State.burst (t : State) (c q : Nat) (m : PressCmd) : State :=
  let (t1, bs, ps) := t.readSegment c m.nextSegment 66
  let fin := t.tb + BitVec.ofNat 64 t.burstNs
  let p1 := t1.pressOf c
  let t2 := (t1.setPress c { p1 with
    starts := t.tb :: p1.starts.filter fun a => decide ((t.tb - a).toNat < 1000)
    lastEnd := fin }).onCmd c q m.seq fun y => { y with
      segs := y.segs ++ [bs]
      poison := y.poison || ps
      endAt := fin }
  let t3 := (t2.bump (pgPress c) R.press_BURST_CNT 1 1).actRegion (t2.queueOwner c q) fun a => { a with
    bursts := a.bursts + 1
    units := a.units + 66 }
  let wait := (t.pressOf c).held m t.tb
  if wait = 0 then t3 else t3.accumulate (pgPress c) R.press_THROTTLE_NS 4 wait
/-- PRESS_BURST_START (R299, R300, R303): the press reads the next segment of the command at work. DESIGN CHOICE (assumption 94): where the
host-exposed range has grown over the segment since the command was issued, the press reads nothing, the command ends BOUND and its run
is cut as R304 has it. -/
def execPressBurstStart (c : Nat) (at_ : Dword) (hits : List (Nat × Upset)) (s : State) : Host.Outcome State Fault Refusal := s.onClock <|
  let t := (s.advance at_).strikeModules hits
  let p := t.pressOf c
  match p.atWork with
  | none => s.passOver "no command wants a burst"
  | some (q, m) =>
    if before t.tb (p.ready m) ∨ p.pawLimit ≤ p.windowed t.tb ∨ !t.inService c then s.passOver "no burst may start"
    else if t.segExposed m.nextSegment then
      .next (((t.onCmd c q m.seq fun y => { y with bad := 1, endAt := t.tb }).bump (pgPress c) R.press_REFUSED 2 1).faultRegion
        (t.queueOwner c q) ⟨0x23, 0x02, 0⟩)
    else .next (t.burst c q m)

/-! ### Triples (R296, R297) -/

/-- Element and exponent byte of a KB8 group of n = 4 at byte `o`. -/
def kbElem (bs : List Byte) (o i : Nat) : Int := signed 8 (bs.getD (o + i) 0).toNat
def kbExp (bs : List Byte) (o b : Nat) : Nat := (bs.getD (o + 128 + b) 0).toNat
def kbBad (bs : List Byte) (o : Nat) : Bool := (List.range 4).any fun b => kbExp bs o b == 255

/-- Bits and flags of a sum of rounded adds. -/
def addUp (xs : List Nat) : FRes :=
  match xs with
  | [] => ⟨0, 0⟩
  | x :: r => r.foldl (fun a y => let z := fp32.add a.bits y; ⟨z.bits, a.flags ||| z.flags⟩) ⟨x, 0⟩

/-- The score of a query at byte `qo` against the key group of token `t`. -/
def pressScore (bytes : List Byte) (qo : Nat) (seg : List Byte) (t scale : Nat) : FRes :=
  let o := 132 * t
  let xs := (List.range 4).map fun b =>
    let p := (List.range 32).foldl (fun a i => a + kbElem bytes qo (32 * b + i) * kbElem seg o (32 * b + i)) 0
    fp32.roundInt p (((kbExp bytes qo b + kbExp seg o b : Nat) : Int) - 254) false
  let sum := addUp (xs.map (·.bits))
  let r := fp32.mul sum.bits scale
  ⟨r.bits, (xs.foldl (fun a x => a ||| x.flags) 0) ||| sum.flags ||| r.flags⟩

/-- Weights of the tokens of a block, taking a free value each (R93). -/
def State.pressWeights (s : State) (m : Nat) : List Nat → State × List Nat
  | [] => (s, [])
  | x :: xs =>
    let (d, s1) := s.takeFree
    let (s2, ws) := s1.pressWeights m xs
    (s2, lseWeight x m d :: ws)

/-- Value element `i` of token `t`. -/
def pressValue (seg : List Byte) (t i : Nat) : Nat :=
  (fp32.roundInt (kbElem seg (132 * t) i) (((kbExp seg (132 * t) (i / 32) : Nat) : Int) - 127) false).bits

/-- A running triple as one list, with flags (bit 2 OVF, bit 0 INV) and whether an exponent 0xFF has made it NaN. -/
structure PressAcc where
  elems : List Nat
  flags : Nat
  dead : Bool
deriving DecidableEq, Repr

def PressAcc.start : PressAcc := ⟨fp32.infBits true :: List.replicate 129 0, 0, false⟩

/-- One block into a query's running triple. -/
def State.pressBlock (s : State) (bytes : List Byte) (qo used : Nat) (key val : List Byte) (a : PressAcc) : State × PressAcc :=
  let toks := List.range used
  let bad := kbBad bytes qo || toks.any fun t => kbBad key (132 * t) || kbBad val (132 * t)
  if bad || a.dead then (s, ⟨List.replicate 130 fp32.qnan, a.flags ||| flagINV, true⟩)
  else
    let sc := toks.map fun t => pressScore bytes qo key t (pcScale bytes)
    let m := match sc with
      | [] => fp32.infBits true
      | x :: r => r.foldl (fun b y => (fp32.maxi b y.bits).bits) x.bits
    let (s1, ws) := s.pressWeights m (sc.map (·.bits))
    let sum := addUp ws
    let os := (List.range 128).map fun i =>
      let ps := toks.map fun t => fp32.mul (ws.getD t 0) (pressValue val t i)
      let z := addUp (ps.map (·.bits))
      (⟨z.bits, z.flags ||| ps.foldl (fun b p => b ||| p.flags) 0⟩ : FRes)
    let (d1, s2) := s1.takeFree
    let (d2, s3) := s2.takeFree
    let r := lseMerge a.elems (m :: sum.bits :: os.map (·.bits)) d1 d2
    let ovf := sc.any (fun x => bitOf x.flags 2) || bitOf sum.flags 2 || os.any (fun x => bitOf x.flags 2) || r.ovf
    (s3, ⟨r.elems, a.flags ||| (if ovf then flagOVF else 0) ||| (if r.inv then flagINV else 0), false⟩)

def State.pressBlocks (s : State) (m : PressCmd) (qo : Nat) (a : PressAcc) : List Nat → State × PressAcc
  | [] => (s, a)
  | k :: ks =>
    let used := if k + 1 = pcNblk m.bytes then pcFill m.bytes else 32
    let (s1, a1) := s.pressBlock m.bytes qo used (m.segs.getD (2 * k) []) (m.segs.getD (2 * k + 1) []) a
    s1.pressBlocks m qo a1 ks

def Triple.acc (t : Triple) : PressAcc := ⟨t.m :: t.s :: t.o, t.flags, bitOf t.flags 0 && t.m == fp32.qnan⟩
def PressAcc.triple (a : PressAcc) (poison : Bool) : Triple := ⟨a.elems.getD 0 0, a.elems.getD 1 0, a.elems.drop 2, poison, a.flags⟩

/-- Every query of a command, from the queue's running triples. -/
def State.pressQueries (s : State) (m : PressCmd) (run : List Triple) : List Nat → State × List Triple
  | [] => (s, [])
  | j :: js =>
    let a := match run[j]? with | some t => t.acc | none => PressAcc.start
    let (s1, a1) := s.pressBlocks m (64 + 132 * j) a (List.range (pcNblk m.bytes))
    let poison := m.poison || (match run[j]? with | some t => t.poison | none => false)
    let (s2, r) := s1.pressQueries m run js
    (s2, a1.triple poison :: r)

/-- The running triples a command merges into: START = 1 discards them first (R288). -/
def PressQ.base (x : PressQ) (m : PressCmd) : List Triple := if pcStart m.bytes then [] else x.run.getD []
/-- PRESS_ATTN (R288, R296, R297): the oldest command of queue `q` has read all its segments; its triples are computed. -/
def execPressAttn (c q : Nat) (s : State) : Host.Outcome State Fault Refusal := s.onClock <|
  match (s.pressQ c q).cmds with
  | [] => s.passOver "no command is accepted"
  | m :: _ =>
    if m.bad ≠ 0 ∨ m.computed ∨ m.wantsBurst then s.passOver "the command has not read all its segments"
    else
      let (s1, ts) := s.pressQueries m ((s.pressQ c q).base m) (List.range (pcNq m.bytes))
      .next (s1.onCmd c q m.seq fun y => { y with result := some ts })

/-! ### Results (R288, R289, Table 9.8) -/

def Triple.bytes (t : Triple) : List Byte := bytes32 (t.m :: t.s :: t.o)
/-- A result slot's bytes. -/
def resultBytes (m : PressCmd) (status flags execNs : Nat) (ts : List Triple) : List Byte :=
  leBytes 2 m.seq ++ leBytes 1 status ++ leBytes 1 flags ++ leBytes 1 (pcNq m.bytes) ++ List.replicate 3 0 ++ leBytes 4 m.segs.length
    ++ leBytes 4 execNs ++ List.replicate 48 0 ++ ts.flatMap Triple.bytes

/-- Status and flag bits of a command that completes (Table 9.8). -/
def PressCmd.status (m : PressCmd) : Nat := if m.bad ≠ 0 then m.bad else if m.poison then 3 else 0
def PressCmd.triples (m : PressCmd) : List Triple := if m.bad = 0 then m.result.getD [] else []
def PressCmd.resultFlags (m : PressCmd) : Nat :=
  let fl := m.triples.foldl (fun a x => a ||| x.flags) 0
  b2n (bitOf fl 2) + 2 * b2n (bitOf fl 0)
/-- The oldest command of a queue completes (R288, R289): QCOMP shows it; without CHAIN its result slot is written, with it the running triples
stand for the next command. -/
def State.completeCmd (t : State) (c q : Nat) (m : PressCmd) : State :=
  let chain := pcChain m.bytes
  let res := resultBytes m m.status m.resultFlags (t.tb - m.acceptedAt).toNat m.triples
  let p := t.pressOf c
  (t.setPress c { p with order := p.order.erase (q, m.seq) }).onPressQ c q fun x => { x with
    cmds := x.cmds.drop 1
    qseq := m.seq
    qstatus := m.status
    run := if m.bad ≠ 0 then x.run else if chain then some m.triples else none
    results := if chain then x.results else mapPut x.results (m.seq % 32) (res, m.bad == 0 && m.triples.any (·.poison)) }
/-- PRESS_CMD_COMPLETE (R288, R289, R298): the oldest command of queue `q` completes. -/
def execPressCmdComplete (c q : Nat) (at_ : Dword) (s : State) : Host.Outcome State Fault Refusal := s.onClock <|
  let t := s.advance at_
  match (t.pressQ c q).cmds with
  | [] => s.passOver "no command is accepted"
  | m :: _ =>
    if (m.bad = 0 ∧ !m.computed) ∨ (t.tb - m.endAt).toNat < 40 ∨ before t.tb m.endAt ∨ !t.inService c then
      s.passOver "the command has not ended"
    else .next (t.completeCmd c q m)

/-! ### The engine's side (R291, R292, R294) -/

/-- Send what units of results the stream's credits allow. -/
def State.pressDeliver (s : State) (c q k ei : Nat) : Nat → State
  | 0 => s
  | n + 1 =>
    match (s.pressQ c q).toSend, (s.engine k).ends[ei]? with
    | (bs, ps) :: rest, some e =>
      if !e.hasCredit 1 then s
      else
        let h := mkHeader e.pos (enginePos k) (s.endNetwork e) false 0 e.region e.stream (e.nextSeq % 65536) 64
        (((s.onPressQ c q fun x => { x with toSend := rest }).onSeEnd k ei fun x => { x.takeCredit 1 with
          nextSeq := (x.nextSeq + 1) % 65536 }).engineSend k (.data h bs ps)).pressDeliver c q k ei n
    | _, _ => s

/-- Contribute the triples of a result to a reduction (R292). -/
def State.pressReduce (s : State) (pr : PressPair) (body : List Byte) (poison : Bool) (ovf inv : Bool) : List Nat → State
  | [] => s
  | j :: js =>
    match s.sectByRegion pr.region with
    | none => s
    | some t =>
      let tag := (pr.tag + j) % 4096
      let seq := mapGet 0 t.contrib tag % 256
      let pay := (body.drop (520 * j)).take 520
      let h := withHcrc ((mkHeader pr.pos pr.pos 1 false 4 pr.region tag (seq + 128 * 2 ^ 8 + 2 ^ 17) 520) % 2 ^ 112
        + b2n ovf * 2 ^ 96 + b2n inv * 2 ^ 97)
      let s1 := { s with work := { s.work with sects := s.work.sects.map fun (x : Sect) =>
        if x.region = t.region then { x with contrib := mapPut x.contrib tag (mapGet 0 x.contrib tag + 1) } else x } }
      (s1.reduceArrive pr.pos 4 (.data h pay (if poison then List.range 65 else []))).pressReduce pr body poison ovf inv js

/-- The engine has read the result slot of a command that it delivers. -/
def State.takeResult (s : State) (c q : Nat) (pr : PressPair) (bs : List Byte) (poison : Bool) : State :=
  let nq := fieldAt bs 4 1
  let fl := fieldAt bs 3 1
  let body := (bs.drop 64).take (520 * nq)
  let s := s.actRegion pr.region (Activity.addUnits (bs.length / 64))
  if pr.red then s.pressReduce pr body poison (bitOf fl 0) (bitOf fl 1) (List.range nq)
  else
    let units := (List.range ((520 * nq + 63) / 64)).map fun u => (takePad 0 64 ((body.drop (64 * u)).take 64), if poison then List.range 8 else [])
    let s1 := s.onPressQ c q fun x => { x with toSend := x.toSend ++ units }
    s1.vxFlag pr.pos pr.ctx ((if bitOf fl 0 then flagOVF else 0) ||| (if bitOf fl 1 then flagINV else 0))

/-- The result of a command as the engine acts on its status (R294, R301). -/
def State.pressStatus (s : State) (c : Nat) (pr : PressPair) (status : Nat) : State :=
  if status = 1 then s.faultRegion pr.region endBound
  else if status = 2 then s.faultRegion pr.region (endFormat 4)
  else if status = 4 then (s.event (pgPress c) 2).faultRegion pr.region ⟨0x22, 0x21, 0⟩
  else s

/-- The commands QCOMP shows complete, oldest first. -/
def State.pressSeen (s : State) (c q : Nat) (pr : PressPair) : List (Nat × Bool) → State
  | [] => s
  | (seq, chain) :: rest =>
    let x := s.pressQ c q
    let s1 := s.onPressQ c q fun y => { y with
      sent := y.sent.drop 1
      credits := y.credits + 1
      results := if chain then y.results else mapErase y.results (seq % 32) }
    let s2 :=
      if chain then (if seq = x.qseq then s1.pressStatus c pr x.qstatus else s1)
      else match x.results.find? fun e => e.1 == seq % 32 with
        | none => s1
        | some (_, bs, poison) =>
          let st := fieldAt bs 2 1
          if st = 0 ∨ st = 3 then s1.takeResult c q pr bs (poison || st == 3) else s1.pressStatus c pr st
    s2.pressSeen c q pr rest

/-- The engine reads QCOMP (R291, R292): it takes up what has completed, and delivers results under the result stream's credits. -/
def State.pollQcomp (t : State) (c q : Nat) (pr : PressPair) : State :=
  let x := t.pressQ c q
  let upTo := if t.inService c then x.sent.findIdx? fun e => e.1 == x.qseq else none
  let t2 := match upTo with
    | none => t
    | some i => (t.pressSeen c q pr (x.sent.take (i + 1))).showQueue c q x.qseq x.qstatus
  match (t2.engine pr.engine).endOf pr.region pr.resStream true with
  | none => t2
  | some ei => t2.pressDeliver c q pr.engine ei 4096
/-- PRESS_QCOMP_POLL (R291, R292, R294, R301): the engine reads QCOMP of a queue with commands outstanding, or with results to deliver. -/
def execPressQcompPoll (c q : Nat) (at_ : Dword) (s : State) : Host.Outcome State Fault Refusal := s.onClock <|
  let t := s.advance at_
  let x := t.pressQ c q
  match x.pair with
  | none => s.passOver "no press stream pair is bound"
  | some pr =>
    if x.sent.isEmpty && x.toSend.isEmpty then s.passOver "the queue has no command outstanding"
    else .next (t.pollQcomp c q pr)

/-- A command has had no QCOMP update for 10 µs (R294): it is counted and reported, and its run ends. -/
def State.pressTimedOut (t : State) (c q : Nat) (m : PressCmd) (pr : PressPair) : State :=
  ((((t.onCmd c q m.seq fun y => { y with timed := true }).bump (pgPress c) R.press_TIMEOUTS 3 1).event (pgPress c) 1).rasReport
    2 0x13 (pgPress c) [c, q] 0).faultRegion pr.region endInternal
/-- PRESS_TIMEOUT (R294): the oldest command accepted and without a QCOMP update for 10 µs ends its run. -/
def execPressTimeout (c q : Nat) (at_ : Dword) (s : State) : Host.Outcome State Fault Refusal := s.onClock <|
  let t := s.advance at_
  let x := t.pressQ c q
  match x.cmds.find? fun m => !m.timed, x.pair with
  | some m, some pr =>
    if (t.tb - m.acceptedAt).toNat < 10000 then s.passOver "10 µs have not passed"
    else .next (t.pressTimedOut c q m pr)
  | _, _ => s.passOver "no command waits for its completion"

/-- PRESS_QUEUE_RESET (R287, R288): the device writes a queue's QCTL. -/
def execPressQueueReset (c q : Nat) (s : State) : Host.Outcome State Fault Refusal := s.onClock <|
  if s.pressAvail c ∧ q < 4 then .next (s.resetQueue c q) else s.passOver "no such press queue"

/-- The module is at 105 °C (R301): no burst may start, and every command that has not completed ends HOT. -/
def State.goHot (s : State) (c : Nat) (temp : Int) : State :=
  let m := s.module c
  let p := s.pressOf c
  (s.setModule c { m with temp := temp }).setPress c { p with
    pawLimit := 0
    hot := true
    queues := p.queues.map fun e => (e.1, { e.2 with cmds := e.2.cmds.map fun x =>
      if x.bad = 0 then { x with bad := 4, endAt := s.tb } else x }) }
/-- PRESS_HOT (R301): the module's temperature reaches 105 °C; every command that has not completed ends HOT. -/
def execPressHot (c : Nat) (temp : Int) (s : State) : Host.Outcome State Fault Refusal := s.onClock <|
  if temp < 105 * 256 ∨ !s.pressAvail c then s.passOver "the module is below 105 °C"
  else .next (s.goHot c temp)

/-! ### tPTHERM (R300) -/

/-- Table 9.12. -/
def pawOf (temp : Int) : Nat := if temp ≤ 85 * 256 then 64 else if temp ≤ 95 * 256 then 32 else if temp < 105 * 256 then 8 else 0
/-- The threshold that set a limit, in 1/256 °C. -/
def pawThreshold (limit : Nat) : Int := if limit = 32 then 85 * 256 else if limit = 8 then 95 * 256 else 105 * 256
/-- The limit a tick writes. -/
def pawNext (cur : Nat) (temp : Int) : Nat :=
  let new := pawOf temp
  if new < cur then new else if cur < new ∧ temp ≤ pawThreshold cur - 3 * 256 then new else cur

end Sys2Proof.Machine
end

