-- ==== Sys2Proof/Machine/Channels.lean ====
section
/-! DEFINITION. Module channels: bring-up, loss, the interleave set and its refill (R268 to R272, R276, R282, R302, R454, R455). -/
namespace Sys2Proof

/-- The FB-2 answers as R282 asks. -/
def Spd.identOk (d : Spd) : Bool := d.magic == 0x32425A46 && d.version == 1 && d.queues == 4 && d.nqMax == 16
/-- The module is one of Table 9.1 (R268). -/
def Spd.fits (d : Spd) : Bool := d.supported && (d.gib == 64 || d.gib == 128 || d.gib == 256) && decide (8800 ≤ d.rate)

end Sys2Proof

namespace Sys2Proof.Machine

def State.setMemSts (s : State) (c : Nat) (bit : Nat) (b : Bool) : State := s.setRegBit (memStsAddr c) bit b

/-- The FB-2 is identified or not (R282, R287). -/
def State.identify (s : State) (c : Nat) (d : Spd) : State :=
  let ok := d.fb2 && d.identOk
  let s1 := (s.setMemSts c 2 ok).setFld (pgPress c) R.press_STS (b2n ok)
  let s2 := s1.setPress c { Press.zero with pawLimit := if ok then pawOf (s.module c).temp else 0 }
  let s3 := s2.setFld (pgPress c) R.press_PAW_EFF (if ok then pawOf (s.module c).temp else 0)
  let s4 := (List.range 4).foldl (fun (a : State) q => a.showQueue c q 0xFFFF 0) s3
  if d.fb2 && !d.identOk then s4.event (pgPress c) 0 else s4

/-- The training of a channel fails (R269). -/
def State.trainFailed (s : State) (c : Nat) : State :=
  let m := s.module c
  ((s.setModule c { m with trainFails := m.trainFails + 1 }).event (pgMem c) 0).channelCause
/-- A channel trains and enters service (R268, R269, R282): the module is zero-filled unless it has kept its contents, an FB-2 identified, the
strobe groups' offsets applied. -/
def State.channelUp (s : State) (c : Nat) (spd : Spd) : State :=
  let m := s.module c
  let s1 := s.setModule c { m with
    gen2 := decide (12800 ≤ spd.rate)
    mem := if m.retained then m.mem else EccMem.zero
    wbq := if m.retained then m.wbq else []
    scrubPos := 0
    trainFails := 0
    retained := false }
  let s2 := (s1.setMemSts c 0 true).setFld (pgMem c) R.mem_STS
    (setBits (setBits (s1.fld (pgMem c) R.mem_STS) 16 8 spd.gib) 3 0 3)
  ((s2.identify c spd).calDeskew c).channelCause
/-- CHANNEL_BRINGUP (R268, R269, R272, R282, R454, R460): the SPD is read; the channel trains or fails; an FB-2 is identified; the module
is zero-filled unless it has kept its contents. -/
def execChannelBringup (c : Nat) (spd : Spd) (trains : Bool) (s : State) : Host.Outcome State Fault Refusal := s.onClock <|
  if 16 ≤ c ∨ s.memLost c ∨ s.inService c then s.passOver "the channel is not brought up here"
  else if !spd.fits then .next ((s.setMemSts c 3 true).channelCause)
  else .next (if trains then s.channelUp c spd else s.trainFailed c)

/-- A job has a unit, not yet moved, on a channel. -/
def State.jobOn (s : State) (j : SeJob) (c : Nat) : Bool :=
  j.kind == 0 && (List.range j.total).any fun u =>
    decide (j.moved ≤ u) && j.unitAddr u / 2 ^ 51 == ownDev s &&
      (match s.memLoc (j.unitAddr u % 2 ^ 51) with | .module k _ _ => k == c | _ => false)

/-- A channel is taken out of service (R454). -/
def State.loseChannel (s : State) (c : Nat) : State :=
  let hit := fun (j : SeJob) => if s.jobOn j c then { j with bad := some (j.bad.getD 0x3F) } else j
  let es := s.ses.map fun (e : Nat × SEngine) => (e.1, { e.2 with jobs := e.2.jobs.map hit })
  let regions := (s.ses.flatMap fun (e : Nat × SEngine) => (e.2.jobs.filter fun j => s.jobOn j c && decide (j.opc ≤ 1)).map (·.region)).eraseDups
  let s1 := regions.foldl (fun (a : State) r => a.faultRegion r endInternal) { s with ses := es }
  let s2 := ((s1.setMemSts c 1 false).setMemSts c 4 true).event (pgMem c) 1
  let s3 := (s2.rasReport 2 0x12 (pgMem c) [c] 0).channelCause
  { s3 with sys := { s3.sys with mapDue := true } }

/-- A loss condition of a channel holds (R454). -/
def State.lossMet (s : State) (c why : Nat) : Bool :=
  let m := s.module c
  if why = 0 then decide (3 ≤ m.trainFails)
  else if why = 1 then decide (3 ≤ (recent s.tb 1000000000 m.wcrcTimes).length)
  else if why = 2 then decide (s.fld pgRepair R.repair_CH_UE_THR ≤ (recent s.tb 3600000000000 m.ueTimes).length)
  else why == 3
/-- CHANNEL_LOST (R454): `why` 0 three failed trainings, 1 three failed write retries within 1 s, 2 its UE threshold within one hour,
3 the module stops answering on the sideband. -/
def execChannelLost (c why : Nat) (s : State) : Host.Outcome State Fault Refusal := s.onClock <|
  if 16 ≤ c ∨ s.memLost c ∨ !s.lossMet c why then s.passOver "no loss condition of the channel holds"
  else .next (s.loseChannel c)

/-- CHAN_RESTORED_WRITE (R455): the refill has ended; the deferrals end at the next tick. -/
def execChanRestoredWrite (rq : Req) (val : Word) (s : State) : Host.Outcome State Fault Refusal :=
  .next (s.busWrite rq (pgRepair * 0x1000 + 0x64) val fun t =>
    (if val.toNat % 2 = 1 ∧ t.sys.refill ≠ 0 then { t with sys := { t.sys with refill := 2 } } else t, resDone))

/-! ### At a tick (R270 to R272, R276, R302, R455) -/

def listMin : List Nat → Nat
  | [] => 0
  | [x] => x
  | x :: r => min x (listMin r)

/-- GEN, SIZE_GIB and SIZE_MIXED of the channels in service. -/
def State.showIlv (s : State) : State :=
  let l := s.servedChannels
  let sizes := l.map s.moduleGib
  let sz := listMin sizes
  let mixed := sizes.any fun g => g != sz
  let gen := if l.isEmpty then 0 else if l.all fun c => (s.module c).gen2 then 2 else 1
  let set := l.foldl (fun a c => a + 2 ^ c) 0
  (s.setFld (pgMem 0) R.mem_ILV (set + gen * 2 ^ 16 + b2n mixed * 2 ^ 18)).setFld (pgMem 0) (R.mem_ILV.up 4) sz

/-- Re-form the interleave set where the channels in service differ from it (R276, R454, R455). -/
def State.reformIlv (s : State) : State :=
  let s0 := if s.sys.refill = 2 then { s with sys := { s.sys with refill := 0 } } else s
  if s0.servedChannels = s0.ilvSet then s0
  else
    let old := s0.ilvSet
    let s1 := s0.showIlv
    if old.isEmpty then s1
    else
      let ms := s1.mods.map fun (e : Nat × Module) => (e.1, { e.2 with reformed := true, written := [] })
      let s2 := { s1 with mods := ms }
      let host := s2.flag pgRepair R.repair_CHAN0_POLICY
      let s3 := { s2 with sys := { s2.sys with refill := if host then 1 else 3 } }
      if host then s3.event pgRepair 1 else s3

/-- The peer of a refill cannot be reached: the host refills (R455). -/
def State.peerFallback (s : State) (reachable : Nat → Bool) : State :=
  if s.sys.refill = 3 ∧ !reachable (s.fld pgRepair R.repair_CHAN0_REPLICA) then
    ({ s with sys := { s.sys with refill := 1 } }).event pgRepair 1
  else s

end Sys2Proof.Machine
end

