-- ==== Sys2Proof/Machine/Release.lean ====
section
/-! DEFINITION. Tick steps 4 and 6: UNLOADs, the release of regions, binding of stream ends, token outputs and press queues, slot
reservations, Tyzil tables and reservations (R77, R86, R208, R225, R238, R249, R252, R260, R261, R287, R290, R347, R352, R356 to R358,
R362, R625, R652, R653). -/
namespace Sys2Proof.Machine

/-! ### LOAD -/

/-- The bytes a LOAD's reads return: those of this device's module memory where IMAGE_ADDR is a global address in it; else, from the host
or another device, the operand. `none` with an ending: the read fails (R226). -/
def State.imageBytes (s : State) (addr kind len : Nat) (given : List Byte) : State × Except Ending (List Byte) :=
  if kind = 1 ∧ addr / 2 ^ 51 = ownDev s then
    match s.memRead (addr % 2 ^ 51) len false with
    | .ok t ps => (t, if ps.any (·.2) then .error ReadEnd.poison.ending else .ok (ps.flatMap (·.1)))
    | .fail f => (s, .error f.jobEnding)
  else (s, .ok (takePad 0 len given))
/-- DESC_LOAD (R199, R200, R224, R226): the control firmware takes up a fetched LOAD and places its image. `image` is what reads of the host
or of another device return; the reads of an image in this device's module memory are made here (log entry 88). -/
def execDescLoad (d : Nat) (place : Placement) (image : List Byte) (s : State) : Host.Outcome State Fault Refusal := s.onClock <|
  match s.desc d with
  | none => s.passOver "no such descriptor"
  | some x =>
    if x.type ≠ 2 ∨ x.phase ≠ .ready ∨ x.post.isSome then s.passOver "no LOAD waits under this number"
    else
      match s.imageBytes (x.at_ 0x10 8) (x.at_ 0x18 1) (x.at_ 0x1C 4) image with
      | (t, .ok bs) => .next (t.beginLoad (some d) place bs)
      | (t, .error e) => .next (t.post d e.code e.reason e.detail true)

/-! ### Tables -/

/-- Install a section's multicast and reduction entries in the routers' shadow tables. -/
def State.installTables (s : State) (t : Sect) : State :=
  let s1 := (s.mcEntries t.region t.streams t.trees t.place).foldl (fun (a : State) e =>
    let r := (a.router e.1).shadow
    match r.mcFree with
    | some i => a.setRouter e.1 { r with mcSh := putWords r.mcSh (2 * i) [e.2.1, e.2.2] }
    | none => a) s
  (s1.redEntries t.region t.trees t.place).foldl (fun (a : State) e =>
    let r := (a.router e.1).shadow
    match r.redFree with
    | some i => a.setRouter e.1 { r with redSh := putWords r.redSh (4 * i) e.2 }
    | none => a) s1

/-! ### Binding -/

/-- The record index, within its cell, of stream record `i`. -/
def recIndex (streams : List StreamRec) (i : Nat) : Nat :=
  match streams[i]? with
  | none => 0
  | some r => ((streams.take i).filter fun x => x.dx == r.dx && x.dy == r.dy).length
/-- The position of a section's cell. -/
def State.sectPos (s : State) (t : Sect) (dx dy : Nat) : Nat := s.physOf (t.orgX + dx) (t.orgY + dy)
/-- Places of a record's buffer. -/
def StreamRec.places (r : StreamRec) : Nat := r.bufLen / 64

/-- Bind a cell's end: its peer, and for a producer the consumer's places as credits (R238). -/
def State.bindEnd (s : State) (t : Sect) (i : Nat) (peer : Nat × Nat × Nat) (bound : Nat) : State :=
  match t.streams[i]? with
  | none => s
  | some r => s.onEnd (s.sectPos t r.dx r.dy) t.ctx (recIndex t.streams i) fun e => { e with
      peer := some peer
      wr := 0
      rd := 0
      filled := []
      readDone := []
      credits := if e.dir = 1 then bound else 0
      bound := bound
      nextSeq := 0
      error := false
      lastDue := false
      firstFree := none }
def State.endFree (s : State) (t : Sect) (i : Nat) : Bool :=
  match t.streams[i]? with
  | none => false
  | some r => match (s.ctx (s.sectPos t r.dx r.dy) t.ctx).streams[recIndex t.streams i]? with
    | some e => e.peer.isNone
    | none => false

/-- Bind two cell ends to each other. -/
def State.bindPair (s : State) (t : Sect) (i : Nat) (u : Sect) (j : Nat) : State :=
  match t.streams[i]?, u.streams[j]? with
  | some a, some b =>
    if s.endFree t i && s.endFree u j && a.dir != b.dir then
      let places := if a.dir = 1 then b.places else a.places
      (s.bindEnd t i (s.sectPos u b.dx b.dy, u.region, b.id) places).bindEnd u j (s.sectPos t a.dx a.dy, t.region, a.id) places
    else s
  | _, _ => s

/-- An engine's or a bridge's end for record `i`. -/
def State.bindEngine (s : State) (t : Sect) (i k : Nat) : State :=
  match t.streams[i]? with
  | none => s
  | some r =>
    if s.endFree t i = false then s
    else
      let pos := s.sectPos t r.dx r.dy
      let bridge := decide (32 ≤ k)
      let coll := r.kind == 4 && prmColl r.param != 0
      let peerB := ((t.place.peerB.find? fun e => e.1 == i).map (·.2)).getD 0
      let b := if r.dir = 0 then r.places else if bridge && !coll then peerB else 64
      let leaves : SMap Nat := if r.mc then
          (match t.trees.find? fun x => x.kind == 0 && x.id == r.mcg with
          | none => []
          | some x => x.leaves.foldl (fun (m : SMap Nat) l =>
              mapPut m (s.sectPos t l.1 l.2) (((t.streams.find? fun y => y.dx == l.1 && y.dy == l.2 && y.id == r.id && y.dir == 0).map
                StreamRec.places).getD 0)) [])
        else []
      let e : SeEnd := ⟨t.region, r.id, pos, t.ctx, recIndex t.streams i, r.dir == 0, if r.dir = 0 then b else 0,
        if bridge && r.dir == 1 && !coll then 2 ^ 32 else b, 0, 0, none, 0, leaves, false, []⟩
      let g := s.engine k
      let s1 := (s.setEngine k { g with ends := g.ends ++ [e] }).bindEnd t i (enginePos k, t.region, r.id) b
      let rt := s1.router (enginePos k)
      let s2 := match rt.seFree with
        | some x => s1.setRouter (enginePos k) { rt with sePort := mapSet 0 rt.sePort x (BitVec.ofNat 32 (t.region + r.id * 256 + 2 ^ 31)) }
        | none => s1
      if r.mc then
        (List.range t.streams.length).foldl (fun (a : State) j =>
          match t.streams[j]? with
          | some y => if y.id = r.id ∧ y.dir = 0 ∧ j ≠ i ∧ a.endFree t j then a.bindEnd t j (enginePos k, t.region, y.id) y.places else a
          | none => a) s2
      else s2

/-- Bind a press stream pair to its queue (R287, R290): record `i` carries the commands. -/
def State.bindPress (s : State) (t : Sect) (i : Nat) : State :=
  match t.streams[i]? with
  | none => s
  | some r =>
    match engineOf t.place i, t.place.queues.find? fun e => e.1 == i with
    | some k, some (_, q) =>
      let c := fieldAt r.param 0 1
      let pair : PressPair := ⟨s.sectPos t r.dx r.dy, t.ctx, t.region, r.id, fieldAt r.param 4 2, fieldAt r.param 1 1 == 1,
        fieldAt r.param 2 2, k⟩
      let s1 := (s.resetQueue c q).onPressQ c q fun x => { x with pair := some pair }
      s1.setFld (pgPress c) R.press_STS (s1.fld (pgPress c) R.press_STS ||| 2 ^ (4 + q))
    | _, _ => s

/-- The flow key, bytes per frame and port of a Tyzil reservation (R357). -/
def State.askReservation (s : State) (t : Sect) (r : StreamRec) : State :=
  let kib := fieldAt r.param 8 2
  if r.kind ≠ 4 ∨ kib = 0 ∨ prmColl r.param ≠ 0 then s
  else
    let port := match s.pickRoute (fieldAt r.param 0 2 % 8192) with
      | some e => [bitsOf e 3 0]
      | none => []
    { s with tyz := { s.tyz with rsvAsk := s.tyz.rsvAsk ++ [(t.region, prmKey r.param, kib * 1024, port)] } }

/-- Give a record's flow its path, now that the cell at its other end is known, to install at the next step 6 (R77). -/
def State.replan (s : State) (t : Sect) (i : Nat) : State :=
  { s with work := { s.work with sects := s.work.sects.map fun (x : Sect) =>
    if x.region = t.region ∧ (x.slots.any fun e => e.1 == i) = false then
      { x with
        slots := x.slots ++ (s.flowPlan t.streams t.trees t.place i).map fun e => (i, e)
        slotsDue := if x.slotsDue.contains i then x.slotsDue else x.slotsDue ++ [i] }
    else x } }

/-- Bind one stream record of a section. -/
def State.bindRecord (s : State) (t : Sect) (i : Nat) : State :=
  match t.streams[i]? with
  | none => s
  | some r =>
    if r.kind = 0 then
      (if r.ext then
        (match t.place.ext.find? fun e => e.1 == i with
        | some (_, sid, str) =>
          (match s.sectById sid with
          | some u =>
            (match u.streams.findIdx? fun y => y.id == str && y.ext && y.dir != r.dir with
            | some j => ((s.bindPair t i u j).replan t i).replan u j
            | none => s)
          | none => s)
        | none => s)
      else
        match t.streams.findIdx? fun y => y.dx == r.peerDx && y.dy == r.peerDy && y.id == fieldAt r.param 0 2 && y.kind == 0 && y.dir != r.dir with
        | some j => s.bindPair t i t j
        | none => s)
    else
      match engineOf t.place i with
      | none => s
      | some k =>
        let s1 := s.bindEngine t i k
        let s2 := if r.kind = 2 ∧ r.dir = 1 then s1.bindPress t i else s1
        if r.dir = 1 then s2.askReservation t r else s2

/-- Bind every record, and those of other sections that name this one (R208, R249). -/
def State.bindSect (s : State) (t : Sect) : State :=
  let s1 := (List.range t.streams.length).foldl (fun (a : State) i => a.bindRecord t i) s
  let s2 := s1.work.sects.foldl (fun (a : State) u =>
    u.place.ext.foldl (fun (b : State) e => if e.2.1 = t.sid ∧ u.region ≠ t.region then b.bindRecord u e.1 else b) a) s1
  let xoOf := fun (u : Sect) => u.place.xo.foldl (fun (m : SMap (Option (Nat × Nat × Nat × Nat))) e =>
    match (s2.work.sects.find? fun v => v.sid == e.2.1 && v.live) with
    | some v => (match v.xi[e.2.2]? with
      | some (dx, dy, ti, valid) => if valid = 1 then mapPut m e.1 (some (v.region, dx, dy, ti)) else m
      | none => m)
    | none => m) []
  { s2 with work := { s2.work with sects := s2.work.sects.map fun (u : Sect) => { u with xo := xoOf u } } }

/-! ### Step 4 -/

/-- Release a verified load (R225, R653). -/
def State.releaseLoad (s : State) (l : Load) : State :=
  match parseImage l.image.length l.image with
  | none => s.dropLoad l
  | some g =>
    let s1 := match s.sectById l.sid with
      | some old => s.unloadSect old 0x09 true
      | none => s
    let p := l.place
    let t : Sect :=
      { sid := g.sid
        region := l.region
        ctx := p.ctx
        orgX := p.orgX
        orgY := p.orgY
        w := g.w
        h := g.h
        budget := g.budget
        drainBound := g.drainBound
        keyId := g.keyId
        xi := g.xi
        trees := g.trees
        streams := g.streams
        place := p
        xo := []
        live := true
        slotConflict := false
        slotsDue := List.range g.streams.length
        slots := s1.slotPlan g.streams g.trees p
        halted := false
        redSaved := []
        contrib := [] }
    let s2 := { s1 with work := { s1.work with sects := s1.work.sects ++ [t] } }
    let s3 := (s2.installTables t).onSect t fun c => { c with state := .ready }
    let s4 := (s3.regionEvent p.orgX p.orgY g.w g.h 13).bindSect t
    ((s4.dropLoad l).loadPost l 0 0 l.region)

/-- Carry out an UNLOAD (R652) for descriptor `d`. -/
def State.carryUnload (s : State) (d sid : Nat) : State :=
  let loads := s.work.loads.filter fun l => l.sid == sid
  let s1 := loads.foldl (fun (a : State) l =>
    let b := if l.accepted then a.onRegion l.place.orgX l.place.orgY l.w l.h l.place.ctx Ctx.emptied else a
    (b.dropLoad l).loadPost l refCapacity 0x0C 0) s
  let s2 := match s1.sectById sid with
    | some t => s1.unloadSect t 0x0C true
    | none => s1
  s2.post d 0 0 (b2n (loads.isEmpty && (s1.sectById sid).isNone)) true

/-- Tick step 4 (R225, R652). -/
def State.step4 (s : State) : State :=
  let s1 := s.work.unloads.foldl (fun (a : State) u => a.carryUnload u.1 u.2) s
  let s2 := { s1 with work := { s1.work with unloads := [] } }
  let ready := s2.work.loads.filter fun l => match l.verified with | some v => before v s2.tb | none => false
  ready.foldl (fun (a : State) l => if a.work.loads.contains l then a.releaseLoad l else a) s2

/-! ### Step 6 -/

/-- A router's shadow tables and wheels come into force. -/
def Router.commit (r : Router) : Router :=
  let w := r.wheelSh.foldl (fun (m : SMap Nat) e => match e.2 with | some x => mapSet 0 m e.1 x | none => m) r.wheel
  { r with
    mc := if r.shadowed then r.mcSh else r.mc
    red := if r.shadowed then r.redSh else r.red
    mcSh := []
    redSh := []
    shadowed := false
    wheel := w
    wheelSh := [] }

/-- Change the record of a section by its region. -/
def State.onSectRec (s : State) (region : Nat) (f : Sect → Sect) : State :=
  { s with work := { s.work with sects := s.work.sects.map fun (x : Sect) => if x.region = region then f x else x } }
/-- Ports of a flow at which one of its slot sets is held. -/
def State.slotClashes (s : State) (plan : List (Nat × Nat × Nat)) : List (Nat × Nat × Nat) :=
  plan.filter fun e => (mapGet 0 (s.router e.1).wheel e.2.1 &&& e.2.2) != 0
/-- Install the reservation of one flow, or raise SLOT_CONFLICT where it claims a slot already held (R77); `known`: the conflict stood
before this tick. -/
def State.installFlow (s : State) (region i : Nat) (plan : List (Nat × Nat × Nat)) (known : Bool) : State :=
  let bad := s.slotClashes plan
  if bad.isEmpty then
    (plan.foldl (fun (a : State) e =>
      let r := a.router e.1
      a.setRouter e.1 { r with wheel := mapSet 0 r.wheel e.2.1 (mapGet 0 r.wheel e.2.1 ||| e.2.2) }) s).onSectRec region fun x =>
        { x with slotsDue := x.slotsDue.filter (· != i) }
  else
    let s1 := if known then s else (bad.map (·.1)).eraseDups.foldl (fun (a : State) pos => a.event (pgCell pos) 0) s
    s1.onSectRec region fun x => { x with slotConflict := true }
/-- Install a section's reservations that wait, flow by flow; runs of the section are refused while one conflicts (R77). -/
def State.installSlots (s : State) (t : Sect) : State :=
  t.slotsDue.foldl (fun (a : State) i =>
    a.installFlow t.region i ((t.slots.filter fun e => e.1 == i).map (·.2)) t.slotConflict)
    (s.onSectRec t.region fun x => { x with slotConflict := false })

/-- Bytes per ns of a port (Tables 11.1, 11.2); 0 where it does not serve. -/
def State.portRate (s : State) (n : Nat) : Nat :=
  let full := if s.portGen n = 0 then 50 else if s.portGen n = 1 then 100 else 200
  if s.portState n = 2 ∨ s.portState n = 3 then full else if s.portState n = 4 then full / 2 else 0
/-- Bytes per frame R357 allows on a port. -/
def State.rsvCap (s : State) (n : Nat) : Nat := 9 * s.portRate n * (s.periodNs - s.guardNs - 2000) / 10

/-- Reservations of Tyzil ports, in the order they were asked for (R335, R357). -/
def State.installRsv (s : State) : State :=
  let clear := (List.range 16).foldl (fun (a : State) n =>
    let p := a.port n
    a.setPort n { p with rsvTx := [], rsvRx := [], rsvUsed := [] }) { s with tyz := { s.tyz with rsvBad := [] } }
  let s1 := s.tyz.rsvAsk.foldl (fun (a : State) e =>
    let (region, key, bytes, ports) := e
    let fits := !ports.isEmpty && ports.all fun n =>
      decide ((a.port n).rsvTx.length < 64) && decide ((a.port n).rsvTx.foldl (fun x y => x + y.2) 0 + bytes ≤ a.rsvCap n)
    if fits then ports.foldl (fun (b : State) n => let p := b.port n; b.setPort n { p with rsvTx := p.rsvTx ++ [(key, bytes)] }) a
    else
      let a1 := { a with tyz := { a.tyz with rsvBad := a.tyz.rsvBad ++ [region] } }
      if s.tyz.rsvBad.contains region then a1 else a1.event (pgTyz 0) 6) clear
  (List.range 16).foldl (fun (a : State) n =>
    (a.setFld (pgTyz n) R.tyz_RSV_SUM ((a.port n).rsvTx.foldl (fun x y => x + y.2) 0)).setFld (pgTyz n) R.tyz_RSV_CAP (a.rsvCap n)) s1

/-- The routing shadow comes into force in the frame SWAP_AT names (R347, R625); collective entries, and their operands (R358, R362). -/
def State.installTyz (s : State) : State :=
  let due := s.tyz.swapDue && decide (s.fld64 (pgTyz 0) R.tyz0_RT_SWAP_AT ≤ s.frameNo)
  let s1 := if due then
      ({ s with tyz := { s.tyz with routes := s.tyz.routesSh, swapDue := false } }).setFld (pgTyz 0) R.tyz0_RT_CTL_PENDING 0
    else s
  let s2 := { s1 with tyz := { s1.tyz with
    coll := if s1.tyz.collShadowed then s1.tyz.collSh else s1.tyz.coll
    collSh := []
    collShadowed := false
    pend := [] } }
  let s3 := { s2 with tyz := { s2.tyz with rsvAsk := s2.tyz.rsvAsk.filter fun e => s2.work.sects.any fun t => t.region == e.1 } }
  s3.installRsv

/-- Tick step 6. -/
def State.step6 (s : State) : State :=
  let s1 := { s with grid := { s.grid with routers := s.grid.routers.map fun (e : Nat × Router) => (e.1, e.2.commit) } }
  let s2 := (s1.work.sects.filter fun t => !t.slotsDue.isEmpty).foldl (fun (a : State) t => a.installSlots t) s1
  s2.installTyz

end Sys2Proof.Machine
end

