-- ==== Sys2Proof/Machine/Runs.lean ====
section
/-! DEFINITION. Runs: start, budgets, the guard, completion and the drain sequence (R29, R35 to R44, R157, R202 to R205, R216 to R221,
R253, R258, R321c, R383, R650, R651). -/
namespace Sys2Proof.Machine

/-! ### Groups -/

/-- Sections joined to a section by external token or stream bindings (R208, R249, R383). -/
def State.joined (s : State) (sid : Nat) : List Nat :=
  let out := (s.work.sects.filter fun t => t.sid == sid && t.live).flatMap fun t =>
    t.place.xo.map (·.2.1) ++ t.place.ext.map (·.2.1)
  let back := s.work.sects.filterMap fun u =>
    if u.live && ((u.place.xo.map (·.2.1)).contains sid || (u.place.ext.map (·.2.1)).contains sid) then some u.sid else none
  out ++ back
def State.grow (s : State) : Nat → List Nat → List Nat
  | 0, l => l
  | n + 1, l => s.grow n (l ++ l.flatMap s.joined).eraseDups
/-- The group of an entry section (R383): the SECTION_IDs joined to it, loaded or not. -/
def State.groupOf (s : State) (sid : Nat) : List Nat := s.grow (s.work.sects.length + 1) [sid]

/-! ### The save area (R157, R219, R220, Table 7.6) -/

def Bank.saveBytes (k : Bank) : List Byte := (List.range 1024).flatMap fun i => leBytes 4 (k.at_ i).v.toNat
def WTile.saveBytes (w : WTile) : List Byte :=
  ((List.range 1024).map fun e => BitVec.ofInt 8 (mapGet 0 w.elems e)) ++ (List.range 32).map fun n => BitVec.ofNat 8 (mapGet 0 w.exps n)
/-- Granules, from `g0`, of the poisoned elements of 1,024 words. -/
def slotGranules (g0 : Nat) (at_ : Nat → Slot) : List Nat :=
  (List.range 512).filterMap fun g => if (at_ (2 * g)).poison || (at_ (2 * g + 1)).poison then some (g0 + g) else none
def WTile.saveGranules (g0 : Nat) (w : WTile) : List Nat :=
  (w.badElems.map (fun e => g0 + e / 8) ++ w.badCols.map fun n => g0 + 128 + n / 8).eraseDups

/-- The 16 KiB of the save area and its poisoned granules. -/
def Matrix.saveArea (m : Matrix) (mxFlags : Nat) : List Byte × List Nat :=
  (m.a0.saveBytes ++ m.a1.saveBytes ++ ((List.range 1024).flatMap fun i => leBytes 4 (mapGet Slot.zero m.sum i).v.toNat)
      ++ m.act.saveBytes ++ m.shadow.saveBytes
      ++ leBytes 4 (b2n m.shadowComplete + 2 * b2n m.shadowValid + 16 * (mxFlags % 16)) ++ leBytes 12 0
      ++ leBytes 4 m.redVal.toNat ++ leBytes 4 m.redIdx.toNat ++ leBytes 56 0 ++ List.replicate 0x770 0,
    slotGranules 0 m.a0.at_ ++ slotGranules 512 m.a1.at_ ++ slotGranules 1024 (fun i => mapGet Slot.zero m.sum i)
      ++ m.act.saveGranules 0x600 ++ m.shadow.saveGranules 0x684)

def readSlots (bs : List Byte) (ps : List Nat) (g0 : Nat) : SMap Slot :=
  ((List.range 1024).map fun i => (i, (⟨wordOf ((bs.drop (8 * g0 + 4 * i)).take 4), ps.contains (g0 + i / 2), false⟩ : Slot))).filter
    fun e => decide (e.2 ≠ Slot.zero)
/-- A weight tile of the save area. DESIGN CHOICE (assumption 91): Table 7.6 gives the checksum weights of R159 no place, and they are
computed again from the restored weights. -/
def readTile (bs : List Byte) (ps : List Nat) (g0 : Nat) : WTile :=
  let at_ := fun e => signed 8 (bs.getD (8 * g0 + e) 0).toNat
  { elems := ((List.range 1024).map fun e => (e, at_ e)).filter fun p => p.2 != 0
    exps := ((List.range 32).map fun n => (n, (bs.getD (8 * g0 + 1024 + n) 0).toNat)).filter fun p => p.2 != 0
    sums := ((List.range 32).map fun k => (k, (List.range 32).foldl (fun (a : Int) n => a + at_ (32 * k + n)) 0)).filter fun p => p.2 != 0
    badCols := (List.range 32).filter fun n => ps.contains (g0 + 128 + n / 8)
    badElems := (List.range 1024).filter fun e => ps.contains (g0 + e / 8) }

/-- The engine state the save area spells; `m` gives the parts its bytes do not name. -/
def Matrix.restored (m : Matrix) (bs : List Byte) (ps : List Nat) : Matrix :=
  { m with
    a0 := { m.a0 with elems := readSlots bs ps 0 }
    a1 := { m.a1 with elems := readSlots bs ps 512 }
    sum := readSlots bs ps 1024
    act := readTile bs ps 0x600
    shadow := readTile bs ps 0x684
    shadowComplete := bitOf (fieldAt bs 0x3840 4) 0
    shadowValid := bitOf (fieldAt bs 0x3840 4) 1
    redVal := wordOf ((bs.drop 0x3850).take 4)
    redIdx := wordOf ((bs.drop 0x3854).take 4) }

/-- SAVE at one cell; `bad`: bank · 1024 + element of the bank elements whose parity fails as they are saved (R220). -/
def State.saveCell (s : State) (n pos : Nat) (bad : List Nat) : State :=
  if !(s.ctx pos n).record then s
  else
    let s1 := (s.bankRead pos n false bad (List.range 1024)).bankRead pos n true bad (List.range 1024)
    let c := s1.ctx pos n
    let m := (s1.cell pos).mx
    let area := m.saveArea c.mxFlags
    let o := c.base * 1024 + c.saveOff
    let s2 := s1.spWrite pos o area.1 (area.2.map (· + o / 8))
    s2.setCtx pos n { s2.ctx pos n with saved := some m }
/-- The restore of one cell at the start of a continuation (R217). -/
def State.restoreCell (s : State) (n pos : Nat) : State :=
  let c := s.ctx pos n
  if !c.record then s
  else
    let o := c.base * 1024 + c.saveOff
    let (s1, bs, ps) := s.spRead pos o 0x4000
    let s2 := s1.setMatrix pos ((c.saved.getD Matrix.zero).restored bs (ps.map (· - o / 8)))
    s2.setCtx pos n { s2.ctx pos n with mxFlags := bitsOf (fieldAt bs 0x3840 4) 7 4 }
/-- The reduction operands that a cut left waiting enter their merge points again (Table 3.8). -/
def State.restoreRed (s : State) (t : Sect) : State :=
  t.redSaved.foldl (fun (a : State) e => e.2.ops.foldl (fun (b : State) o => b.reduceArrive e.1 o.1 o.2) a) s

/-! ### Stream engine descriptors of a run (R253, R321c) -/

/-- READ and WRITE descriptors left from an earlier run of a region end, and the credits of units never read return. -/
def State.dropJobs (s : State) (region : Nat) : State :=
  (List.range 32).foldl (fun (a : State) k =>
    let g := a.engine k
    let stale := g.jobs.filter fun j => j.region == region && decide (j.opc ≤ 1)
    let give := fun (e : SeEnd) =>
      let n := stale.foldl (fun x j => if j.opc = 0 ∧ e.out ∧ j.stream = e.stream ∧ e.region = region then x + (j.issued - j.moved) else x) 0
      { e with
        credits := e.credits + n
        leaves := e.leaves.map fun l => (l.1, l.2 + n) }
    if stale.isEmpty then a
    else a.setEngine k { g with
      jobs := g.jobs.filter fun j => !(j.region == region && decide (j.opc ≤ 1))
      ends := g.ends.map give }) s

/-- The control firmware builds and posts the descriptors of a fresh run. -/
def State.startJobs (s : State) (t : Sect) (d : Desc) : State :=
  (List.range t.streams.length).foldl (fun (a : State) i =>
    match t.streams[i]?, engineOf t.place i with
    | some r, some k =>
      let arg := d.arg (fieldAt r.param 0 1)
      if r.kind = 1 then
        let f1 := fieldAt r.param 1 1
        let f2 := fieldAt r.param 2 4
        a.postDescr k (descrBytes arg.1 (bitsOf f2 18 0) (fieldAt r.param 8 4) (fieldAt r.param 6 2) r.id (f1 % 2) 0 t.region (bitOf f1 1)
          (bitsOf f2 30 19) d.tenant)
      else if r.kind = 3 then
        let g := a.engine k
        let j : SeJob := { jobOf 0 [] with
          kind := 1
          addr := arg.1
          stream := r.id
          opc := r.dir
          region := t.region
          owner := d.tenant
          item := d.id
          rec_ := i
          len := arg.2.1 }
        a.setEngine k { g with jobs := g.jobs ++ [j] }
      else a
    | _, _ => a) (s.dropJobs t.region)

/-! ### Start -/

/-- Every cell of a section may switch to its context (R202, Table 7.1): no run of the active context is in progress there, and the
context is READY, or SUSPENDED for a continuation, or SUSPENDED with no continuation to come. -/
def State.mayStart (s : State) (t : Sect) (r : Run) : Bool :=
  let claimed := s.work.descs.any fun d => d.conts.contains t.sid
  (s.sectPositions t).all fun pos =>
    let c := s.cell pos
    (c.ctx c.active).state != .active && (match (c.ctx t.ctx).state with
      | .ready => !r.cont
      | .suspended => r.cont || !claimed
      | _ => false)

/-- Operations left in a section's queues are dropped: its run does not go on. -/
def State.dropOps (s : State) (t : Sect) : State :=
  (s.sectPositions t).foldl (fun (a : State) pos =>
    let c := a.cell pos
    a.setCell pos ({ c with
      mxq := c.mxq.filter fun o => o.1 != t.ctx
      vxq := c.vxq.filter fun o => o.1 != t.ctx }.setCtx t.ctx { c.ctx t.ctx with curdLate := [] })) s
/-- A run that starts asks the host again for every line its engines access (R317, Table 10.6). -/
def State.forgetAsked (s : State) (region : Nat) : State :=
  { s with ses := s.ses.map fun (e : Nat × SEngine) => (e.1, { e.2 with jobs := e.2.jobs.map fun j =>
    if j.region = region ∧ j.opc ≤ 1 then { j with asked := [], granted := [] } else j }) }
/-- The first fc of a run (R217), and for a continuation the restore. A fresh run finds both banks released and no operation of an
earlier run waiting (assumption 92). -/
def State.startRun (s : State) (t : Sect) (r : Run) : State :=
  let s0 := if r.cont then s else s.dropOps t
  let s1 := (s.sectPositions t).foldl (fun (a : State) pos =>
    let c := a.cell pos
    let x := c.ctx t.ctx
    let x1 : Ctx := { x with
      state := .active
      idle := x.idle + 1 }
    let x2 : Ctx := if r.cont then x1 else { x1 with
      fin := false
      idle := 1
      saved := none
      cnt := x1.cnt.map fun k => { k with v := k.init } }
    let m := if r.cont then c.mx else c.mx.released
    a.setCell pos ({ c with
      active := t.ctx
      mx := m }.setCtx t.ctx x2)) s0
  let s2 := { s1 with work := { s1.work with runs := s1.work.runs.map fun x => if x = r then { x with
      phase := .active
      fcBefore := 0
      usedFc := 0
      fired := false } else x } }
  let s3 := (s2.forgetAsked t.region).onSectRec t.region fun x => { x with
    halted := false
    redSaved := [] }
  if r.cont then ((s3.sectPositions t).foldl (fun (a : State) pos => a.restoreCell t.ctx pos) s3).restoreRed t
  else
    match s3.desc r.item with
    | some d => s3.startJobs t d
    | none => s3

/-- RUN_START (R29, R203, R217, R253): the earliest run of the section scheduled in this frame starts at its start fc. -/
def execRunStart (sid : Nat) (s : State) : Host.Outcome State Fault Refusal :=
  match s.work.runs.find? fun r => r.sid == sid && r.phase == .scheduled with
  | none => s.passOver "no run of this section is scheduled"
  | some r =>
    match s.sectById sid with
    | none => s.passOver "the section is not loaded"
    | some t =>
      let s1 := s.advance r.startTb
      if !s1.frameOn || !before r.startTb s1.guardStart || !before s1.tb s1.guardStart then s.passOver "the run phase is over"
      else if !s1.mayStart t r then s.passOver "the context may not become ACTIVE"
      else .next (s1.startRun t r)

/-! ### Ends of runs -/

/-- Every accepted operation of a section has ended. -/
def State.opsDone (s : State) (t : Sect) : Bool := (s.sectPositions t).all fun pos => !(s.cell pos).opsOf t.ctx
/-- In a drain, every accepted operation has ended but an MX.MAC that has accepted no row (R219, Table 5.6) and an emission that the full
curd queue stalls, which both stay in place for the continuation (R169, Table 6.9). -/
def State.opsDrained (s : State) (t : Sect) : Bool :=
  (s.sectPositions t).all fun pos => !((s.cell pos).mxq ++ (s.cell pos).vxq).any fun o => o.1 == t.ctx && o.2.opcode != 3 && o.2.opcode != 4
/-- Packets of a region that have not left its cells. -/
def State.leaving (s : State) (t : Sect) : Bool :=
  let ps := s.sectPositions t
  let own := fun (p : MeshPacket) => hSrcPy p.hdr * 68 + hSrcPx p.hdr
  (ps.any fun pos => (s.router pos).waiting.any fun e => own e.2 == pos)
    || s.grid.heldInj.any fun e => ps.contains e.1 && own e.2.2 == e.1
/-- An outbound end whose every written unit has left the cell, LAST included (R248): none is full, partly written, or waits for LAST. -/
def StreamEnd.flushed (e : StreamEnd) : Bool :=
  e.dir != 1 || (e.wr == e.rd && !e.lastDue && e.filled.all fun f => f.2 == 0)
/-- The completion condition (R218, R248). -/
def State.runComplete (s : State) (t : Sect) : Bool :=
  s.opsDone t && !s.leaving t && (s.sectPositions t).all fun pos =>
    let c := s.ctx pos t.ctx
    !c.record || (c.fin && c.streams.all StreamEnd.flushed)
/-- Contributions of a region on their way to a merge point, or at one that has all its operands (R219). -/
def State.merging (s : State) (region : Nat) : Bool :=
  let own := fun (p : MeshPacket) => hVn p.hdr == 1 && hRegion p.hdr == region
  (s.grid.flight.any fun e => own e.2.2) || s.grid.routers.any fun e =>
    (e.2.waiting.any fun w => decide (w.1 < waitReduction) && own w.2)
      || e.2.pend.any fun x => x.key / 4096 == region && e.2.mergeReady x

/-- Change one run. -/
def State.onRun (s : State) (r : Run) (f : Run → Run) : State :=
  { s with work := { s.work with runs := s.work.runs.map fun x => if x = r then f x else x } }

/-- The run's part in its item is over for this frame. -/
def State.endRun (s : State) (r : Run) (used : Nat) : State :=
  let area := ((s.sectById r.sid).map fun t => t.w * t.h).getD 0
  let spent := area * s.runUsed r
  let f := fun (a : Activity) => { a with fc := a.fc + spent }
  let owner := ((s.desc r.item).map (·.tenant)).getD 1024
  (((s.onRun r fun x => { x with
    phase := .ended
    usedFc := used
    doneAt := s.tb }).onDesc r.item fun d => { d with usedFc := used }).actOwner owner f).actItem r.item f

/-- The item of a run ends (R654): its other continuations are dropped. -/
def State.endItem (s : State) (item : Nat) (e : Ending) : State :=
  (s.postEnd item e).onDesc item fun d => { d with conts := [] }

/-- A run met its completion condition (R37, R38, R125): the item is DONE when every section of its group is. -/
def State.completeRun (s : State) (t : Sect) (r : Run) : State :=
  let used := s.runUsed r
  let s1 := (s.onSect t fun c => { c with state := .ready }).endRun r used
  if r.poison then s1.endItem r.item endPoison
  else
    let s2 := s1.onDesc r.item fun d => { d with
      done := d.done ++ [t.sid]
      conts := d.conts.filter (· != t.sid) }
    match s2.desc r.item with
    | none => s2
    | some d =>
      if (s2.groupOf d.sid).all fun x => d.done.contains x then s2.post d.id 0 0 (used * 2 ^ 32) true else s2

/-- The run of a section that is in progress. -/
def State.runOf (s : State) (sid : Nat) : Option Run := s.work.runs.find? fun r => r.sid == sid && r.going

/-- The fc of the guard's start, counted as the run's budget counter counts. -/
def State.guardFc (s : State) (r : Run) : Nat := r.fcBefore + (s.guardStart - r.startTb).toNat * s.curMhz / 1000
/-- Neither the budget nor the guard cut the run in an earlier fc than this one (R37, R38). -/
def State.withinRun (s : State) (t : Sect) (r : Run) : Bool :=
  decide (s.runUsed r ≤ t.budget) && decide (s.runUsed r ≤ s.guardFc r)
/-- The budget ends in an earlier fc than that in which the guard starts (R37, R38). -/
def State.budgetFirst (s : State) (t : Sect) (r : Run) : Bool := decide (t.budget < s.guardFc r)
/-- RUN_COMPLETE (R37, R38, R218) at instant `at_`, of a run that nothing cut in an earlier fc. -/
def execRunComplete (sid : Nat) (at_ : Dword) (s : State) : Host.Outcome State Fault Refusal := s.onGrid <|
  let s1 := s.advance at_
  match s1.runOf sid, s1.sectById sid with
  | some r, some t =>
    if r.phase = .active ∧ s1.runComplete t ∧ s1.withinRun t r then .next (s1.completeRun t r)
    else s.passOver "the completion condition is not met before the run's cut"
  | _, _ => s.passOver "no run of this section is in progress"

/-! ### Cuts -/

/-- Cut a run (R39, R44, R219, R258): cause 1 BUDGET, 2 GUARD. -/
def State.cutRun (s : State) (t : Sect) (r : Run) (cause used : Nat) : State :=
  ((((s.onRun r fun x => { x with
    phase := .draining
    cut := cause
    usedFc := used }).onSectRec t.region fun x => { x with halted := true }).flushJobs t.region).bump pgFrame R.frame_CUTS 0 1)

/-- When the budget of a run ends. -/
def State.expiry (s : State) (t : Sect) (r : Run) : Dword := r.startTb + BitVec.ofNat 64 (s.nsOfFc (t.budget - r.fcBefore))

/-- BUDGET_EXPIRE (R37, R38): the budget counter of the section's run reaches its budget before the guard. -/
def execBudgetExpire (sid : Nat) (s : State) : Host.Outcome State Fault Refusal := s.onGrid <|
  match s.runOf sid, s.sectById sid with
  | some r, some t =>
    if r.phase ≠ .active ∨ !s.budgetFirst t r then s.passOver "the budget does not end in this run phase"
    else
      let s1 := s.advance (s.expiry t r)
      if s1.runComplete t then .next (s1.completeRun t r) else .next (s1.cutRun t r 1 t.budget)
  | _, _ => s.passOver "no run of this section is in progress"

/-- What the guard does to one run (R37, R38, R651). -/
def State.guardRun (s : State) (r : Run) : State :=
  if r.phase = .scheduled then { s with work := { s.work with runs := s.work.runs.filter (· ≠ r) } }
  else if r.phase = .active then
    match s.sectById r.sid with
    | none => s
    | some t =>
      if s.runComplete t then s.completeRun t r
      else if s.budgetFirst t r then s.cutRun t r 1 t.budget
      else s.cutRun t r 2 (s.guardFc r)
  else s

/-- The guard begins (R28, R37, R651). -/
def State.beginGuard (s : State) : State :=
  let s1 := s.advance s.guardStart
  s1.work.runs.foldl (fun (a : State) r => a.guardRun r) s1.pauseMigrations

/-- GUARD_START (R37). -/
def execGuardStart (s : State) : Host.Outcome State Fault Refusal :=
  if s.frameOn then .next s.beginGuard else s.passOver "the frame engine does not run"

/-! ### Drains -/

/-- The fc that an ended run records: a budget's or guard's cut recorded them (R39); a run that a fault cut counts to its end. -/
def State.recordedFc (s : State) (r : Run) : Nat := if r.cut = 1 ∨ r.cut = 2 then r.usedFc else s.runUsed r
/-- The drain has saved the region's state and the run completes (R39, R125, R221, R650, R654). -/
def State.drained (s : State) (t : Sect) (r : Run) (bad : List (Nat × Nat)) : State :=
  let used := s.recordedFc r
  let s0 := (s.sectPositions t).foldl (fun (a : State) pos =>
    a.saveCell t.ctx pos ((bad.filter fun b => b.1 == pos).map (·.2))) s
  let poison := match s0.work.runs.find? fun x => x.item == r.item && x.sid == r.sid && x.going with | some x => x.poison | none => r.poison
  let stays := r.fault.isNone && !poison
  let s1 := (if stays then s0 else s0.dropOps t).onSect t fun c => { c with state := if stays then .suspended else .ready }
  let r1 : Run := { r with poison := poison }
  let s2 := (s1.onRun r fun _ => r1).endRun r1 used
  match r.fault with
  | some e => s2.endItem r.item e
  | none =>
    if poison then s2.endItem r.item endPoison
    else (s2.onDesc r.item fun d => { d with conts := if d.conts.contains t.sid then d.conts else d.conts ++ [t.sid] }).post r.item 1 0
      (r.cut + used * 2 ^ 32) false

/-- DRAIN_COMPLETE (R39, R219, R220): the region is empty and its state is saved. -/
def execDrainComplete (sid : Nat) (end_ : DrainEnd) (s : State) : Host.Outcome State Fault Refusal := s.onGrid <|
  let s1 := s.advance end_.at_
  match s1.runOf sid, s1.sectById sid with
  | some r, some t =>
    if r.phase ≠ .draining ∨ !s1.opsDrained t ∨ s1.leaving t ∨ s1.merging t.region then s.passOver "the region is not empty"
    else if !before s1.tb (s1.tickAt (s1.frameNo + 1)) then s.passOver "the tick has come"
    else .next ((s1.flushJobs t.region).drained t r end_.bad)
  | _, _ => s.passOver "no run of this section is draining"

/-- A drain has not emptied the pipeline when the tick fires (R41). -/
def State.drainTimeout (s : State) (t : Sect) (r : Run) : State :=
  let s1 := (s.dropOps t).onSect t fun c => { c.regionReset with state := .held }
  let s2 := (((s1.endRun r (s1.recordedFc r)).bump pgFrame R.frame_DRAIN_TO 1 1).event pgFrame 3)
  s2.endItem r.item (r.fault.getD endTimeout)

/-- Every run whose drain the tick finds unfinished. -/
def State.drainTimeouts (s : State) : State :=
  (s.work.runs.filter fun r => r.phase == .draining).foldl (fun (a : State) r =>
    match a.sectById r.sid with
    | some t => a.drainTimeout t r
    | none => a.endRun r (a.recordedFc r)) s

/-- The last instant of the frame in progress: an end that the next tick brings is one of this frame, and its entry is posted at that
tick (R43). -/
def State.frameEnd (s : State) : Dword := s.tickAt (s.frameNo + 1) - 1
/-- DRAIN_TIMEOUT (R41): the frame ends and the drain has not. -/
def execDrainTimeout (sid : Nat) (s : State) : Host.Outcome State Fault Refusal := s.onClock <|
  match s.runOf sid, s.sectById sid with
  | some r, some t =>
    if r.phase ≠ .draining then s.passOver "no run of this section is draining"
    else .next ((s.advance s.frameEnd).drainTimeout t r)
  | _, _ => s.passOver "no run of this section is draining"

/-- A run has fired no entry in 64 consecutive frames in which it ran (R216). -/
def State.idleOut (s : State) (r : Run) : Bool :=
  r.phase == .ended && !r.fired && (match s.sectById r.sid with
    | none => false
    | some t => (s.sectPositions t).all fun pos =>
      let c := s.ctx pos t.ctx
      c.state == .suspended && decide (64 ≤ c.idle))
def State.idleTimeout (s : State) (r : Run) : State :=
  match s.sectById r.sid with
  | none => s
  | some t => (s.onSect t fun c => { c with
      state := .ready
      idle := 0 }).endItem r.item endTimeout

/-- RUN_IDLE_TIMEOUT (R216) at the end of the frame. -/
def execRunIdleTimeout (sid : Nat) (s : State) : Host.Outcome State Fault Refusal := s.onClock <|
  match s.work.runs.find? fun r => r.sid == sid && s.idleOut r with
  | none => s.passOver "no run of this section has been idle for 64 frames"
  | some r => .next ((s.advance s.frameEnd).idleTimeout r)

/-! ### Descriptors that wait for the tick -/

/-- HELD_RELEASE (R204, Table 7.1): firmware releases a section's HELD contexts; they become READY at tick step 4. -/
def execHeldRelease (sid : Nat) (s : State) : Host.Outcome State Fault Refusal :=
  match s.sectById sid with
  | none => s.passOver "the section is not loaded"
  | some t =>
    if (s.sectPositions t).any fun pos => (s.ctx pos t.ctx).state == .held then
      .next { s with work := { s.work with releases := if s.work.releases.contains sid then s.work.releases else s.work.releases ++ [sid] } }
    else s.passOver "no context of the section is HELD"
/-- The releases of HELD contexts, at tick step 4. -/
def State.releaseHeld (s : State) : State :=
  let s1 := s.work.releases.foldl (fun (a : State) (sid : Nat) =>
    match a.sectById sid with
    | none => a
    | some t => a.onSect t fun c => if c.state = .held then { c with state := .ready } else c) s
  { s1 with work := { s1.work with releases := [] } }

/-- A RUN becomes an item (R323, R383). -/
def State.submitRun (s : State) (d : Nat) : State := s.onDesc d fun x => { x with phase := .item }
/-- An UNLOAD waits for tick step 4 (R652). -/
def State.submitUnload (s : State) (x : Desc) : State :=
  let s1 := s.onDesc x.id fun y => { y with phase := .working }
  { s1 with work := { s1.work with unloads := s1.work.unloads ++ [(x.id, x.sid)] } }

/-- DESC_RUN (R323, R383): a fetched RUN is submitted as an item for the next admit phase. -/
def execDescRun (d : Nat) (s : State) : Host.Outcome State Fault Refusal := s.onClock <|
  match s.desc d with
  | none => s.passOver "no such descriptor"
  | some x =>
    if x.type = 1 ∧ x.phase = .ready ∧ x.post.isNone then .next (s.submitRun d) else s.passOver "no RUN waits under this number"

/-- DESC_UNLOAD (R652): a fetched UNLOAD names the section to unload. -/
def execDescUnload (d : Nat) (s : State) : Host.Outcome State Fault Refusal := s.onClock <|
  match s.desc d with
  | none => s.passOver "no such descriptor"
  | some x =>
    if x.type = 3 ∧ x.phase = .ready ∧ x.post.isNone then .next (s.submitUnload x) else s.passOver "no UNLOAD waits under this number"

end Sys2Proof.Machine
end

