-- ==== Sys2Proof/Machine/Admission.lean ====
section
/-! DEFINITION. The admission controller (R321b, R321c, R374, R377, R378, R383 to R396, R399 to R402, R411, R412, R449, R455, R457). -/
namespace Sys2Proof.Machine

/-! ### Settings in force -/

/-- The value in force of a register that tick step 9 applies (R47). -/
def State.inForce (s : State) (pg : Nat) (f : Fld) : Nat :=
  let a := pg * 0x1000 + f.off
  bitsOf (mapGet (regReset a) s.eff a).toNat f.hi f.lo
def clsRsv (c : Nat) : Fld := R.policy_RSV_EFF.up (4 * c)
def State.clsLim (s : State) (c : Nat) : Nat := s.inForce pgPolicy (R.policy_CLASS0_0_LIM.up (0x10 * c))
def State.clsDeadline (s : State) (c : Nat) : Nat := s.inForce pgPolicy (R.policy_CLASS0_2.up (0x10 * c))
def State.clsQmax (s : State) (c : Nat) : Nat := s.inForce pgPolicy (R.policy_CLASS0_3_QMAX.up (0x10 * c))
def State.clsQueue (s : State) (c : Nat) : Bool := s.inForce pgPolicy (R.policy_CLASS0_3_QUEUE.up (0x10 * c)) == 1
def State.clsF1 (s : State) (c : Nat) : Nat := s.inForce pgPolicy (R.policy_CLASS0_3_F1_DEF.up (0x10 * c))
def State.quotaMask (s : State) (t : Nat) : Nat := s.fld (pgTenant t) R.tenant_QUOTA_EFF % 16
def State.quotaShare (s : State) (t : Nat) : Nat := bitsOf (s.fld (pgTenant t) R.tenant_QUOTA_EFF) 24 16
def State.quotaInflight (s : State) (t : Nat) : Nat := bitsOf (s.fld (pgTenant t) R.tenant_QUOTA_EFF1) 12 0
def State.tenant (s : State) (t : Nat) : Tenant := mapGet Tenant.zero s.work.tenants t
def State.onTenant (s : State) (t : Nat) (f : Tenant → Tenant) : State :=
  { s with work := { s.work with tenants := mapSet Tenant.zero s.work.tenants t (f (s.tenant t)) } }

/-! ### Profiles (R393, R412) -/

def State.profileOf (s : State) (sid cls : Nat) : Option (Nat × Profile) :=
  s.work.profile.find? fun e => e.2.sid == sid && e.2.cls == cls
/-- The entry a new key takes: a free one, or the least recently used. -/
def State.profileSlot (s : State) : Nat :=
  match (List.range 256).find? fun i => !(s.work.profile.any fun e => e.1 == i) with
  | some i => i
  | none => (s.work.profile.foldl (fun (m : Nat × Nat) e => if e.2.used < m.2 then (e.1, e.2.used) else m) (0, 2 ^ 64)).1
/-- A key is used: its entry, made where there is none. -/
def State.touchProfile (s : State) (sid cls : Nat) (f : Profile → Profile) : State :=
  let now := s.frameNo
  match s.profileOf sid cls with
  | some (i, p) => { s with work := { s.work with profile := mapPut s.work.profile i (f { p with used := now }) } }
  | none => { s with work := { s.work with profile := mapPut s.work.profile s.profileSlot (f ⟨sid, cls, [], 0, [], now⟩) } }

/-- The VID code of VDD_CORE at the point in force (R405, R572, R631): CAL quantity 11, entry of the point. -/
def State.vidOf (s : State) (mhz : Nat) : Nat := ((mapGet CalEntry.zero s.cal (11 * 512 + (mhz - 800) / 50)).e).toNat
def State.vid (s : State) : Nat := s.vidOf (s.meter.emerg.getD s.curMhz)

/-- The estimate of an item first served in frame `m`, as an instant less t_db, in ns (R393). -/
def State.ttftEst (s : State) (d : Desc) (m : Nat) : Nat :=
  let (f1, add) := match s.profileOf d.sid (d.cls % 4) with
    | some (_, p) => (if p.f1s.isEmpty then s.clsF1 (d.cls % 4) else p.f1s.foldl max 0, p.add)
    | none => (s.clsF1 (d.cls % 4), 0)
  (s.tickAt (m + f1 + add) - d.tdb).toNat
/-- The deadline of an item in ns; 0: none. -/
def State.deadlineNs (s : State) (d : Desc) : Nat := (if d.deadlineUs = 0 then s.clsDeadline (d.cls % 4) else d.deadlineUs) * 1000
def State.meetsDeadline (s : State) (d : Desc) (m : Nat) : Bool := s.deadlineNs d == 0 || decide (s.ttftEst d m ≤ s.deadlineNs d)
/-- E in µs as DETAIL carries it. -/
def usOf (ns : Nat) : Nat := min (ns / 1000) 0xFFFFFFFE

/-! ### Items -/

/-- Table order and fetch order of the items considered (R384): ACTIVE and RETIRING tenants. -/
def Desc.isActive (d : Desc) : Bool := d.order != 0
def State.itemsOf (s : State) (c : Nat) : List Desc :=
  let all := s.work.descs.filter fun d => d.phase == .item && d.cls % 4 == c && !(match d.post with | some p => p.final | none => false)
    && (s.fld (pgTenant d.tenant) R.tenant_STATE == 1 || s.fld (pgTenant d.tenant) R.tenant_STATE == 2)
  let act := (all.filter Desc.isActive).mergeSort fun a b => decide (a.order ≤ b.order)
  let wait := (all.filter fun d => !d.isActive && before d.readyAt s.tb).mergeSort fun a b =>
    decide (a.readyAt = b.readyAt ∧ (a.tenant < b.tenant ∨ (a.tenant = b.tenant ∧ a.id ≤ b.id))) || before a.readyAt b.readyAt
  act ++ wait
/-- Cores in service (R456, R463). -/
def State.coresUp (s : State) : Nat := bitsOf s.capacity 25 22
def State.considerMax (s : State) : Nat := max 32 (s.inForce pgSched R.sched_CONSIDER_MAX * s.coresUp / 8)

/-- Sections of an item's group whose runs it needs (R383), those loaded. -/
def State.needs (s : State) (d : Desc) : List Sect := ((s.groupOf d.sid).filter fun x => !d.done.contains x).filterMap s.sectById
/-- Sections of the whole group, those loaded. -/
def State.groupSects (s : State) (d : Desc) : List Sect := (s.groupOf d.sid).filterMap s.sectById

/-- fc of a run's window: BUDGET + DRAIN_BOUND. -/
def Sect.window (t : Sect) : Nat := t.budget + t.drainBound
/-- Cell-fc of an item's runs, and its demand in U (R378). -/
def cellFc (ts : List Sect) : Nat := ts.foldl (fun a t => a + t.w * t.h * t.window) 0
def State.demandU (s : State) (ts : List Sect) : Nat :=
  let c := s.capacity % 4096 * s.runFc
  if c = 0 then 2 ^ 32 else (cellFc ts * 256 + c - 1) / c
/-- The energy estimate of an item's runs in µJ, rounded up (R412). -/
def State.energyEst (s : State) (d : Desc) (ts : List Sect) : Nat :=
  let plain := (cellFc ts * s.fld pgEnergy R.energy_E_DEF_PJ + 999999) / 1000000
  match s.profileOf d.sid (d.cls % 4) with
  | none => plain
  | some (_, p) =>
    match p.es with
    | [] => plain
    | e :: es =>
      let (uj, v) := es.foldl (fun (m : Nat × Nat) x => if m.1 < x.1 then x else m) e
      let q := (240 + v) * (240 + v)
      (uj * (240 + s.vid) * (240 + s.vid) + q - 1) / q

/-! ### Checks at the first consideration (R253, R321b, R321c, R401) -/

/-- The argument table agrees with the streams of the group. -/
def argsFit (d : Desc) (ts : List Sect) : Bool :=
  ts.all fun t => t.streams.all fun r =>
    let arg := d.arg (fieldAt r.param 0 1)
    let prog := fieldAt r.param 1 1
    if r.kind = 1 then arg.2.2 == 1
    else if r.kind = 3 then arg.2.2 == 2 && (prog == 0xFF || ((d.arg prog).2.2 == 2 && decide (8 ≤ (d.arg prog).2.1)))
    else true

/-! ### Gates (Table 12.4) -/

/-- Devices and domains that an item's streams and descriptors name. -/
def State.namedDevs (s : State) (d : Desc) (ts : List Sect) : List (Nat × Nat) :=
  ts.flatMap fun t => t.streams.flatMap fun r =>
    if r.kind = 4 ∧ prmColl r.param = 0 then [(fieldAt r.param 0 2 / 8192, fieldAt r.param 0 2 % 8192)]
    else if r.kind = 1 then [(ownDom s, (d.arg (fieldAt r.param 0 1)).1 / 2 ^ 51)]
    else if r.kind = 4 then (List.range 16).filterMap fun n =>
      let id := prmKey r.param % 4096
      if s.tyz.kids.any (fun e => e.1 == id * 16 + n) then some (ownDom s, mapGet 0 s.tyz.kids (id * 16 + n)) else none
    else []
def State.reachable (s : State) (dev : Nat) : Bool := dev == ownDev s || s.regBit (pgTyz 0 * 0x1000 + 0x200 + dev / 32 * 4) (dev % 32)
/-- A domain has a gateway entry, and where this device is that gateway its peer is up (R372). -/
def State.domainOk (s : State) (dom : Nat) : Bool :=
  dom == ownDom s || (s.flag (pgTyz 0) (R.tyz0_DOM_GW_VALID.up (4 * dom))
    && (s.fld (pgTyz 0) (R.tyz0_DOM_GW_DEV.up (4 * dom)) != ownDev s || s.peerUp dom))
def pressChannels (ts : List Sect) : List Nat :=
  (ts.flatMap fun t => t.streams.filterMap fun r => if r.kind = 2 then some (fieldAt r.param 0 1) else none).eraseDups
/-- A stream end of a section is in ERROR. -/
def State.endInError (s : State) (t : Sect) : Bool :=
  ((s.sectPositions t).any fun pos => (s.ctx pos t.ctx).streams.any (·.error))
    || s.ses.any fun g => g.2.ends.any fun e => e.region == t.region && e.error

/-- The first gate an item fails: status and reason. -/
def State.gate (s : State) (d : Desc) : Option (Nat × Nat) :=
  let ts := s.groupSects d
  let t := d.tenant
  let devs := s.namedDevs d ts
  let pcs := pressChannels ts
  if ts.any (fun x => x.streams.any fun r => r.kind == 4) && bitOf (s.fld pgFrame R.frame_FSTS) 2 then some (refDegraded, 0x40)
  else if devs.any (fun e => e.1 == ownDom s && !s.reachable e.2) then some (refDegraded, 0x41)
  else if devs.any (fun e => !s.domainOk e.1) then some (refDegraded, 0x45)
  else if ts.any s.endInError then some (refDegraded, 0x42)
  else if !pcs.isEmpty && s.servedChannels.isEmpty then some (refMemory, 0x04)
  else if pcs.any (fun c => !s.inService c) then some (refMemory, 0x03)
  else if pcs.any (fun c => !s.pressAvail c) then some (refMemory, 0x01)
  else if !bitOf (s.quotaMask t) (d.cls % 4) then some (refQuota, 0x14)
  else if s.fld (pgTenant t) R.tenant_QUOTA_EFF2 ≠ 0 ∧ s.fld (pgTenant t) R.tenant_QUOTA_EFF2 * 1000000000 ≤ (s.tenant t).uj then some (refQuota, 0x12)
  else if s.fld (pgTenant t) R.tenant_QUOTA_EFF3 ≠ 0 ∧ s.fld (pgTenant t) R.tenant_QUOTA_EFF3 ≤ (s.tenant t).tok then some (refQuota, 0x13)
  else if pcs.any (fun c => s.fld (pgPress c) R.press_PAW_EFF == 0) then some (refPower, 0x21)
  else if (s.groupOf d.sid).any (fun x => (s.sectById x).isNone) then some (refCapacity, 0x08)
  else if ts.any (fun x => decide (s.guardNs * s.curMhz < x.drainBound * 1000)) then some (refCapacity, 0x06)
  else if ts.any (fun x => x.slotConflict || s.tyz.rsvBad.contains x.region) then some (refCapacity, 0x07)
  else if d.maxFrames ≠ 0 ∧ d.maxFrames ≤ d.frames then some (refDeadline, 0x31)
  else none

/-- A section has cells that a shift in progress moves (R449). -/
def State.sectMoving (s : State) (t : Sect) : Bool :=
  (List.range t.h).any fun j => (List.range t.w).any fun i => s.moving (t.orgX + i) (t.orgY + j)
/-- A stream engine descriptor of the item addresses the interleaved view of this device (R455). -/
def State.usesView (s : State) (d : Desc) (ts : List Sect) : Bool :=
  ts.any fun t => t.streams.any fun r => r.kind == 1 &&
    (let a := (d.arg (fieldAt r.param 0 1)).1
     a / 2 ^ 51 == ownDev s && decide (a % 2 ^ 51 < 0x100000000000))

/-! ### Fit (R386, R388) -/

/-- An item as the passes see it. -/
structure Ask where
  d : Desc
  runs : List Sect
  demand : Nat
  energy : Nat
  active : Bool
deriving DecidableEq, Repr

/-- What the passes have placed in a frame. -/
structure Plan where
  used : SMap Nat
  total : Nat
  /-- the earliest start left on each cell -/
  free : SMap Nat
  share : SMap Nat
  /-- items served per tenant: active ones, waiting ones -/
  actives : SMap Nat
  waits : SMap Nat
  energy : Nat
  /-- item, and its runs: SECTION_ID, start fc -/
  served : List (Nat × List (Nat × Nat))
deriving DecidableEq, Repr
def Plan.zero : Plan := ⟨[], 0, [], [], [], [], 0, []⟩

/-- What one admit phase fixes: F − MIN_RUN_FC (none where no start fits), the allowance, active items per tenant. -/
structure Terms where
  lastStart : Option Nat
  allowance : Nat
  actives : SMap Nat
  /-- a simulated later frame (R390) -/
  later : Bool
deriving DecidableEq, Repr

/-- Place runs one after another at the earliest starts R203 allows. -/
def State.place (s : State) (last : Nat) : List Sect → SMap Nat → Option (SMap Nat × List (Nat × Nat))
  | [], m => some (m, [])
  | t :: ts, m =>
    let ps := s.sectPositions t
    let start := ps.foldl (fun a p => max a (mapGet 0 m p)) 0
    if last < start then none
    else
      match s.place last ts (ps.foldl (fun a p => mapPut a p (start + t.window + 1)) m) with
      | some (m1, l) => some (m1, (t.sid, start) :: l)
      | none => none

/-- A fresh run waits for the continuation of another item that is not served in this frame, or its context is HELD. -/
def State.blocked (s : State) (p : Plan) (x : Ask) : Bool :=
  x.runs.any fun t => (s.ctx (s.physOf t.orgX t.orgY) t.ctx).state == .held
    || s.work.descs.any fun d => d.conts.contains t.sid && d.id != x.d.id && !(p.served.any fun e => e.1 == d.id)

/-- The fit of an item: its cause where it does not fit, else the plan with it served. -/
def State.fit (s : State) (k : Terms) (p : Plan) (x : Ask) : Except Nat Plan :=
  let t := x.d.tenant
  match k.lastStart with
  | none => .error 0x01
  | some last =>
    if !k.later && s.blocked p x then .error 0x01
    else
      match s.place last x.runs p.free with
      | none => .error 0x01
      | some (m, l) =>
        let n := if x.active then mapGet 0 p.actives t + 1 else mapGet 0 k.actives t + mapGet 0 p.waits t + 1
        if s.quotaShare t < mapGet 0 p.share t + x.demand then .error 0x10
        else if s.quotaInflight t < n then .error 0x11
        else if k.allowance < p.energy + x.energy then .error 0x20
        else
          let c := x.d.cls % 4
          .ok { used := mapPut p.used c (mapGet 0 p.used c + x.demand)
                total := p.total + x.demand
                free := m
                share := mapPut p.share t (mapGet 0 p.share t + x.demand)
                actives := if x.active then mapPut p.actives t (mapGet 0 p.actives t + 1) else p.actives
                waits := if x.active then p.waits else mapPut p.waits t (mapGet 0 p.waits t + 1)
                energy := p.energy + x.energy
                served := p.served ++ [(x.d.id, l)] }

def Plan.serves (p : Plan) (id : Nat) : Bool := p.served.any fun e => e.1 == id

/-- Pass 1 over the items of one class, or pass 2 (R387). -/
def State.passClass (s : State) (k : Terms) (spare : Bool) (c : Nat) (xs : List Ask) (p : Plan) : Plan :=
  xs.foldl (fun (a : Plan) x =>
    if x.d.cls % 4 ≠ c ∨ a.serves x.d.id then a
    else
      let u := mapGet 0 a.used c + x.demand
      let open_ := if spare then decide (a.total + x.demand ≤ 256) && decide (u ≤ s.clsLim c) else decide (u ≤ s.fld pgPolicy (clsRsv c))
      if open_ then (match s.fit k a x with | .ok q => q | .error _ => a) else a) p
def State.passes (s : State) (k : Terms) (xs : List Ask) : Plan :=
  let p1 := (List.range 4).foldl (fun (a : Plan) c => s.passClass k false c xs a) Plan.zero
  (List.range 4).foldl (fun (a : Plan) c => s.passClass k true c xs a) p1

/-- Pass 2 once more over one class, with the cause of every item it meets and does not serve (R388). -/
def State.causesClass (s : State) (k : Terms) (c : Nat) : List Ask → Plan → SMap Nat → Plan × SMap Nat
  | [], p, m => (p, m)
  | x :: xs, p, m =>
    if x.d.cls % 4 ≠ c ∨ p.serves x.d.id then s.causesClass k c xs p m
    else if 256 < p.total + x.demand ∨ s.clsLim c < mapGet 0 p.used c + x.demand then s.causesClass k c xs p (mapPut m x.d.id 0x01)
    else
      match s.fit k p x with
      | .ok q => s.causesClass k c xs q m
      | .error e => s.causesClass k c xs p (mapPut m x.d.id e)
/-- The plan of a frame and the causes of the items not served. -/
def State.planFrame (s : State) (k : Terms) (xs : List Ask) : Plan × SMap Nat :=
  let p1 := (List.range 4).foldl (fun (a : Plan) c => s.passClass k false c xs a) Plan.zero
  (List.range 4).foldl (fun (a : Plan × SMap Nat) c => s.causesClass k c xs a.1 a.2) (p1, [])

/-- An item served in a frame ends in it, as far as its budgets say: every run's budget ends within the run phase. -/
def State.endsInFrame (s : State) (x : Ask) (p : Plan) : Bool :=
  match p.served.find? fun e => e.1 == x.d.id with
  | none => false
  | some e => e.2.all fun r => match x.runs.find? fun t => t.sid == r.1 with
    | some t => decide (r.2 + t.budget ≤ s.runFc)
    | none => true

/-- The estimate of R390, from frame `f` on: `base` is present in every frame, `queue` until it is served. -/
def State.estimate (s : State) (k : Terms) (base : List Ask) (x : Ask) : Nat → Nat → List Ask → Option Nat
  | 0, _, _ => none
  | fuel + 1, f, queue =>
    let p := s.passes k (base ++ queue ++ [x])
    if p.serves x.d.id then some f
    else s.estimate k base x fuel (f + 1) (queue.filter fun y => !(p.serves y.d.id && s.endsInFrame y p))

/-! ### Outcomes -/

/-- The ADMIT trace record (R394, Table 17.6): E in µs, all ones where there is none. -/
def State.admitTrace (s : State) (d : Desc) (status reason e : Nat) : State :=
  let (v, s1) := s.takeFree
  s1.traceRec 1 (v.toNat % 8) (leBytes 2 d.tenant ++ leBytes 1 (d.cls % 4) ++ leBytes 1 status ++ leBytes 1 reason ++ leBytes 3 0 ++ leBytes 4 e
    ++ leBytes 4 d.cmdId)

/-- Per-class counts of the last frame (R397): word 0 served, 1 deferred, 2 refused. -/
def State.stat (s : State) (c w : Nat) : State :=
  let f := R.sched_STATS.up (0x0C * c + 4 * w)
  s.setFld pgSched f (s.fld pgSched f + 1)

/-- PRESSn.REFUSED counts each run refused with REFUSED_MEMORY at the channels that it names and that do not serve it (R304, Table 9.17). -/
def State.countRefused (s : State) (d : Desc) (status : Nat) : State :=
  if status ≠ refMemory then s
  else (s.groupSects d).foldl (fun (a : State) t =>
    ((pressChannels [t]).eraseDups.filter fun c => !a.inService c || !a.pressAvail c).foldl (fun (b : State) c =>
      b.bump (pgPress c) R.press_REFUSED 2 1) a) s
/-- Refuse an item (R389, R395, Table 12.7). -/
def State.refuseItem (s : State) (d : Desc) (status reason cause : Nat) (nest : Option Nat) : State :=
  let e := match nest with | some m => usOf (s.ttftEst d m) | none => 0xFFFFFFFF
  let detail := if status = refMemory then 0 else e + d.cls % 4 * 2 ^ 32 + cause * 2 ^ 40
  (((s.countRefused d status).endItem d.id ⟨status, reason, detail⟩).admitTrace d status reason e).stat (d.cls % 4) 2

/-- Defer an item (R391): an entry the first time, where n_est became later, or where the cause changed. -/
def State.deferItem (s : State) (d : Desc) (cause : Nat) (nest : Option Nat) : State :=
  let later := match d.postedEst, nest with
    | none, _ => true
    | some a, some b => decide (a < b)
    | some _, none => false
  let (v, s0) := s.takeFree
  let n := nest.getD v.toNat
  let s1 := if later || d.postedCause != cause then
      (s0.post d.id 0x10 cause n false).onDesc d.id fun x => { x with
        postedEst := some n
        postedCause := cause }
    else s0
  (s1.admitTrace d 0x10 cause (match nest with | some m => usOf (s.ttftEst d m) | none => 0xFFFFFFFF)).stat (d.cls % 4) 1

/-- The REFUSED status of a cause (R388). -/
def causeStatus (cause : Nat) : Nat := if cause = 0x10 ∨ cause = 0x11 then refQuota else if cause = 0x20 then refPower else refCapacity

/-! ### KV lists (R401, R402) -/

/-- Records of an item's KV list: index, ADDR, CELL_ADDR, UNITS, FLAGS. -/
def kvParse : Nat → Nat → List Byte → List (Nat × Nat × Nat × Nat × Nat)
  | 0, _, _ => []
  | n + 1, i, b =>
    if b.length < 16 then []
    else (i, fieldAt b 0 8, fieldAt b 8 4, fieldAt b 12 2, fieldAt b 14 2) :: kvParse n (i + 1) (b.drop 16)
inductive KvList where
  | none
  | bad (e : Ending)
  | got (l : List (Nat × Nat × Nat × Nat × Nat))
deriving DecidableEq, Repr
/-- The KV list of an item, read from this device's module memory; an address of another device is a format error of the argument table
(assumption 95, DESIGN CHOICE). -/
def State.kvList (s : State) (d : Desc) : State × KvList :=
  let arg := d.arg 63
  if arg.2.2 ≠ 1 then (s, .none)
  else if arg.2.1 % 16 ≠ 0 ∨ 4096 < arg.2.1 ∨ arg.1 / 2 ^ 51 ≠ ownDev s then (s, .bad (endFormat 2))
  else
    match s.memRead (arg.1 % 2 ^ 51) arg.2.1 false with
    | .ok t ps =>
      let l := kvParse 256 0 (ps.flatMap (·.1))
      if ps.any (·.2) then (t, .bad ⟨0x30, 1, 0⟩)
      else if l.any fun r => decide (4 ≤ r.2.2.2.2) || r.2.2.2.1 == 0 || decide (4096 < r.2.2.2.1) then (t, .bad (endFormat 2))
      else (t, .got l)
    | .fail f => (s, .bad f.ending)

/-- A MIGRATE descriptor for a KV record, owned by the tenant, on the engine the policy engine uses. -/
def State.migrate (s : State) (d : Desc) (opc : Nat) (r : Nat × Nat × Nat × Nat × Nat) : State :=
  match s.sectById d.sid with
  | none => s
  | some t => s.postDescr 0 (descrBytes r.2.1 (64 * r.2.2.2.1) (64 * r.2.2.2.1) 1 0 opc r.2.2.1 t.region false 0 d.tenant)

/-- Fetch the missing records; answers whether some are missing. -/
def State.fetchKv (s : State) (d : Desc) (l : List (Nat × Nat × Nat × Nat × Nat)) : State × Bool :=
  let missing := l.filter fun r => !d.kv.contains r.1
  let ask := missing.filter fun r => !(d.kvWait.any fun w => w.2 == r.1)
  (ask.foldl (fun (a : State) r =>
    let ring := a.ringTail 0
    (a.migrate d 2 r).onDesc d.id fun x => { x with kvWait := x.kvWait ++ [(ring, r.1)] }) s, !missing.isEmpty)

/-- Records of an item become non-resident; a DIRTY one without PIN is copied back first. -/
def State.evictKv (s : State) (d : Desc) (final : Bool) : State :=
  if d.kv.isEmpty then s
  else
    match s.kvList d with
    | (s1, .got l) =>
      let pinned := fun (r : Nat × Nat × Nat × Nat × Nat) => bitOf r.2.2.2.2 1
      let keeps := !final && s.fld (pgTenant d.tenant) R.tenant_STATE == 1
      let go := l.filter fun r => d.kv.contains r.1 && !(keeps && pinned r)
      (go.foldl (fun (a : State) r => if bitOf r.2.2.2.2 0 && !pinned r then a.migrate d 3 r else a) s1).onDesc d.id fun x => { x with
        kv := x.kv.filter fun i => !(go.any fun r => r.1 == i) }
    | (s1, _) => s1.onDesc d.id fun x => { x with kv := [] }

/-- A descriptor of the policy engine has ended: the record is resident, or the item ends. -/
def State.kvArrived (s : State) (ring st : Nat) : State :=
  match s.work.descs.find? fun d => d.kvWait.any fun w => w.1 == ring with
  | none => s
  | some d =>
    let rec_ := ((d.kvWait.find? fun w => w.1 == ring).map (·.2)).getD 0
    let s1 := s.onDesc d.id fun x => { x with
      kvWait := x.kvWait.filter fun w => w.1 != ring
      kv := if st = 0 then x.kv ++ [rec_] else x.kv }
    if st = 0 then s1 else if st = 0x3F then s1.endItem d.id ⟨refMemory, 0x03, 0⟩
    else s1.endItem d.id ⟨st, if st = refMemory ∨ st = 0x34 then 4 else 0, 0⟩
/-- SE_DESC_COMPLETE (R258, R259, R267, R402, R620): the job's completion record; the policy engine takes note of a record it fetched. -/
def execSeDescComplete (k i : Nat) (s : State) : Host.Outcome State Fault Refusal := s.onClock <|
  match s.job k i with
  | none => s.passOver "no such descriptor"
  | some j =>
    if j.bad.isNone ∧ (j.moved < j.total ∨ 0 < j.unacked) then s.passOver "the descriptor has not ended"
    else .next (if k = 0 ∧ j.kind = 0 ∧ j.opc = 2 then (s.jobDone k i j).kvArrived j.ring (j.bad.getD 0) else s.jobDone k i j)

/-- An item has not been served for IDLE_FRAMES frames while records of its list are resident. -/
def State.kvIdle (s : State) (d : Desc) : Bool := !d.kv.isEmpty && decide (s.inForce pgPolicy R.policy_KV ≤ d.idle) && decide (0 < d.idle)

/-- KV_IDLE_EVICT (R402). -/
def execKvIdleEvict (d : Nat) (s : State) : Host.Outcome State Fault Refusal := s.onClock <|
  match s.desc d with
  | none => s.passOver "no such descriptor"
  | some x => if s.kvIdle x then .next (s.evictKv x false) else s.passOver "the item has not been idle long enough"

/-! ### The admit phase -/

/-- The checks before the passes: an item that ends or is deferred here, or stays. -/
def State.consider (s : State) (d : Desc) : State × Bool :=
  let ts := s.groupSects d
  let s0 := s.onDesc d.id fun x => { x with checked := true }
  if !d.checked && !argsFit d ts then ((s0.endItem d.id (endFormat 2)).stat (d.cls % 4) 2, false)
  else if (s.groupOf d.sid).any (fun x => s.work.noCells.contains x) then (s0.refuseItem d refDegraded 0x43 0x43 none, false)
  else if (s.groupOf d.sid).any (fun x => s.work.replacing.contains x) then
    let (v, s1) := s0.takeFree
    (s1.deferItem d 0x51 (some v.toNat), false)
  else
    match s0.gate d with
    | some (st, r) => (s0.refuseItem d st r r none, false)
    | none =>
      if ts.any s.sectMoving then (s0.deferItem d 0x51 (some (s.frameNo + 1)), false)
      else if s.sys.refill ≠ 0 && s.usesView d ts then
        let (v, s1) := s0.takeFree
        (s1.deferItem d 0x51 (some v.toNat), false)
      else
        match s0.kvList d with
        | (s1, .none) => (s1, true)
        | (s1, .bad e) => ((s1.endItem d.id e).stat (d.cls % 4) 2, false)
        | (s1, .got l) =>
          let (s2, missing) := s1.fetchKv d l
          if missing then
            let (v, s3) := s2.takeFree
            match s3.desc d.id with
            | some d1 => (s3.deferItem d1 0x50 (some v.toNat), false)
            | none => (s3, false)
          else (s2, true)

/-- Serve an item (R386, R387, R394): its runs are placed. -/
def State.serveItem (s : State) (x : Ask) (runs : List (Nat × Nat)) : State :=
  let d := x.d
  let new_ := runs.map fun r => (⟨d.id, r.1, r.2, s.tickAt s.frameNo + BitVec.ofNat 64 (2000 + s.nsOfFc r.2), 0, .scheduled, d.conts.contains r.1, 0, none,
    false, 0, false, s.tickAt s.frameNo, 0⟩ : Run)
  let s1 := { s with work := { s.work with
    runs := s.work.runs ++ new_
    energyServed := s.work.energyServed + x.energy } }
  let s2 := if x.active then s1 else
    let e := s.ttftEst d s.frameNo
    let c := d.cls % 4
    let f := R.sched_TTFT_EST.up (4 * c)
    let s3 := { s1 with work := { s1.work with nextOrder := s1.work.nextOrder + 1 } }
    (((s3.onDesc d.id fun y => { y with
      order := s1.work.nextOrder
      firstFrame := s.frameNo
      est := e }).touchProfile d.sid c id).setFld pgSched f (max (s1.fld pgSched f) (usOf e))).admitTrace d 0 0 (usOf e)
  (s2.onDesc d.id fun y => { y with
    served := true
    idle := 0 }).stat (d.cls % 4) 0

/-- Settle the items not served, in order (R389); `def_` are the waiting items deferred so far, `counts` those per class. -/
def State.settle (s : State) (k : Terms) (base : List Ask) (causes : SMap Nat) : List Ask → List Ask → SMap Nat → State
  | [], _, _ => s
  | x :: xs, def_, counts =>
    let c := x.d.cls % 4
    let cause := mapGet 0x01 causes x.d.id
    let nest := s.estimate k base x 64 (s.frameNo + 1) def_
    let s0 := if cause = 0x01 then { s with work := { s.work with adapt := { s.work.adapt with
        hit := if s.work.adapt.hit.contains c then s.work.adapt.hit else s.work.adapt.hit ++ [c] } } } else s
    if x.active then (s0.deferItem x.d cause nest).settle k base causes xs def_ counts
    else
      let n := mapGet 0 counts c + 1
      let room := s.clsQueue c && !x.d.noDefer && decide (n ≤ s.clsQmax c)
      match room, nest with
      | true, some m =>
        if s.meetsDeadline x.d m then (s0.deferItem x.d cause nest).settle k base causes xs (def_ ++ [x]) (mapPut counts c n)
        else (s0.refuseItem x.d refDeadline 0x30 cause nest).settle k base causes xs def_ counts
      | _, _ =>
        let reason := if !s.clsQueue c then 0x02 else if x.d.noDefer then 0x04 else if s.clsQmax c < n then 0x03 else 0x05
        (s0.refuseItem x.d (causeStatus cause) reason cause nest).settle k base causes xs def_ counts

/-- The items up for consideration in rank order are considered; those that may run ask for a place. -/
def State.considerAll (s : State) (ds : List Desc) : State × List Ask :=
  ds.foldl (fun (a : State × List Ask) d =>
    match a.1.desc d.id with
    | none => a
    | some d1 =>
      let r := a.1.consider d1
      if r.2 then
        match r.1.desc d.id with
        | some d2 => let rs := r.1.needs d2; (r.1, a.2 ++ [⟨d2, rs, r.1.demandU rs, r.1.energyEst d2 rs, d2.isActive⟩])
        | none => (r.1, a.2)
      else (r.1, a.2)) (s, [])
/-- The counts of the last frame start anew. -/
def State.admitClear (s : State) : State :=
  (List.range 4).foldl (fun (a : State) c =>
    (((a.setFld pgSched (R.sched_STATS.up (0x0C * c)) 0).setFld pgSched (R.sched_STATS.up (0x0C * c + 4)) 0).setFld pgSched
      (R.sched_STATS.up (0x0C * c + 8)) 0).setFld pgSched (R.sched_TTFT_EST.up (4 * c)) 0)
    { s with work := { s.work with
      energyServed := 0
      adapt := { s.work.adapt with hit := [] } } }
/-- The items of plan `p` are served. -/
def State.servePlan (s : State) (asks : List Ask) (served : List (Nat × List (Nat × Nat))) : State :=
  served.foldl (fun (a : State) e =>
    match asks.find? fun x => x.d.id == e.1 with
    | some x => a.serveItem x e.2
    | none => a) s
/-- Items not served have been idle for one more frame; USED and QDEPTH are shown. -/
def State.admitShow (s : State) (used : SMap Nat) : State :=
  let s1 := { s with work := { s.work with descs := s.work.descs.map fun (d : Desc) =>
    if d.phase == .item && !d.served then { d with idle := d.idle + 1 } else d } }
  (List.range 4).foldl (fun (a : State) c =>
    let depth := (a.work.descs.filter fun d => d.phase == .item && d.cls % 4 == c && !d.isActive && d.postedCause != 0
      && !(match d.post with | some q => q.final | none => false)).length
    (a.setFld pgSched (R.sched_USED.up (4 * c)) (mapGet 0 used c)).setFld pgSched (R.sched_QDEPTH.up (4 * c)) depth) s1
/-- The admit phase (R29, R384 to R397): tick step 9. -/
def State.admitPhase (s : State) : State :=
  let order := (List.range 4).flatMap s.itemsOf
  let cmax := s.considerMax
  let s0 := if cmax < order.length then s.bump pgSched R.sched_CONSIDER_OVF 0 1 else s
  let r := s0.admitClear.considerAll (order.take cmax)
  let s1 := r.1
  let asks := r.2
  let actives := s.work.descs.foldl (fun (m : SMap Nat) d =>
    if d.phase == .item && d.isActive && !(match d.post with | some p => p.final | none => false) then mapPut m d.tenant (mapGet 0 m d.tenant + 1) else m) []
  let f := s1.runFc
  let mr := s1.inForce pgSched R.sched_MIN_RUN_FC
  let k : Terms := ⟨if mr ≤ f then some (f - mr) else none, s1.fld pgSched R.sched_EBUDGET_EFF, actives, false⟩
  let plan := s1.planFrame k asks
  let p := plan.1
  let s2 := s1.servePlan asks p.served
  let base := asks.filter fun x => (p.serves x.d.id && !s1.endsInFrame x p) || (!p.serves x.d.id && x.active)
  let left := asks.filter fun x => !p.serves x.d.id
  let parked := (order.take cmax).filter fun d => !(asks.any fun x => x.d.id == d.id)
    && (match s2.desc d.id with | some e => e.phase == .item && !(match e.post with | some q => q.final | none => false) | none => false)
  let waiting := fun (c : Nat) => (order.drop cmax ++ parked).foldl (fun a d =>
    if d.cls % 4 = c ∧ !d.isActive ∧ (d.postedCause ≠ 0 ∨ parked.contains d) then a + 1 else a) 0
  let s3 := s2.settle { k with later := true } (base.map fun x => { x with active := true }) plan.2 left []
    ((List.range 4).filterMap fun c => if waiting c = 0 then none else some (c, waiting c))
  s3.admitShow p.used

/-! ### Adaptation of reservations (R399) -/

/-- One frame of the adaptation window. -/
def State.adaptFrame (s : State) : State :=
  let a := s.work.adapt
  { s with work := { s.work with adapt := { a with
    frames := a.frames + 1
    grid := a.hit.foldl (fun (m : SMap Nat) c => mapPut m c (mapGet 0 m c + 1)) a.grid
    used := (List.range 4).foldl (fun (m : SMap Nat) c => mapSet 0 m c (mapGet 0 m c + s.fld pgSched (R.sched_USED.up (4 * c)))) a.used } } }

/-- A window ends: the donor and the receiver of STEP are chosen for the next step 9, and a new window begins. -/
def State.adaptChoose (s : State) : State :=
  let a := s.work.adapt
  let step := s.inForce pgPolicy R.policy_ADAPT_STEP
  let eff := fun c => s.fld pgPolicy (clsRsv c)
  let rmax := fun c => s.inForce pgPolicy (R.policy_CLASS0_1_RSV_MAX.up (0x10 * c))
  let rmin := fun c => s.inForce pgPolicy (R.policy_CLASS0_1_RSV_MIN.up (0x10 * c))
  let recv := (List.range 4).find? fun c => decide (a.frames ≤ 2 * mapGet 0 a.grid c) && decide (eff c < rmax c)
  let donor := [3, 2, 1, 0].find? fun c => some c != recv && decide (rmin c + step ≤ eff c)
    && decide (mapGet 0 a.used c < (eff c - step) * a.frames)
  let move := match recv, donor with
    | some r, some d => some (d, r, step)
    | _, _ => none
  { s with work := { s.work with adapt := { Adapt.zero with hit := a.hit, due := a.due, move := move } } }
/-- Step 9: STEP moves from the donor to the receiver. -/
def State.adaptMove (s : State) : State :=
  match s.work.adapt.move with
  | none => s
  | some (d, r, step) =>
    let eff := fun c => s.fld pgPolicy (clsRsv c)
    (({ s with work := { s.work with adapt := { s.work.adapt with move := none } } }).setFld pgPolicy (clsRsv d) (eff d - step)).setFld pgPolicy
      (clsRsv r) (eff r + step)

/-- The window in progress has ended. -/
def State.adaptDue (s : State) : Bool :=
  s.inForce pgPolicy R.policy_ADAPT_EN == 1 && decide (s.inForce pgPolicy R.policy_ADAPT_FRAMES ≤ s.work.adapt.frames)

/-- POLICY_ADAPT_WINDOW (R399): the end of an adaptation window; what it decides takes effect at the next tick step 9. -/
def execPolicyAdaptWindow (s : State) : Host.Outcome State Fault Refusal := s.onClock <|
  if s.adaptDue then .next s.adaptChoose else s.passOver "no adaptation window has ended"

end Sys2Proof.Machine
end

