-- ==== Sys2Proof/Machine/HostQueues.lean ====
section
/-! DEFINITION. Tenant queues (R313, R318 to R330, R321a to R322d, R375, R376, R382, R392 to R394, R654, R655): doorbells, fetch,
descriptors, completion entries, moderation, notices, the tenant states and the writes of a TENANT page. -/
namespace Sys2Proof.Machine

/-! ### Functions and captures -/

/-- The MSI-X function that holds a tenant: 1 PF1, 1 + v VF v (R325, R328). -/
def State.tenantFn (s : State) (t : Nat) : Nat := s.fld (pgTenant t) R.tenant_FN_EFF % 256 + 1

/-- Count and capture an error of the HOST page (R655): offset, cause, tenant, VF and slot. -/
def State.hostError (s : State) (off cause : Nat) (t : Option Nat) (vf slot : Nat) : State :=
  s.pageError pgHost off (ifaceCode .fn) cause
    (BitVec.ofNat 32 (t.getD 0 % 1024 + b2n t.isNone * 2 ^ 10 + vf % 256 * 2 ^ 16 + slot % 8 * 2 ^ 24))

/-- The tenant whose doorbell page or window a function's page is: outer none where the function shows no such page. -/
def State.pageTenant (s : State) (vf page : Nat) : Option (Option Nat) :=
  if vf = 0 then
    (if 1024 ≤ page then none else if s.fld (pgTenant page) R.tenant_FN_EFF % 256 = 0 then some (some page) else some none)
  else if s.vfEnabled vf && decide (page < 8) then some (s.tenantOf vf page)
  else none

/-- Tenants of which something differs from reset: every other tenant is FREE and has no work. -/
def State.tenantsTouched (s : State) : List Nat :=
  let pages := (s.regs.map fun e => e.1 / 0x1000).eraseDups
  (List.range 1024).filter fun t => pages.contains (pgTenant t) || s.work.tenants.any fun e => e.1 == t

/-! ### Queue protocol (R318 to R321) -/

def State.sqSize (s : State) (t : Nat) : Nat := s.fld (pgTenant t) R.tenant_SQ_SIZE
def State.cqSize (s : State) (t : Nat) : Nat := s.fld (pgTenant t) R.tenant_CQ_SIZE
def State.qEnabled (s : State) (t : Nat) : Bool := s.flag (pgTenant t) R.tenant_Q_CTL_EN
def State.qError (s : State) (t : Nat) : Bool := s.regBit (pgTenant t * 0x1000 + 0x54) 1
/-- Entries rung since the queue was enabled. -/
def Tenant.rung (x : Tenant) : Nat := match x.bells.getLast? with | some b => b.1 | none => x.fetched
/-- A notice of a tenant waits for tick step 8. -/
def State.notice (s : State) (t code : Nat) : State := s.onTenant t fun x => { x with notices := x.notices ++ [code] }
/-- A queue-protocol error (R321). -/
def State.queueProto (s : State) (t : Nat) : State := (s.setRegBit (pgTenant t * 0x1000 + 0x54) 1 true).notice t 4

/-- What a doorbell write meets before its value: not held, wrong size, or the tenant. -/
def State.doorbell (s : State) (vf page size off : Nat) (f : State → Nat → State) : State :=
  match s.pageTenant vf page with
  | none => s
  | some none => s.hostError off 0x12 (if vf = 0 then some page else none) vf (if vf = 0 then 0 else page)
  | some (some t) =>
    if size ≠ 4 then s.hostError off 0x10 (some t) vf (if vf = 0 then 0 else page) else f s t

/-- A tenant's SQ_TAIL is written (R320, R321, R392). -/
def State.tailRung (a : State) (vf page : Nat) (val : Word) (t : Nat) : State :=
  let v := val.toNat % 2 ^ 13
  let x := a.tenant t
  if !a.qEnabled t then a.hostError 0 0x14 (some t) vf (if vf = 0 then 0 else page)
  else if a.sqSize t ≤ v then a.queueProto t
  else
    let new_ := (v + a.sqSize t - x.sqTail) % a.sqSize t
    a.onTenant t fun y => { y with
      sqTail := v
      bells := if new_ = 0 then y.bells else y.bells ++ [(x.rung + new_, a.tb)] }
/-- DB_SQ_TAIL: a write of `size` bytes to SQ_TAIL of doorbell page `page` of PF1 (vf 0) or a VF. -/
def execDbSqTail (vf page size : Nat) (val : Word) (at_ : Dword) (s : State) : Host.Outcome State Fault Refusal := s.onClock <|
  .next ((s.advance at_).doorbell vf page size 0 fun a t => a.tailRung vf page val t)

/-- A tenant's CQ_HEAD is written (R320, R321). -/
def State.freeHead (a : State) (val : Word) (t : Nat) : State :=
  let v := val.toNat % 2 ^ 13
  let x := a.tenant t
  let n := a.cqSize t
  if n ≤ v then a.queueProto t
  else
    let d := (v + n - x.cqHead) % n
    let freed := if d = 0 ∧ x.occ = n then n else d
    if x.occ < freed then a.queueProto t
    else a.onTenant t fun y => { y with
      cqHead := v
      occ := y.occ - freed }
/-- DB_CQ_HEAD. -/
def execDbCqHead (vf page size : Nat) (val : Word) (at_ : Dword) (s : State) : Host.Outcome State Fault Refusal := s.onClock <|
  .next ((s.advance at_).doorbell vf page size 4 fun a t => a.freeHead val t)

/-! ### Fetch (R322, R323, R321a, R321b, R322d) -/

/-- CQ places taken: entries not freed, descriptors without a final entry, a fetch in progress (R322, R324). -/
def State.cqTaken (s : State) (t : Nat) : Nat := (s.tenant t).occ + s.tenantInf t + b2n (s.tenant t).fetching
/-- The device may fetch the next SQ entry. -/
def State.mayFetch (s : State) (t : Nat) : Bool :=
  let x := s.tenant t
  s.qEnabled t && !s.qError t && !x.fetching && decide (x.fetched < x.rung) && decide (s.cqTaken t < s.cqSize t)

/-- SQ_FETCH (R322): the read of the SQ entry at the head leaves for the host. -/
def execSqFetch (t : Nat) (s : State) : Host.Outcome State Fault Refusal := s.onClock <|
  if 1024 ≤ t then s.passOver "no such tenant"
  else if s.mayFetch t then
    .next ((s.onTenant t fun x => { x with fetching := true }).emit
      (.hostRead (s.fld64 (pgTenant t) R.tenant_SQ_BASE + 64 * s.fld (pgTenant t) R.tenant_SQ_HEAD) 64 t))
  else s.passOver "the device may fetch no entry of this queue"

/-- An SQ entry holds no reserved value (R321a, Tables 10.7 and 10.8). -/
def sqOk (b : List Byte) : Bool :=
  let ty := fieldAt b 0 1
  let cls := fieldAt b 1 1
  b.length == 64 && decide (1 ≤ ty) && decide (ty ≤ 5) && (if ty = 1 then decide (cls < 4) else cls == 0) && decide (fieldAt b 2 2 < 2)
    && decide (fieldAt b 8 4 ≤ 4000000) && zeroAt b 0xC 4
    && (if ty = 1 then fieldAt b 0x18 8 % 64 == 0 && zeroAt b 0x24 28
      else if ty = 2 then (fieldAt b 0x18 1 == 1 || fieldAt b 0x18 1 == 2) && zeroAt b 0x19 3 && zeroAt b 0x20 32
        && fieldAt b 0x1C 4 % 16 == 0 && decide (256 ≤ fieldAt b 0x1C 4) && decide (fieldAt b 0x1C 4 ≤ 67108864)
      else if ty = 3 then zeroAt b 0x18 40
      else if ty = 4 then fieldAt b 0x20 4 % 64 == 0 && decide (64 ≤ fieldAt b 0x20 4) && decide (fieldAt b 0x20 4 ≤ 2 ^ 30)
        && decide (fieldAt b 0x24 1 < 16) && (fieldAt b 0x24 1 % 4 == 1 || fieldAt b 0x24 1 % 4 == 2)
        && (fieldAt b 0x24 1 / 4 == 1 || fieldAt b 0x24 1 / 4 == 2) && zeroAt b 0x25 27
      else zeroAt b 0x10 48)
/-- Every entry of an argument table has a KIND of 0 to 2 and reserved bytes of 0 (R321b). -/
def argTableOk (b : List Byte) : Bool :=
  (List.range 64).all fun k => decide (fieldAt b (16 * k + 12) 1 ≤ 2) && zeroAt b (16 * k + 13) 3

/-- The instant of the doorbell that first covered an entry (R392). -/
def Tenant.covered (x : Tenant) (k : Nat) : Dword := ((x.bells.find? fun b => decide (k < b.1)).map (·.2)).getD 0

/-- COPY reads its source from the host, or from another device: bytes that arrive with the fetch (Table 10.8). -/
def State.copyFetched (s : State) (b : List Byte) : Bool :=
  fieldAt b 0 1 == 4 && (fieldAt b 0x24 1 % 4 == 2 || fieldAt b 0x10 8 / 2 ^ 51 != ownDev s)

/-- A fetched descriptor, and the outcome it has at once where its reads failed or its format is reserved. -/
def State.fetchDone (s : State) (t : Nat) (sq host : List Byte) (sqEnd hostEnd : ReadEnd) : State :=
  let x := s.tenant t
  let pg := pgTenant t
  let head := (s.fld pg R.tenant_SQ_HEAD + 1) % s.sqSize t
  let b := if sqEnd = .ok then takePad 0 64 sq else []
  let run := fieldAt b 0 1 == 1
  let reads := sqOk b && (run || s.copyFetched b)
  let h := if reads && hostEnd = .ok then takePad 0 (if run then 1024 else fieldAt b 0x20 4) host else []
  let d : Desc :=
    { id := s.work.nextDesc
      tenant := t
      sqHead := head
      sq := b
      host := h
      tdb := x.covered x.fetched
      readyAt := s.tb
      phase := .ready
      order := 0
      firstFrame := 0
      est := 0
      frames := 0
      served := false
      idle := 0
      postedEst := none
      postedCause := 0
      done := []
      conts := []
      usedFc := 0
      firstOut := none
      skipped := false
      post := none
      prog := []
      progDue := []
      counted := []
      kv := []
      kvWait := []
      eMax := 0
      eVid := 0
      checked := false }
  let s1 := ({ s with work := { s.work with
    descs := s.work.descs ++ [d]
    nextDesc := s.work.nextDesc + 1 } }).setFld pg R.tenant_SQ_HEAD head
  let s2 := s1.onTenant t fun y => { y with
    fetching := false
    fetched := y.fetched + 1
    bells := y.bells.filter fun e => decide (y.fetched + 1 < e.1) || some e == y.bells.getLast? }
  let s3 := if reads then s2.emit (.hostRead (fieldAt b (if run then 0x18 else 0x10) 8) (if run then 1024 else fieldAt b 0x20 4) t) else s2
  if sqEnd ≠ .ok then s3.postEnd d.id sqEnd.ending
  else if !sqOk b then s3.postEnd d.id (endFormat 1)
  else if reads && hostEnd ≠ .ok then s3.postEnd d.id hostEnd.ending
  else if run && !argTableOk h then s3.postEnd d.id (endFormat 2)
  else s3

/-- SQ_FETCH_COMPLETE (R322, R323, R321a, R321b, R322d): the 64 bytes of tenant `t`'s SQ entry have arrived, and with them what the
descriptor's further reads return: a RUN's argument table, or the source of a COPY from elsewhere. -/
def execSqFetchComplete (t : Nat) (sq host : List Byte) (sqEnd hostEnd : ReadEnd) (at_ : Dword) (s : State) :
    Host.Outcome State Fault Refusal := s.onClock <|
  if (s.tenant t).fetching then .next ((s.advance at_).fetchDone t sq host sqEnd hostEnd)
  else s.passOver "no entry of this queue is being fetched"

/-! ### Discarding work (R329) -/

/-- Every descriptor in flight of a tenant is discarded: its runs are cut, its loads abandoned, its continuations dropped. -/
def State.discardDesc (s : State) (d : Desc) : State :=
  let s0 := s.evictKv d true
  let s1 := s0.work.runs.foldl (fun (a : State) (r : Run) =>
    if r.item ≠ d.id then a
    else if r.phase = .scheduled then { a with work := { a.work with runs := a.work.runs.filter fun x => x ≠ r } }
    else if r.phase = .active then
      match a.sectById r.sid with
      | some t => a.cutRun t r 2 (a.runUsed r)
      | none => a
    else a) s0
  let s2 := match s1.loadOf d.id with
    | none => s1
    | some l =>
      let a := if l.accepted then s1.onRegion l.place.orgX l.place.orgY l.w l.h l.place.ctx Ctx.emptied else s1
      a.dropLoad l
  let s3 := { s2 with work := { s2.work with unloads := s2.work.unloads.filter fun u => u.1 != d.id } }
  let s4 := { s3 with ses := s3.ses.map fun (e : Nat × SEngine) =>
    (e.1, { e.2 with jobs := e.2.jobs.filter fun j => !(j.kind == 1 && j.item == d.id) }) }
  s4.onDesc d.id fun x => { x with
    phase := .gone
    conts := []
    post := none }

/-- A TENANT reset (Table 10.15): EN 0; the queue registers, the ring and CQ_SKIP return to reset. -/
def State.resetTenant (s : State) (t : Nat) : State :=
  let s1 := (s.work.descs.filter fun d => d.tenant == t && d.phase != .gone).foldl (fun (a : State) d => a.discardDesc d) s
  let base := pgTenant t * 0x1000
  let s2 := ([0x50, 0x54, 0x58, 0x5C, 0x60, 0x64, 0x68, 0x6C, 0x70, 0x74, 0x78, 0x7C, 0x80, 0x84, 0x88] ++ (List.range 64).map (0x100 + 4 * ·)).foldl
    (fun (a : State) o => a.setReg (base + o) (regReset (base + o))) s1
  s2.onTenant t fun x => { x with
    sqTail := 0
    cqHead := 0
    occ := 0
    bells := []
    fetched := 0
    fetching := false
    unsig := 0
    unsigAge := 0
    finalI := false
    notices := [] }

/-! ### Writes of a TENANT page -/

/-- A reserved encoding written to a TENANT page (R7). -/
def State.tenantReserved (s : State) (i : Iface) (t off : Nat) (val : Word) : State × Nat :=
  (s.reservedWrite i (pgTenant t) off val, resReserved)

/-- Q_CTL (R319, R329, R376): RESET, then EN; `vf` and `slot` are those the write came through. -/
def State.writeQCtl (s : State) (t vf slot : Nat) (val : Word) : State × Nat :=
  if val.getLsbD 1 then (s.resetTenant t, resDone)
  else if !val.getLsbD 0 then
    ((s.setFld (pgTenant t) R.tenant_Q_CTL_EN 0).onTenant t fun x => { x with fetching := false }, resDone)
  else if s.fld (pgTenant t) R.tenant_STATE ≠ 1 then (s.hostError 0x50 0x13 (some t) vf slot, resFailed)
  else if s.qEnabled t then (s, resDone)
  else
    let s1 := (((s.setFld (pgTenant t) R.tenant_Q_CTL_EN 1).setFld (pgTenant t) R.tenant_SQ_HEAD 0).setFld (pgTenant t) R.tenant_CQ_TAIL
      (2 ^ 31)).setRegBit (pgTenant t * 0x1000 + 0x54) 1 false
    (s1.onTenant t fun x => { x with
      sqTail := 0
      cqHead := 0
      occ := 0
      bells := []
      fetched := 0
      fetching := false }, resDone)

/-- SQ_BASE, SQ_SIZE, CQ_BASE and CQ_SIZE (R318): only while EN is 0. -/
def State.writeQueueReg (s : State) (i : Iface) (t off : Nat) (val : Word) : State × Nat :=
  let a := pgTenant t * 0x1000 + off
  if s.qEnabled t then s.tenantReserved i t off val
  else if off = 0x60 then
    (if 8 ≤ val.toNat % 2 ^ 13 ∧ val.toNat % 2 ^ 13 ≤ 4096 then (s.setReg a (val &&& 0x1FFF), resDone) else s.tenantReserved i t off val)
  else if off = 0x64 then
    (if 8 ≤ val.toNat % 2 ^ 14 ∧ val.toNat % 2 ^ 14 ≤ 8192 then (s.setReg a (val &&& 0x3FFF), resDone) else s.tenantReserved i t off val)
  else if off = 0x58 ∨ off = 0x68 then
    ({ s with bus := { s.bus with hold := mapSet 0 s.bus.hold a (val &&& 0xFFFFF000) } }, resDone)
  else
    let low := mapGet 0 s.bus.hold (a - 4)
    ((s.setReg (a - 4) low).setReg a val, resDone)

/-- NOTICE_ACK (R327): it acknowledges no notice that is not written. -/
def State.writeNoticeAck (s : State) (i : Iface) (t : Nat) (val : Word) : State × Nat :=
  let head := s.fld (pgTenant t) R.tenant_NOTICE_HEAD
  let v := val.toNat % 32
  if (head + 32 - v) % 32 ≤ (head + 32 - s.fld (pgTenant t) R.tenant_NOTICE_ACK) % 32 then (s.setFld (pgTenant t) R.tenant_NOTICE_ACK v, resDone)
  else s.tenantReserved i t 0x84 val

/-- FN (R328): a VF that is enabled, and a slot no other tenant holds or has pending. -/
def State.writeFn (s : State) (i : Iface) (t : Nat) (val : Word) : State × Nat :=
  let v := val.toNat % 2 ^ 11
  let vf := v % 256
  let taken := s.tenantsTouched.any fun u => u != t
    && (s.fld (pgTenant u) R.tenant_FN_EFF == v || (s.reg (pgTenant u * 0x1000 + 0x90)).toNat == v)
  if vf ≠ 0 ∧ (!s.vfEnabled vf ∨ taken) then s.tenantReserved i t 0x90 val
  else (s.setReg (pgTenant t * 0x1000 + 0x90) (BitVec.ofNat 32 v), resDone)

/-- Tenants that are not FREE, those about to be created included (R375). -/
def State.tenantsUsed (s : State) : Nat :=
  (s.tenantsTouched.filter fun t => s.fld (pgTenant t) R.tenant_STATE != 0 || (s.tenant t).createPend).length

/-- CTL (R375, R566, Table 21.17): CREATE or DESTROY, with its audit record. -/
def State.writeTenantCtl (s : State) (i : Iface) (t : Nat) (val : Word) : State × Nat :=
  let st := s.fld (pgTenant t) R.tenant_STATE
  let c := val.getLsbD 0
  let d := val.getLsbD 1
  let role := let r := s.roleOf i; if r = roleFirmware then 0 else r
  let log := fun (a : State) (ty r : Nat) => a.audit ty role (auditIface i) r (pgTenant t * 0x1000) 0x4C t 0 0 val.toNat
  if c && d then
    let (s1, r) := s.tenantReserved i t 0x4C val
    (log (log s1 2 r) 3 r, r)
  else if c then
    if st ≠ 0 ∨ (s.tenant t).createPend then (log s 2 resFailed, resFailed)
    else if s.inForce pgPolicy R.policy_TENANT_MAX ≤ s.tenantsUsed then
      let (s1, r) := s.tenantReserved i t 0x4C val
      (log s1 2 r, r)
    else (log (s.onTenant t fun x => { x with createPend := true }) 2 resDone, resDone)
  else if d then
    if st = 1 then (log (s.setFld (pgTenant t) R.tenant_STATE 2) 3 resDone, resDone) else (log s 3 resFailed, resFailed)
  else (s, resDone)

/-- A write of a word of a TENANT page; `vf` and `slot` are those of the VF window it came through, 0 otherwise. -/
def State.writeTenant (s : State) (i : Iface) (t off vf slot : Nat) (val : Word) : State × Nat :=
  if off = 0x4C then s.writeTenantCtl i t val
  else if off = 0x50 then s.writeQCtl t vf slot val
  else if 0x58 ≤ off ∧ off < 0x70 then s.writeQueueReg i t off val
  else if off = 0x84 then s.writeNoticeAck i t val
  else if off = 0x90 then s.writeFn i t val
  else s.plainWrite i (pgTenant t) off val

/-- A write of a TENANT page's word over the register bus. -/
def State.busTenant (s : State) (rq : Req) (t off : Nat) (val : Word) : State :=
  s.busWrite rq (pgTenant (t % 1024) * 0x1000 + off) val fun a => a.writeTenant rq.iface (t % 1024) off 0 0 val

/-- Q_CTL_EN_WRITE (R319, R376). -/
def execQCtlEnWrite (rq : Req) (t : Nat) (val : Word) (s : State) : Host.Outcome State Fault Refusal := .next (s.busTenant rq t 0x50 val)
/-- TENANT_QUEUE_RESET (R329). -/
def execTenantQueueReset (rq : Req) (t : Nat) (s : State) : Host.Outcome State Fault Refusal := .next (s.busTenant rq t 0x50 2)
/-- TENANT_CREATE (R375). -/
def execTenantCreate (rq : Req) (t : Nat) (s : State) : Host.Outcome State Fault Refusal := .next (s.busTenant rq t 0x4C 1)
/-- TENANT_DESTROY (R375). -/
def execTenantDestroy (rq : Req) (t : Nat) (s : State) : Host.Outcome State Fault Refusal := .next (s.busTenant rq t 0x4C 2)
/-- TENANT_FN_WRITE (R328). -/
def execTenantFnWrite (rq : Req) (t : Nat) (val : Word) (s : State) : Host.Outcome State Fault Refusal := .next (s.busTenant rq t 0x90 val)
/-- NOTICE_ACK_WRITE (R327). -/
def execNoticeAckWrite (rq : Req) (t : Nat) (val : Word) (s : State) : Host.Outcome State Fault Refusal := .next (s.busTenant rq t 0x84 val)

/-- Offsets of a TENANT page that a VF window may write (R313). -/
def windowWritable (off : Nat) : Bool := [0x50, 0x58, 0x5C, 0x60, 0x64, 0x68, 0x6C, 0x7C, 0x84].contains off

/-- A write through window `k` of an enabled VF (R313). -/
def State.windowWrite (s : State) (vf k off : Nat) (val : Word) : State :=
  (s.tenantOf vf k).elim (s.hostError off 0x11 none vf k) fun t =>
    if windowWritable off then (s.writeTenant .fn t off vf k val).1 else s.hostError off 0x11 (some t) vf k
/-- VF_WINDOW_WRITE (R313): a write at `off` of window `k` of a VF's BAR0. -/
def execVfWindowWrite (vf k off : Nat) (val : Word) (at_ : Dword) (s : State) : Host.Outcome State Fault Refusal := s.onClock <|
  let s0 := s.advance at_
  if vf = 0 ∨ !s0.vfEnabled vf ∨ 8 ≤ k then .next s0 else .next (s0.windowWrite vf k off val)

/-! ### COPY and FENCE -/

/-- Write a COPY's bytes to its destination. -/
def State.copyTo (s : State) (d : Desc) (bs : List Byte) (poison : List Bool) : State :=
  let dst := d.at_ 0x18 8
  if d.at_ 0x24 1 / 4 = 2 then (s.emit (.hostWrite dst bs)).post d.id 0 0 0 true
  else if dst / 2 ^ 51 ≠ ownDev s then
    ((List.range ((bs.length + 4095) / 4096)).foldl (fun (a : State) k =>
      let part := (bs.drop (4096 * k)).take 4096
      a.sendTyz (dst / 2 ^ 51) (ownDom a) 4 0 part.length 0 ((dst + 4096 * k) % 2 ^ 51) part []) s).post d.id 0 0 0 true
  else match s.memWrite (dst % 2 ^ 51) bs (fun c g => (poison[c * 8 + g]?).getD false) false with
    | .ok t _ => t.post d.id 0 0 0 true
    | .fail f => s.postEnd d.id f.ending

/-- Carry out a COPY. -/
def State.carryCopy (s : State) (d : Desc) : State :=
  if s.copyFetched d.sq then s.copyTo d d.host []
  else match s.memRead (d.at_ 0x10 8 % 2 ^ 51) (d.at_ 0x20 4) false with
    | .ok t ps => if ps.any (·.2) then t.postEnd d.id ⟨0x30, 1, 0⟩ else t.copyTo d (ps.flatMap (·.1)) []
    | .fail f => s.postEnd d.id f.ending

/-- At tick step 4 the control firmware takes up the descriptors that were ready before the tick (R323): RUNs become items, UNLOADs
wait for the step, COPYs are carried out. -/
def State.takeReady (s : State) : State :=
  (s.work.descs.filter fun d => d.phase == .ready && d.post.isNone && before d.readyAt s.tb).foldl (fun (a : State) (d : Desc) =>
    if d.type = 1 then a.submitRun d.id
    else if d.type = 3 then a.submitUnload d
    else if d.type = 4 then (a.onDesc d.id fun x => { x with phase := .working }).carryCopy d
    else a) s

/-! ### Tick step 8 -/

/-- The counts of host-queue streams reach the host, and first outputs become visible (R321c, R392). -/
def State.showProgress (s : State) : State :=
  s.work.descs.foldl (fun (a : State) (d : Desc) =>
    if d.phase = .gone then a
    else
      let b := d.progDue.foldl (fun (x : State) (e : Nat × Nat) =>
        if e.2 = 0xFF then x else x.emit (.hostWrite (d.arg e.2).1 (leBytes 8 (mapGet 0 d.prog e.1)))) a
      b.onDesc d.id fun x => { x with progDue := [] }) s

/-- The first output of an item (R392 to R394): its TTFT is measured, its deadline tested. -/
def State.firstOutput (s : State) (d : Desc) : State :=
  let c := d.cls % 4
  let ns := (s.tb - d.tdb).toNat
  let f := R.sched_TTFT_MEAS.up (4 * c)
  let s1 := (s.onDesc d.id fun x => { x with firstOut := some s.tb }).setFld pgSched f (max (s.fld pgSched f) (usOf ns))
  let late := s.deadlineNs d != 0 && decide (s.deadlineNs d < ns)
  if late then s1.bump pgSched (R.sched_TTFT_MISS_I.up (4 * c)) (1 + c) 1 else s1
def State.outputs (s : State) : State :=
  (s.work.descs.filter fun d => d.phase != .gone && d.isActive && d.firstOut.isNone && d.prog.any fun e => e.1 % 2 == 1).foldl
    (fun (a : State) d => a.firstOutput d) s

/-- The group of an item has a DIR 1 host-queue stream. -/
def State.hasOutput (s : State) (d : Desc) : Bool := (s.groupSects d).any fun t => t.streams.any fun r => r.kind == 3 && r.dir == 1

/-- A served item has completed (R393, R412): its frames to the first output and its largest energy enter the profile. -/
def State.profileItem (s : State) (d : Desc) : State :=
  let f1 := match d.firstOut with
    | some t => if s.periodNs = 0 then 0 else (t - s.tickAt d.firstFrame).toNat / s.periodNs
    | none => s.frameNo - d.firstFrame
  s.touchProfile d.sid (d.cls % 4) fun p => { p with
    f1s := (f1 :: p.f1s).take 16
    es := ((d.eMax, d.eVid) :: p.es).take 16 }

/-- Write one CQ entry (R322a, R324). -/
def State.writeEntry (s : State) (d : Desc) (p : Post) : State :=
  let t := d.tenant
  let pg := pgTenant t
  if !p.final && decide (s.cqSize t ≤ s.cqTaken t) then
    (s.bump pg R.tenant_CQ_SKIP 0 1).onDesc d.id fun x => { x with
      skipped := true
      post := none }
  else
    let tail := s.fld pg R.tenant_CQ_TAIL % 2 ^ 13
    let phase := bitOf (s.fld pg R.tenant_CQ_TAIL) 31
    let e := leBytes 4 d.cmdId ++ leBytes 1 p.code ++ leBytes 1 p.reason ++ leBytes 2 (b2n phase + b2n p.final * 2 + b2n d.skipped * 4)
      ++ leBytes 8 (s.frameNo - 1) ++ leBytes 8 p.detail ++ leBytes 2 d.sqHead ++ leBytes 2 t ++ leBytes 4 d.frames
    let next_ := (tail + 1) % s.cqSize t
    let s1 := (s.emit (.hostWrite (s.fld64 pg R.tenant_CQ_BASE + 32 * tail) e)).setFld pg R.tenant_CQ_TAIL
      (next_ + b2n (if next_ = 0 then !phase else phase) * 2 ^ 31)
    let s2 := s1.onTenant t fun x => { x with
      occ := x.occ + 1
      unsig := x.unsig + 1
      unsigAge := if x.unsig = 0 then 0 else x.unsigAge
      finalI := x.finalI || (p.final && d.isRun && d.cls % 4 == 0) }
    if !p.final then s2.onDesc d.id fun x => { x with
      skipped := false
      post := none }
    else
      let s3 := if d.isRun && d.isActive then
          let a := if d.firstOut.isNone && !s2.hasOutput d then s2.firstOutput d else s2
          (if p.code = 0 then a.profileItem ((a.desc d.id).getD d) else a).evictKv d true
        else s2
      { s3 with work := { s3.work with descs := s3.work.descs.filter fun x => x.id != d.id } }

/-- The FENCE of a tenant completes once no earlier descriptor of the tenant is in flight (Table 10.8). -/
def State.fenceDone (s : State) (d : Desc) : Bool :=
  d.type == 5 && d.post.isNone && before d.readyAt s.tb
    && !(s.work.descs.any fun x => x.tenant == d.tenant && decide (x.id < d.id) && x.phase != .gone)

/-- The entries of the tick (R322c, R654), but for outcomes that arose at or after the tick instant. -/
def State.writeEntries (s : State) (late : List Nat) : State :=
  (s.work.descs.map (·.id)).foldl (fun (a : State) (id : Nat) =>
    match a.desc id with
    | none => a
    | some d =>
      if d.phase = .gone ∨ late.contains id then a
      else
        let p := if a.fenceDone d then some ⟨0, 0, 0, true, a.tb⟩ else d.post
        match p with
        | none => a
        | some q =>
          let a1 := a.writeEntry d q
          let note := fun (x : State) (k : Nat) => if (x.tenant d.tenant).notices.contains k then x else x.notice d.tenant k
          if 0x30 ≤ q.code then note a1 2 else if 0x20 ≤ q.code then note a1 1 else a1) s

/-- A move of a tenant to another function (R328). -/
def State.moveTenant (s : State) (t : Nat) : State :=
  let pg := pgTenant t
  let want := (s.reg (pg * 0x1000 + 0x90)).toNat
  let eff := s.fld pg R.tenant_FN_EFF
  if want = eff ∨ s.qEnabled t ∨ s.tenantInf t ≠ 0 then s
  else
    let s1 := s.setFld pg R.tenant_FN_EFF want
    if want % 256 = eff % 256 then s1
    else
      let old := (eff % 256 + 1) * 2048 + 2 * t
      (({ s1 with bus := { s1.bus with pba := s1.bus.pba.filter fun k => k != old && k != old + 1 } }).notice t 5).bump pgMsix R.msix_MOVES 2 1

/-- Write the notices of a tenant to its ring (R327), and send their message. -/
def State.writeNotices (s : State) (t : Nat) : State :=
  let pg := pgTenant t
  let x := s.tenant t
  let s1 := x.notices.foldl (fun (a : State) (code : Nat) =>
    let head := a.fld pg R.tenant_NOTICE_HEAD
    if (head + 32 - a.fld pg R.tenant_NOTICE_ACK) % 32 = 16 then a.bump pg R.tenant_NOTICE_LOST 1 1
    else
      let b := pg * 0x1000 + 0x100 + 0x10 * (head % 16)
      let n := a.frameNo - 1
      ((((a.setReg b (BitVec.ofNat 32 code)).setReg (b + 4) 0).setReg (b + 8) (BitVec.ofNat 32 n)).setReg (b + 12) (BitVec.ofNat 32 (n / 2 ^ 32))).setFld pg
        R.tenant_NOTICE_HEAD ((head + 1) % 32)) s
  let s2 := s1.onTenant t fun y => { y with notices := [] }
  if s1.fld pg R.tenant_NOTICE_HEAD = s.fld pg R.tenant_NOTICE_HEAD then s2 else s2.sendMsix (s2.tenantFn t) (2 * t + 1)

/-- Interrupt moderation (R326). -/
def State.moderate (s : State) (t : Nat) : State :=
  let x := s.tenant t
  if x.unsig = 0 then s
  else if s.fld (pgTenant t) R.tenant_IRQ_MOD_COUNT ≤ x.unsig ∨ s.fld (pgTenant t) R.tenant_IRQ_MOD_FRAMES ≤ x.unsigAge ∨ x.finalI then
    (s.sendMsix (s.tenantFn t) (2 * t)).onTenant t fun y => { y with
      unsig := 0
      unsigAge := 0
      finalI := false }
  else s.onTenant t fun y => { y with finalI := false }

/-- TOP.STS.DEGRADED. -/
def State.degraded (s : State) : Bool := s.fld pgTop R.top_DEG_CAUSE != 0

/-- The vectors held for step 8 (R608): one message each. -/
def State.sendHeld (s : State) : State :=
  s.bus.due.reverse.foldl (fun (a : State) v => a.sendMsix 0 v) { s with bus := { s.bus with due := [] } }

/-- Tick step 8. -/
def State.step8 (s : State) (late : List Nat) : State :=
  let ts := s.tenantsTouched
  let s0 := (List.range 4).foldl (fun (a : State) c => a.setFld pgSched (R.sched_TTFT_MEAS.up (4 * c)) 0) s
  let s1 := ts.foldl (fun (a : State) t => if (a.tenant t).unsig = 0 then a else a.onTenant t fun x => { x with unsigAge := x.unsigAge + 1 }) s0
  let s2 := s1.showProgress.outputs.writeEntries late
  let deg := s2.degraded
  let s3 := if deg = s2.sys.degWas then s2 else
    ts.foldl (fun (a : State) t => if a.fld (pgTenant t) R.tenant_STATE = 0 then a else a.notice t 6) { s2 with sys := { s2.sys with degWas := deg } }
  let s4 := { s3 with work := { s3.work with descs := s3.work.descs.filter fun d => d.phase != DescPhase.gone } }
  ts.foldl (fun (a : State) t => ((a.moveTenant t).moderate t).writeNotices t) s4.sendHeld

/-- The tenant states of tick step 9 (R375). -/
def State.tenantStates (s : State) : State :=
  s.tenantsTouched.foldl (fun (a : State) t =>
    let st := a.fld (pgTenant t) R.tenant_STATE
    if (a.tenant t).createPend then (a.setFld (pgTenant t) R.tenant_STATE 1).onTenant t fun x => { x with createPend := false }
    else if st = 2 ∧ !a.qEnabled t ∧ a.tenantInf t = 0 then
      let b := a.setFld (pgTenant t) R.tenant_STATE 0
      { b with acct := { b.acct with destroyed := if b.acct.destroyed.contains t then b.acct.destroyed else t :: b.acct.destroyed } }
    else a) s

end Sys2Proof.Machine
end

