-- ==== Sys2Proof/Machine/Energy.lean ====
section
/-! DEFINITION. Power, thermal limits and energy accounting (R403 to R437, R591, R633): measurement, attribution, tariffs and demand
intervals, accounting records, ceilings and the DVFS point, the emergency throttle, THERMTRIP_N and the power cut. -/
namespace Sys2Proof.Machine

/-! ### Calibrated readings (R573) -/

def State.calE (s : State) (qty i : Nat) : Int := (mapGet CalEntry.zero s.cal (qty * 512 + i)).e
def State.calF (s : State) (qty i : Nat) : Int := (mapGet CalEntry.zero s.cal (qty * 512 + i)).f
/-- A sensor's effective reading in 1/256 °C; the trip logic corrects by F alone (R576). -/
def State.senseE (s : State) (i : Nat) (raw : Int) : Int := raw + 32 * s.calE 4 i
def State.senseF (s : State) (i : Nat) (raw : Int) : Int := raw + 32 * s.calF 4 i
/-- Tj: the highest effective reading. -/
def State.tjOf (s : State) : Nat → List Int → Option Int
  | _, [] => none
  | i, x :: xs => some (match s.tjOf (i + 1) xs with | none => s.senseE i x | some m => max (s.senseE i x) m)

/-! ### Measurement (R417) -/

/-- Energy of a 1 µs sample of rail `k`, in pJ, from its raw reading in mW. -/
def State.railPj (s : State) (k mw : Nat) : Nat := ((mw : Int) * 1000 * (1000000 + s.calE 8 k) / 1000000 + 1000 * s.calE 9 k).toNat

/-- The eight rails are measured: their accumulators, the frame's energy and the last ten samples (R414, R417). -/
def State.railsMeasured (s0 : State) (mw : List Nat) : State :=
  let es := (List.range 8).map fun k => s0.railPj k (mw.getD k 0)
  let total := es.foldl (· + ·) 0
  let s1 := (List.range 8).foldl (fun (a : State) k =>
    let x := mapGet 0 a.meter.railPj k + es.getD k 0
    ({ a with meter := { a.meter with railPj := mapSet 0 a.meter.railPj k (x % 1000000) } }).accumulate pgPower (R.power_RAIL_E0.up (8 * k)) k
      (x / 1000000)) s0
  { s1 with meter := { s1.meter with
    framePj := s1.meter.framePj + total
    samples := (total :: s1.meter.samples).take 10 } }
/-- RAIL_SAMPLE (R417): the raw readings of the rails in mW. -/
def execRailSample (mw : List Nat) (at_ : Dword) (s : State) : Host.Outcome State Fault Refusal := .next ((s.advance at_).railsMeasured mw)

/-! ### Wall time and tariffs (R423 to R426) -/

def State.wall (s : State) (t : Dword) : Nat := (t + s.acct.wallOfs).toNat
def State.wallValid (s : State) : Bool := s.flag pgEnergy R.energy_WALL_VALID
def nsPerMin : Nat := 60000000000
def nsPerDay : Nat := 86400000000000
def weekday (day : Nat) : Nat := (day + 3) % 7

/-- The latest entry of a day at or before a minute. -/
def tariffOn (m : SMap (Nat × Nat × Nat)) (wd minute : Nat) : Option Nat :=
  (m.foldl (fun (b : Option (Nat × Nat)) e =>
    let (st, days, _) := e.2
    if bitOf days 7 && bitOf days wd && decide (st ≤ minute) then
      match b with
      | none => some (st, e.1)
      | some (q, i) => if q < st then some (st, e.1) else some (q, i)
    else b) none).map (·.2)
/-- The entry in force, searching back from a day up to `n` more. -/
def tariffBack (m : SMap (Nat × Nat × Nat)) (day minute : Nat) : Nat → Option Nat
  | 0 => tariffOn m (weekday day) minute
  | n + 1 => match tariffOn m (weekday day) minute with
    | some i => some i
    | none => tariffBack m (day + 6) 1439 n
/-- The index in force at a wall time; 0xFF none. -/
def State.tariffAt (s : State) (w : Nat) : Nat :=
  if s.wallValid then (tariffBack s.acct.tariff (w / nsPerDay) (w / nsPerMin % 1440) 7).getD 0xFF else 0xFF
def State.priceOf (s : State) (i : Nat) : Nat := if i = 0xFF then 0 else (mapGet (0, 0, 0) s.acct.tariff i).2.2

/-- The entries as written. -/
def State.tariffSet (s : State) : SMap (Nat × Nat × Nat) :=
  (List.range 16).foldl (fun (m : SMap (Nat × Nat × Nat)) i => mapSet (0, 0, 0) m i (s.fld pgEnergy (R.energy_TARIFF0_0_START_MIN.up (16 * i)),
    s.fld pgEnergy (R.energy_TARIFF0_0_DAYS.up (16 * i)), s.fld pgEnergy (R.energy_TARIFF0_1.up (16 * i)))) []
/-- Two VALID entries share START_MIN on a common day (R426). -/
def tariffClash (m : SMap (Nat × Nat × Nat)) : Bool :=
  m.any fun a => m.any fun b => a.1 != b.1 && bitOf a.2.2.1 7 && bitOf b.2.2.1 7 && a.2.1 == b.2.1 && (a.2.2.1 &&& b.2.2.1) % 128 != 0
/-- A pending set applies at this instant. -/
def State.tariffDueAt (s : State) : Bool :=
  let t := s.fld64 pgEnergy R.energy_TARIFF_CTL_AT
  s.acct.tariffDue && (t == 0 || !before s.tb (BitVec.ofNat 64 t))
def State.applyTariff (s : State) : State :=
  let m := s.tariffSet
  let s1 := { s with acct := { s.acct with tariffDue := false } }
  if tariffClash m then s1.event pgEnergy 0 else { s1 with acct := { s1.acct with tariff := m } }

/-! ### Accounting records (R431, R432, Tables 13.7 and 13.8) -/

def openReg (k : Nat) : Fld := R.energy_OPEN.up (8 * k)
def acctReg (k : Nat) : Fld := R.tenant_ACCT.up (8 * k)
/-- Add to an accumulator of an owner; a saturated one is remembered (FLAGS SAT). -/
def State.acctAdd (s : State) (owner pg : Nat) (f : Fld) (bit n : Nat) : State :=
  let s1 := s.accumulate pg f bit n
  if s1.fld64 pg f = 2 ^ 64 - 1 ∧ !s1.acct.sat.contains owner then { s1 with acct := { s1.acct with sat := owner :: s1.acct.sat } } else s1

/-- Tenants with an entry in the open interval. -/
def State.acctTenants (s : State) : List Nat :=
  s.tenantsTouched.filter fun t => s.fld64 (pgTenant t) (acctReg 0) != 0 || s.fld64 (pgTenant t) (acctReg 2) != 0
def State.acctEntry (s : State) (t : Nat) : List Byte :=
  leBytes 2 t ++ leBytes 2 (b2n (s.acct.sat.contains t) + 2 * b2n (s.acct.destroyed.contains t)) ++ leBytes 4 0
    ++ (List.range 4).flatMap fun k => leBytes 8 (s.fld64 (pgTenant t) (acctReg ([0, 1, 2, 3].getD k 0)))
/-- DEMAND_W. -/
def demandW (uj : Nat) (a b : Dword) : Nat := let us := (b - a).toNat / 1000; if us = 0 then 0 else min (2 ^ 32 - 1) (uj / us)
/-- The header of a record of the open interval. -/
def State.acctHeader (s : State) (v : Interval) (type nEnt tariff : Nat) (tEnd : Dword) : List Byte :=
  let e := fun k => s.fld64 pgEnergy (openReg k)
  leBytes 4 0x4143_5A4B ++ leBytes 1 type ++ leBytes 1 (v.flags ||| (b2n (!s.acct.sat.isEmpty) * 16)) ++ leBytes 2 nEnt
    ++ leBytes 4 s.acct.nextSeq ++ leBytes 1 tariff ++ leBytes 3 0 ++ leBytes 8 v.tNom ++ leBytes 8 v.tStart.toNat ++ leBytes 8 tEnd.toNat
    ++ leBytes 8 (e 0) ++ leBytes 8 0 ++ leBytes 8 (e 1) ++ leBytes 8 (e 2) ++ leBytes 8 (e 3) ++ leBytes 8 (e 4)
    ++ leBytes 4 (demandW (e 0) v.tStart tEnd) ++ List.replicate 36 0
/-- A record with its CRC, padded. -/
def acctSeal (b : List Byte) : List Byte :=
  let c := b ++ leBytes 4 (crc32 b)
  c ++ List.replicate ((16 - c.length % 16) % 16) 0
/-- Append a record of the open interval to the accounting log. -/
def State.acctRecord (s : State) (v : Interval) (type tariff : Nat) : State :=
  let ts := s.acctTenants
  let b := acctSeal (s.acctHeader v type ts.length tariff s.tb ++ ts.flatMap s.acctEntry)
  let seq := s.acct.nextSeq
  let s1 := { s with acct := { s.acct with
    nextSeq := seq + 1
    unsaved := if type = 2 then s.acct.unsaved else some b } }
  s1.appendRecord ⟨6, b, if type = 2 then .nothing else .acct, if type = 2 then 0 else seq + 1⟩

/-- CPMT_UU: cost per million tokens, rounded to nearest. -/
def cpmt (cost tokens : Nat) : Nat := if tokens = 0 then 0 else (2 * cost + 3600000 * tokens) / (2 * 3600000 * tokens)
/-- ENERGY.LAST shows a record's header. -/
def State.showLast (s : State) (b : List Byte) (cost tokens : Nat) : State :=
  ((List.range 32).foldl (fun (a : State) k => a.setReg (pgEnergy * 0x1000 + 0x280 + 4 * k) (wordOf ((b.drop (4 * k)).take 4))) s).setFld64 pgEnergy
    R.energy_LAST_CPMT_UU (min (2 ^ 64 - 1) (cpmt cost tokens))

/-- The totals and accounts of the open interval restart, and with them the quota counts (R382, R432). -/
def State.acctRestart (s : State) : State :=
  let ovf := fun (a : State) (pg lo n : Nat) => (List.range n).foldl (fun (b : State) k => b.setRegBit (pg * 0x1000 + 0x40) (lo + k) false) a
  let s1 := (List.range 5).foldl (fun (a : State) k => a.setFld64 pgEnergy (openReg k) 0) (ovf s pgEnergy 0 5)
  let s2 := s.tenantsTouched.foldl (fun (a : State) t =>
    ((List.range 4).foldl (fun (b : State) k => b.setFld64 (pgTenant t) (acctReg k) 0) (ovf a (pgTenant t) 2 4)).onTenant t fun x => { x with
      uj := 0
      tok := 0
      warned := 0 }) s1
  { s2 with acct := { s2.acct with
    destroyed := []
    sat := [] } }

/-- Close the open interval with a CLOSED record, with further flags. -/
def State.closeInterval (s : State) (flags tariff : Nat) : State :=
  match s.acct.open_ with
  | none => s
  | some v =>
    let v1 := { v with flags := v.flags ||| flags }
    let b := s.acctHeader v1 1 (s.acctTenants.length) tariff s.tb
    let s1 := (s.acctRecord v1 1 tariff).showLast b (s.fld64 pgEnergy (openReg 2)) (s.fld64 pgEnergy (openReg 3))
    let s2 := s1.acctRestart
    { s2 with acct := { s2.acct with open_ := none } }

/-- Open the interval that holds the present wall time (R427, R430, R436); without wall time, the NO_WALL record. A new length takes
effect at local midnight. -/
def State.openInterval (s : State) : State :=
  let w := s.wall s.tb
  if !s.wallValid then { s with acct := { s.acct with open_ := some ⟨w, 0, s.tb, 8⟩ } }
  else
    let midnight := w / nsPerDay * nsPerDay
    let s1 := if s.acct.lastMin / 1440 ≠ w / nsPerDay ∧ !s.acct.first then s.setFld pgEnergy R.energy_INTERVAL_EFF (s.fld pgEnergy R.energy_INTERVAL) else s
    let len := s1.fld pgEnergy R.energy_INTERVAL_EFF * nsPerMin
    let start := midnight + (w - midnight) / len * len
    { s1 with acct := { s1.acct with
      open_ := some ⟨start, start + len, s.tb, if s.acct.first && decide (start < w) then 2 else 0⟩
      first := false
      lastMin := w / nsPerMin } }

/-- A demand interval ends at or before this instant. -/
def State.intervalEnds (s : State) : Bool :=
  match s.acct.open_ with
  | none => false
  | some v => v.tEnd != 0 && decide (v.tEnd ≤ s.wall s.tb)
/-- A checkpoint is due: a whole multiple of CKPT_MIN minutes has been reached (R431); CKPT_MIN at or above the interval's length gives
none (Table 13.9). -/
def State.ckptDue (s : State) : Bool :=
  let c := max 1 (s.fld pgEnergy R.energy_CKPT_MIN)
  let len := match s.acct.open_ with | some v => (v.tEnd - v.tNom) / nsPerMin | none => 0
  s.wallValid && decide (c < len) && decide (s.acct.lastMin / c < s.wall s.tb / nsPerMin / c)

/-- Process the boundaries reached at this instant (R426 to R431): WALL writes, interval ends, tariff changes, checkpoints. -/
def State.boundaries (s : State) : State :=
  let idx0 := s.fld pgEnergy R.energy_TARIFF_INDEX
  let s1 := match s.acct.wallDue with
    | none => if s.intervalEnds then s.closeInterval 0 idx0 else s
    | some ofs =>
      let a := s.closeInterval (if s.wallValid then 32 else 0) idx0
      ({ a with acct := { a.acct with
        wallOfs := ofs
        wallDue := none } }).setFld pgEnergy R.energy_WALL_VALID 1
  let s2 := if s1.tariffDueAt then s1.applyTariff else s1
  let idx := s2.tariffAt (s2.wall s2.tb)
  let s3 := (s2.setFld pgEnergy R.energy_TARIFF_INDEX idx)
  let s4 := match s3.acct.open_ with
    | none => s3.openInterval
    | some v =>
      let v1 := if idx ≠ idx0 ∨ s3.priceOf idx ≠ s.priceOf idx0 then { v with flags := v.flags ||| 4 } else v
      let a := { s3 with acct := { s3.acct with open_ := some v1 } }
      if a.ckptDue then a.acctRecord v1 2 idx else a
  { s4 with acct := { s4.acct with
    price := s4.priceOf idx
    lastMin := s4.wall s4.tb / nsPerMin } }

/-! ### Attribution (R418 to R422) -/

/-- Weighted activity of an owner, in fJ. -/
def State.weighted (s : State) (a : Activity) : Nat :=
  s.fld pgEnergy R.energy_W0 * a.fc + s.fld pgEnergy R.energy_W1 * a.units + s.fld pgEnergy R.energy_W2 * (a.flits + a.ethBytes / 256)
/-- Module energy estimate of an owner, in µJ (R420). -/
def State.modUj (s : State) (a : Activity) : Nat :=
  (a.bursts * s.fld pgEnergy R.energy_K_BURST_NJ + a.units * s.fld pgEnergy R.energy_K_UNIT_NJ) / 1000

/-- Notices of a tenant's energy and token quotas (R382). -/
def State.quotaNotices (s : State) (t : Nat) : State :=
  let pct := bitsOf (s.fld (pgTenant t) R.tenant_QUOTA_EFF1) 30 24
  let x := s.tenant t
  let q := s.fld (pgTenant t) R.tenant_QUOTA_EFF2 * 1000000000
  let k := s.fld (pgTenant t) R.tenant_QUOTA_EFF3
  let hit := [q != 0 && decide (q * pct ≤ x.uj * 100), q != 0 && decide (q ≤ x.uj), k != 0 && decide (k * pct ≤ x.tok * 100), k != 0 && decide (k ≤ x.tok)]
  (List.range 4).foldl (fun (a : State) i =>
    if hit.getD i false && !bitOf (a.tenant t).warned i then
      (a.onTenant t fun y => { y with warned := y.warned ||| 2 ^ i }).notice t 3
    else a) s

/-- Attribute `ej` µJ over `us` µs to the owners by their activity (R419, R420, R429). -/
def State.attribute (s : State) (ej us : Nat) : State :=
  let fix := min ej (s.fld pgEnergy R.energy_FIXED_W * us)
  let all := s.meter.act.foldl (fun a e => a + s.weighted e.2) 0
  let share := fun (a : Activity) => if all = 0 then 0 else (ej - fix) * s.weighted a / all
  let p := s.acct.price
  let s1 := s.meter.act.foldl (fun (a : State) (e : Nat × Activity) =>
    if 1024 ≤ e.1 then a
    else
      let pg := pgTenant e.1
      let u := share e.2
      let b := ((a.acctAdd e.1 pg (acctReg 0) 2 u).acctAdd e.1 pg (acctReg 1) 3 (s.modUj e.2)).acctAdd e.1 pg (acctReg 3) 5 (u * p)
      b.onTenant e.1 fun x => { x with uj := x.uj + u }) s
  let tenants := s.meter.act.foldl (fun n e => if e.1 < 1024 then n + share e.2 else n) 0
  let mods := s.meter.act.foldl (fun n e => n + s.modUj e.2) 0
  let s2 := (((s1.acctAdd 1024 pgEnergy (openReg 0) 0 ej).acctAdd 1024 pgEnergy (openReg 1) 1 (ej - tenants)).acctAdd 1024 pgEnergy (openReg 2) 2
    (ej * p)).acctAdd 1024 pgEnergy (openReg 4) 4 mods
  let v := s.vid
  let s3 := { s2 with work := { s2.work with descs := s2.work.descs.map fun (d : Desc) =>
    let u := share (mapGet Activity.zero s.meter.items d.id)
    if d.eMax < u then { d with
      eMax := u
      eVid := v }
    else d } }
  { s3 with meter := { s3.meter with
    act := []
    items := []
    lastUj := ej
    lastUs := us } }

/-- Tokens of the frame (R421): per tenant, per class, and in all. -/
def State.countTokens (s : State) : State :=
  let clear := (List.range 4).foldl (fun (a : State) c => a.setFld pgSched (R.sched_TOKENS.up (4 * c)) 0) s
  s.work.descs.foldl (fun (a : State) (d : Desc) =>
    let tb := a.inForce (pgTenant d.tenant) R.tenant_ACCT_CFG
    let n := d.prog.foldl (fun n e => if e.1 % 2 = 1 ∧ tb ≠ 0 then n + (e.2 / tb - mapGet 0 d.counted e.1 / tb) else n) 0
    let b := a.onDesc d.id fun x => { x with counted := x.prog }
    if n = 0 then b
    else
      let f := R.sched_TOKENS.up (4 * (d.cls % 4))
      let c := ((b.acctAdd d.tenant (pgTenant d.tenant) (acctReg 2) 4 n).acctAdd 1024 pgEnergy (openReg 3) 3 n).setFld pgSched f
        (min (2 ^ 32 - 1) (b.fld pgSched f + n))
      c.onTenant d.tenant fun x => { x with tok := x.tok + n }) clear

/-- The energy measured since the last attribution, in µJ; fractions are kept for the next. -/
def State.takeEnergy (s : State) : Nat × State :=
  (s.meter.framePj / 1000000, { s with meter := { s.meter with framePj := s.meter.framePj % 1000000 } })

/-- Tick step 1: the ending frame of `us` µs is attributed, then boundaries are processed. -/
def State.step1 (s : State) (us : Nat) : State :=
  let (ej, s1) := s.takeEnergy
  let s2 := (s1.attribute ej us).countTokens
  let s3 := s.tenantsTouched.foldl (fun (a : State) t => a.quotaNotices t) s2
  s3.boundaries

/-- A boundary of the accounting has been reached (R424, R426, R430). -/
def State.boundaryDue (s : State) : Bool :=
  s.intervalEnds || s.tariffDueAt || s.ckptDue || s.acct.wallDue.isSome || s.tariffAt (s.wall s.tb) != s.fld pgEnergy R.energy_TARIFF_INDEX
/-- The energy measured goes to the device account, and the boundaries are processed. -/
def State.boundaryAsleep (s : State) : State :=
  let (ej, s1) := s.takeEnergy
  ({ s1 with meter := { s1.meter with act := [] } }.attribute ej 0).boundaries
/-- ACCT_BOUNDARY_IN_SLEEP (R591): a boundary reached in SLEEP; all energy goes to the device account. -/
def execAcctBoundaryInSleep (at_ : Dword) (s : State) : Host.Outcome State Fault Refusal :=
  let s0 := s.advance at_
  if s0.sys.lpPhase ≠ .asleep ∨ s0.sys.lpTarget ≠ 3 then s.passOver "the device is not in SLEEP"
  else if s0.boundaryDue then .next s0.boundaryAsleep
  else s.passOver "no accounting boundary has been reached"

/-- WALL_OFS_WRITE (R423, R430): OFS_NS is written; it takes effect at the next tick. -/
def State.writeWall (s : State) (val : Dword) : State :=
  let s1 := s.setFld64 pgEnergy R.energy_WALL_OFS_NS val.toNat
  { s1 with acct := { s1.acct with wallDue := some val } }
def execWallOfsWrite (rq : Req) (val : Dword) (s : State) : Host.Outcome State Fault Refusal :=
  .next (s.busWrite rq (pgEnergy * 0x1000 + 0x6C) (BitVec.ofNat 32 (val.toNat / 2 ^ 32)) fun t => (t.writeWall val, resDone))

/-! ### Ceilings and the DVFS point (R404 to R415) -/

/-- The fabric clock changes: budgets of runs in progress count fc, runs not started keep their start fc. -/
def State.setClock (s : State) (mhz : Nat) : State :=
  let old := s.curMhz
  let s1 := { s with work := { s.work with runs := s.work.runs.map fun (r : Run) =>
    if r.phase = RunPhase.scheduled then
      (if before s.tb r.startTb then { r with startTb := s.tb + BitVec.ofNat 64 (((r.startTb - s.tb).toNat * old + mhz - 1) / max mhz 1) } else r)
    else if r.going then { r with
      fcBefore := s.runUsed r
      startTb := s.tb }
    else r } }
  s1.setFld pgPower R.power_DVFS2 mhz

/-- The clock steps to 800 MHz, from where the ceilings are set at the next tick (R414). -/
def State.throttled (s : State) : State :=
  let p := s.curMhz
  let s1 := s.setClock 800
  ({ s1 with meter := { s1.meter with emerg := some p } }.bump pgTherm R.therm_EMERG_CNT 0 1).event pgTherm 0
/-- Tj is 102 °C or more. -/
def State.tooHot (s : State) (sensors : List Int) : Bool := match s.tjOf 0 sensors with | some t => decide (102 * 256 ≤ t) | none => false
/-- The package power over 10 µs exceeds 1.1 × PKG_W. -/
def State.tooMuch (s : State) : Bool :=
  s.meter.samples.length == 10 && decide (11 * s.fld pgPower R.power_PKG_W * 10 * 1000000 < 10 * s.meter.samples.foldl (· + ·) 0)
/-- EMERG_THROTTLE (R414): Tj reaches 102 °C, or the package power over 10 µs exceeds 1.1 × PKG_W; `sensors` are raw readings in
1/256 °C. -/
def execEmergThrottle (sensors : List Int) (at_ : Dword) (s : State) : Host.Outcome State Fault Refusal :=
  let s0 := s.advance at_
  if (s0.tooHot sensors || s0.tooMuch) && s0.meter.emerg.isNone then .next s0.throttled
  else s.passOver "neither condition of the emergency throttle holds"

def State.minMhz (s : State) : Nat := s.fld pgPower R.power_DVFS1_MIN_MHZ
def State.maxMhz (s : State) : Nat := s.fld pgPower R.power_DVFS1_MAX_MHZ
/-- A ceiling stays within MIN and MAX (R407). -/
def State.bound (s : State) (c : Nat) : Nat := max s.minMhz (min s.maxMhz c)
/-- The point R408 calls for. -/
def State.pointOf (s : State) : Nat :=
  let c := min s.meter.powCeil s.meter.thermCeil
  if s.fld pgPower R.power_DVFS0_MODE = 0 then c else min c (s.fld pgPower R.power_DVFS0_FIX_MHZ)

/-- The sensors' effective readings and Tj are reported (Table 20.11). -/
def State.showSensors (s : State) (sensors : List Int) : State :=
  let s1 := (sensors.take 64).zipIdx.foldl (fun (a : State) (e : Int × Nat) =>
    a.setFld pgTherm (R.therm_SENSE.up (4 * e.2)) (wrapInt 16 (a.senseE e.2 e.1))) s
  match s.tjOf 0 sensors with
  | some t => s1.setFld pgTherm R.therm_TJ (wrapInt 16 t)
  | none => s1

/-- Tick step 5 (R404 to R415): the cap, the ceilings, the point, the allowance, spacing of press commands. -/
def State.step5 (s : State) (sensors : List Int) : State :=
  let pkg := s.fld pgPower R.power_PKG_W
  let w := s.fld pgPower R.power_CAP0_W
  let cap := min w pkg
  let s0 := (s.setFld pgPower R.power_CAP_EFF (cap + b2n (pkg < w) * 2 ^ 31)).showSensors sensors
  let uj := s0.meter.lastUj
  let us := s0.meter.lastUs
  let above := us != 0 && decide (cap * us < uj)
  let under := us != 0 && decide (uj + s0.fld pgPower R.power_CAP0_HYST_W * us < cap * us)
  let thr := s0.fld pgTherm R.therm_THROTTLE_C * 256
  let hot := match s0.tjOf 0 sensors with | some t => decide ((thr : Int) ≤ t) | none => false
  let cool := match s0.tjOf 0 sensors with | some t => decide (t ≤ (thr : Int) - 768) | none => false
  let m := s0.meter
  let pc := match m.emerg with
    | some p => s0.bound (p - 200)
    | none => s0.bound (if above then m.powCeil - 50 else if under then m.powCeil + 50 else m.powCeil)
  let tc := match m.emerg with
    | some p => s0.bound (p - 200)
    | none => s0.bound (if hot then m.thermCeil - 50 else if cool then m.thermCeil + 50 else m.thermCeil)
  let s1 := { s0 with meter := { m with
    powCeil := pc
    thermCeil := tc
    emerg := none } }
  let target := s1.pointOf
  let cur := s1.curMhz
  let new_ := if m.emerg.isSome then target else if cur < target then min target (cur + 50) else target
  let held := s0.vid
  let s2 := (s1.calApply 11 ((new_ - 800) / 50)).setFld pgPower R.power_DVFS2 new_
  let s3 := if s2.vid = held then s2 else s2.emit (.pin pinVid s2.vid (if held < s2.vid then s2.tb - BitVec.ofNat 64 s2.guardNs else s2.tb))
  let s4 := s3.setRegBit (pgPower * 0x1000 + 0xC) 8 (pc == s3.minMhz && above)
  s4.setFld pgSched R.sched_EBUDGET_EFF (min (2 ^ 32 - 1) ((cap - s4.fld pgPower R.power_BASE_W) * (s4.periodNs / 1000)))

/-! ### THERMTRIP_N and the power cut (R416, R433 to R435, R633, R638) -/

/-- TRIP_LOG and TRIP_TB are written and THERMTRIP_N goes low (R416). -/
def State.tripBy (s : State) (i : Nat) : State :=
  let s1 := ((s.setFld pgTherm R.therm_TRIP_LOG (i + 2 ^ 31)).setFld64 pgTherm R.therm_TRIP_TB s.tb.toNat).emit (.pin pinThermtrip 0 s.tb)
  { s1 with sys := { s1.sys with tripped := true } }
/-- THERMTRIP (R416, R576): sensor `i` reads 112 °C, corrected by its factory value alone. -/
def execThermtrip (i : Nat) (raw : Int) (at_ : Dword) (s : State) : Host.Outcome State Fault Refusal :=
  let s0 := s.advance at_
  if 64 ≤ i ∨ s0.senseF i raw < 112 * 256 ∨ s0.sys.tripped then s.passOver "no sensor is at 112 °C"
  else .next (s0.tripBy i)

/-- The first pre-erased last-gasp slot (R434, R510, R512). -/
def State.gaspSlot (s : State) : Option Nat :=
  [8, 9, 10, 11].find? fun sec => (match headerOf s.nv.flash sec 4 with | some (0xFE, _) => true | _ => false)
    && !s.nv.half.contains sec && !s.nv.erasing.contains sec && blankFrom s.nv.flash sec 16

/-- A summary page: a header with N_ENT 0, then its CRC. -/
def summaryPage (h : List Byte) : List Byte := let b := h.take 6 ++ [0, 0] ++ h.drop 8; b ++ leBytes 4 (crc32 b)

/-- The boundary or the open interval at T_cut (R434). -/
def State.gaspClose (s : State) (idx0 : Nat) : State :=
  if s.intervalEnds then
    let a := s.closeInterval 0 idx0
    let b := if a.tariffDueAt then a.applyTariff else a
    (b.setFld pgEnergy R.energy_TARIFF_INDEX (b.tariffAt (b.wall b.tb))).openInterval
  else
    let b := if s.tariffDueAt then s.applyTariff else s
    let idx := b.tariffAt (b.wall b.tb)
    match b.acct.open_ with
    | none => b
    | some v =>
      let v1 := if idx = idx0 then v else { v with flags := v.flags ||| 4 }
      { b with acct := { b.acct with open_ := some v1 } }.setFld pgEnergy R.energy_TARIFF_INDEX idx
/-- The summary pages of the last gasp: the record closed and not yet programmed, then the interval cut open (R434). -/
def State.gaspPages (s : State) : List (List Byte) :=
  let closed := match s.acct.unsaved with | some b => [summaryPage (b.take 128)] | none => []
  let cut := match s.acct.open_ with
    | some v => [summaryPage (s.acctHeader v 3 0 (s.fld pgEnergy R.energy_TARIFF_INDEX) s.tb)]
    | none => []
  closed ++ cut
/-- The operations of the last gasp: every waiting one is dropped, and the summary pages go into the slot it takes (R434). -/
def State.gaspStore (s : State) : State :=
  let stopped := { s with nv := { s.nv with
    ops := []
    cur := none
    susp := none } }
  match s.gaspSlot with
  | none => stopped
  | some sec =>
    let pages := s.gaspPages
    if pages.isEmpty then stopped
    else
      let a := stopped.program 0 (sec * secSize + 5) [0xFC] .nothing
      (List.range pages.length).foldl (fun (b : State) k => b.program 0 (sec * secSize + 0x100 * (k + 1)) (pages.getD k []) .nothing) a
/-- The last gasp (R434): the interval's boundary, then one page for each summary, as flash operations of the highest priority. -/
def State.lastGasp (s : State) : State :=
  let idx0 := s.fld pgEnergy R.energy_TARIFF_INDEX
  let e := s.takeEnergy
  let s1 := ((e.2.acctAdd 1024 pgEnergy (openReg 0) 0 e.1).acctAdd 1024 pgEnergy (openReg 1) 1 e.1).acctAdd 1024 pgEnergy (openReg 2) 2 (e.1 * e.2.acct.price)
  (s1.gaspClose idx0).gaspStore

/-- The operation of the flash is abandoned: bytes of a program are undefined, a sector of an erase is half-erased (R433, R509). -/
def State.abandonOp (s : State) : State :=
  match s.nv.cur with
  | none => s
  | some o =>
    if o.erase then { s with nv := { s.nv with flash := flashErase s.nv.flash (o.addr / secSize) } }
    else (o.bytes.take (256 - o.addr % 256)).zipIdx.foldl (fun (a : State) (e : Byte × Nat) =>
      let (v, b) := a.takeFree
      { b with nv := { b.nv with flash := flashProgram b.nv.flash (o.addr + e.2) [e.1 ||| v.setWidth 8] } }) s
/-- A power cut (R433): no tick runs and nothing further is posted; an operation of the flash is abandoned. -/
def State.powerCut (s : State) : State :=
  let torn := s.abandonOp
  let s1 := { torn with sys := { torn.sys with cut := some s.tb } }
  s1.lastGasp

/-- PWRFAIL_ASSERT (R433): PWRFAIL_N has been low for 2 µs at `at_`, T_cut. -/
def execPwrfailAssert (at_ : Dword) (s : State) : Host.Outcome State Fault Refusal :=
  let s0 := s.advance at_
  if s0.sys.cut.isSome then s.passOver "the power is cut already"
  else if s0.sys.lpPhase = .asleep ∧ s0.sys.lpTarget = 4 then .next { s0 with sys := { s0.sys with cut := some s0.tb } }
  else .next s0.powerCut
/-- Limits of the group 2 and 3 rails at the balls, in 0.5 mV (Tables 13.3 and 22.1); none for a rail that is not watched. -/
def State.railLimits (s : State) (k : Nat) : Option (Int × Int) :=
  match k with
  | 0 => if s.grid.on_ then some (1170 + 5 * s.vid, 1230 + 5 * s.vid) else none
  | 1 => if s.grid.on_ then some (1552, 1648) else none
  | 2 => some (1456, 1544)
  | 4 => some (2134, 2266)
  | 5 => some (1764, 1836)
  | 6 => some (2352, 2448)
  | _ => none
/-- RAIL_FAULT (R633, Table 22.2): rail `k` has read `raw` (in 0.5 mV), outside its limits, for 2 µs; treated as PWRFAIL_N low. -/
def execRailFault (k : Nat) (raw : Int) (at_ : Dword) (s : State) : Host.Outcome State Fault Refusal :=
  let s0 := s.advance at_
  let e := raw + s0.calE 5 k
  match s0.railLimits k with
  | none => s.passOver "the rail is not watched"
  | some (lo, hi) =>
    if s0.sys.cut.isSome ∨ (lo ≤ e ∧ e ≤ hi) then s.passOver "the rail is within its limits" else .next s0.powerCut

end Sys2Proof.Machine
end

