-- ==== Sys2Proof/Machine/Repair.lean ====
section
/-! DEFINITION. Repairs (R62, R100, R400, R446 to R452, R459, R461): the copy of a shift, the swap, removals, and tick step 3. -/
namespace Sys2Proof.Machine

/-! ### The copy and the swap (R449 to R451) -/

/-- The positions of a shift's moving cells, from the east: local columns 15 down to p. -/
def movingPos (q y p : Nat) : List Nat := (List.range (16 - p)).map fun i => y * 68 + 17 * q + (15 - i)

/-- A slice as it arrives one place east: corrected granules clean, uncorrectable ones with the poison syndrome (R450). -/
def EccMem.carried (m : EccMem) : EccMem :=
  { m with marks := m.marks.filterMap fun e => match e.2 with
      | .ue | .poison => some (e.1, .poison)
      | .ce | .clean => none }
/-- Reading a slice for the copy: each granule that is not clean is read as Table 4.6 states (R120, R122). -/
def State.readWhole (s : State) (pos : Nat) : State :=
  (s.cell pos).slice.marks.foldl (fun (a : State) e => (a.spReadGranule pos e.1).1) s
/-- Writing it one place east: each granule there that is not clean is overwritten as Tables 4.7 and 4.7a state (R123, R648). -/
def State.overwriteMarks (s : State) (pos : Nat) (m : EccMem) : State :=
  (s.cell pos).slice.marks.foldl (fun (a : State) e =>
    a.spWriteGranule pos (8 * e.1) (m.read (8 * e.1) 8) (m.cls e.1 == .poison)) s
/-- Copy the slice of a moving cell one place east. -/
def State.copyEast (s : State) (pos : Nat) : State :=
  let s1 := s.readWhole pos
  let m := (s1.cell pos).slice.carried
  s1.overwriteMarks (pos + 1) m |>.onSlice (pos + 1) fun _ => m

/-- The moving cells of a shift copy their slices one place east, and its swap is due (R449, R450). -/
def State.copyRow (s1 : State) (q y p : Nat) : State :=
  let s2 := (movingPos q y p).foldl (fun (a : State) pos => a.copyEast pos) s1
  { s2 with grid := { s2.grid with shifts := s2.grid.shifts.map fun t => if t.1 = q ∧ t.2.1 = y then (q, y, p, 2) else t } }
/-- REPAIR_COPY (R449, R450): the moving cells of a shift have copied their slices one place east by instant `at_` of the run phase. -/
def execRepairCopy (q y : Nat) (at_ : Dword) (s : State) : Host.Outcome State Fault Refusal :=
  let s1 := s.advance at_
  match s1.grid.shifts.find? fun t => t.1 == q && t.2.1 == y && t.2.2.2 == 1 with
  | none => s.passOver "no shift of the quadrant-row is copying"
  | some (_, _, p, _) =>
    if !s1.frameOn || before s1.tb (s1.tickAt s1.frameNo + 2000) || !before s1.tb s1.guardStart then s.passOver "the run phase is not in progress"
    else .next (s1.copyRow q y p)

/-- A parity error in a context image poisons the copied element (R450). -/
def Slot.carried (x : Slot) : Slot := if x.bad then { x with poison := true, bad := false } else x
def Ctx.carried (c : Ctx) : Ctx :=
  { c with
    tiles := c.tiles.map fun e => (e.1, e.2.carried)
    curd := c.curd.map fun l => l.map Slot.carried
    curdLate := c.curdLate.map fun l => l.map Slot.carried }

/-- Where a position lies once a shift is in force. -/
def shiftPos (q y p pos : Nat) : Nat :=
  if posPy pos = y ∧ y * 68 + 17 * q + p ≤ pos ∧ pos ≤ y * 68 + 17 * q + 15 then pos + 1 else pos

def StreamEnd.moved (f : Nat → Nat) (e : StreamEnd) : StreamEnd :=
  { e with
    peer := e.peer.map fun x => (f x.1, x.2)
    leafCredits := e.leafCredits.map fun l => (f l.1, l.2) }
def Ctx.moved (f : Nat → Nat) (c : Ctx) : Ctx := { c with streams := c.streams.map (StreamEnd.moved f) }
def Cell.moved (f : Nat → Nat) (c : Cell) : Cell := { c with ctxs := c.ctxs.map fun e => (e.1, e.2.moved f) }
def SeEnd.moved (f : Nat → Nat) (e : SeEnd) : SeEnd :=
  { e with
    pos := f e.pos
    leaves := e.leaves.map fun l => (f l.1, l.2) }
def PressQ.moved (f : Nat → Nat) (q : PressQ) : PressQ := { q with pair := q.pair.map fun x => { x with pos := f x.pos } }
/-- Every stored position of a cell follows the shift. -/
def State.repoint (s : State) (f : Nat → Nat) : State :=
  { s with
    grid := { s.grid with
      cells := s.grid.cells.map fun (e : Nat × Cell) => (e.1, e.2.moved f)
      tokens := s.grid.tokens.map fun e => (f e.1, e.2) }
    work := { s.work with sects := s.work.sects.map fun (t : Sect) => { t with redSaved := t.redSaved.map fun e => (f e.1, e.2) } }
    ses := s.ses.map fun (e : Nat × SEngine) => (e.1, { e.2 with ends := e.2.ends.map (SeEnd.moved f) })
    press := s.press.map fun (e : Nat × Press) => (e.1, { e.2 with queues := e.2.queues.map fun k => (k.1, k.2.moved f) }) }

/-- Does a section hold a cell of a quadrant-row's columns from `p` on? -/
def Sect.touches (t : Sect) (q y p : Nat) : Bool :=
  decide (t.orgY ≤ y) && decide (y < t.orgY + t.h) && decide (t.orgX < 16 * q + 16) && decide (16 * q + p < t.orgX + t.w)

/-- Take a region's entries out of a router's shadow. -/
def Router.without (region : Nat) (r : Router) : Router :=
  let drop := fun (m : SMap Word) (stride n : Nat) => (List.range n).foldl (fun a i =>
    let w := (mapGet 0 a (stride * i)).toNat
    if bitOf w 31 ∧ bitsOf w 7 0 = region then mapWrite 0 a (stride * i) (List.replicate stride 0) else a) m
  let r1 := r.shadow
  { r1 with
    mcSh := drop r1.mcSh 2 64
    redSh := drop r1.redSh 4 32 }
/-- The mesh tables and reservations of a section wait to be installed anew at step 6 (R449). -/
def State.reinstall (s : State) (t : Sect) : State :=
  let s1 := (s.clearFlows t.heldSlots).grid.routers.foldl (fun (a : State) e => a.setRouter e.1 ((a.router e.1).without t.region))
    (s.clearFlows t.heldSlots)
  let s2 := s1.installTables t
  s2.onSectRec t.region fun x => { x with
    slots := s2.slotPlan t.streams t.trees t.place
    slotsDue := List.range t.streams.length
    slotConflict := false }

/-- All four virtual networks of the mesh are empty (R100). -/
def Router.quiet (r : Router) : Bool := r.waiting.isEmpty && r.promoted.isEmpty && r.localQ.isEmpty && r.pend.isEmpty
def State.meshEmpty (s : State) : Bool :=
  s.grid.flight.isEmpty && s.grid.toEngine.isEmpty && s.grid.routers.all fun e => e.2.quiet

/-- Make a swap: the contexts move one place east, B(q, y) = p (R449). -/
def State.swapRow (s : State) (q y p : Nat) : State :=
  let s1 := (movingPos q y p).foldl (fun (a : State) pos =>
    let c := a.cell pos
    let d := a.cell (pos + 1)
    a.setCell (pos + 1) { d with
      ctxs := c.ctxs.map fun e => (e.1, e.2.carried)
      active := c.active
      mxq := c.mxq
      passStart := if a.holdsLogical (pos + 1) then d.passStart else some s.tb }) s
  let at_ := y * 68 + 17 * q + p
  let s2 := s1.setCell at_ { Cell.zero with scrubPos := (s1.cell at_).scrubPos }
  let s3 := (s2.repoint (shiftPos q y p)).setQrow q y (s2.qrow q y / 32 * 32 + p)
  let s4 := (s3.work.sects.filter fun t => t.touches q y p).foldl (fun (a : State) t => a.reinstall t) s3
  let s5 := { s4 with grid := { s4.grid with shifts := s4.grid.shifts.filter fun t => !(t.1 == q && t.2.1 == y) } }
  (s5.rasReport 0 0x40 pgRepair [q, y, p] 0).event pgRepair 0

/-- The degradation causes of the rows (Table 14.12): soft bypass, REMOVED, a repair that waits. -/
def State.repairCauses (s : State) : State :=
  let rows := (List.range 128).map fun i => (i / 32, i % 32)
  let s1 := s.setCause 0 (rows.any fun e => s.bypass e.1 e.2 != s.qhard e.1 e.2 && !s.removed e.1 e.2)
  let s2 := s1.setCause 1 (rows.any fun e => s.removed e.1 e.2)
  s2.setCause 8 (!(s.grid.shifts.isEmpty && s.grid.removals.isEmpty && s.grid.awaiting.isEmpty))

/-- A row's copy has ended and its swap is due (R449). -/
def State.swapDue (s : State) : Bool := s.grid.shifts.any fun t => t.2.2.2 == 2
/-- Swap every row whose copy has ended. -/
def State.swapAll (s : State) : State :=
  ((s.grid.shifts.filter fun t => t.2.2.2 == 2).foldl (fun (a : State) t => a.swapRow t.1 t.2.1 t.2.2.1) s).repairCauses
def State.deferSwap (s : State) (q y : Nat) : State := s.rasReport 0 0x42 pgRepair [q, y] 0

/-- The swaps that are due wait for another tick (R451). -/
def State.deferSwaps (s : State) : State :=
  (s.grid.shifts.filter fun t => t.2.2.2 == 2).foldl (fun (a : State) t => a.deferSwap t.1 t.2.1) s

/-! ### Removal (R452, R400) -/

/-- Remove a quadrant-row's segment: its positions hold no region. -/
def State.removeRow (s : State) (q y : Nat) : State :=
  let s1 := s.setQrow q y (s.qrow q y ||| 32)
  let s2 := (List.range 17).foldl (fun (a : State) l =>
    let pos := y * 68 + 17 * q + l
    a.setCell pos { Cell.zero with scrubPos := (a.cell pos).scrubPos }) s1
  (s2.rasReport 0 0x41 pgRepair [q, y] 0).event pgRepair 0
/-- A section with a cell in a removed segment. -/
def State.displaced (s : State) (t : Sect) : Bool :=
  (List.range t.h).any fun j => (List.range t.w).any fun i => s.removed ((t.orgX + i) / 16) (t.orgY + j)
/-- Sections that lost cells wait to be re-placed; continuations whose saved state is gone end (R400). -/
def State.markDisplaced (s : State) : State :=
  (s.work.sects.filter fun t => t.live && s.displaced t && !s.work.replacing.contains t.sid && !s.work.noCells.contains t.sid).foldl
    (fun (a : State) t =>
      let b := a.discardConts t.sid 0x25 0x44
      { b with work := { b.work with replacing := b.work.replacing ++ [t.sid] } }) s
/-- A section no longer waits once it lies off removed segments or is no longer loaded, and no load of it is in progress. -/
def State.settleDisplaced (s : State) : State :=
  let stays := fun sid => (s.work.sects.any fun t => t.sid == sid && t.live && s.displaced t)
    || s.work.loads.any fun l => l.desc.isNone && l.sid == sid
  { s with work := { s.work with
      replacing := s.work.replacing.filter stays
      noCells := s.work.noCells.filter stays } }

/-- A router whose switch has failed once runs on its second plane from the next tick. -/
def State.planes (s : State) : State :=
  let s1 := { s with grid := { s.grid with routers := s.grid.routers.map fun (e : Nat × Router) =>
    (e.1, if 0 < e.2.planeFaults then { e.2 with plane2 := true } else e.2) } }
  s1.setCause 2 (s1.grid.routers.any fun e => e.2.plane2)

/-- The repairs of tick step 3 before its swaps (R62, R447, R449, R451, R452): second planes, removals, bad spares, copies that have not
ended, and cells excluded from this tick on. -/
def State.repairHead (s : State) : State :=
  let s1 := s.planes
  let s2 := s1.grid.removals.foldl (fun (a : State) e => a.removeRow e.1 e.2) s1
  let s3 := s2.grid.spareBads.foldl (fun (a : State) e => a.setQrow e.1 e.2 (a.qrow e.1 e.2 ||| 64)) s2
  let s4 := { s3 with grid := { s3.grid with removals := [], spareBads := [] } }
  let s5 := (s4.grid.shifts.filter fun t => t.2.2.2 == 1).foldl (fun (a : State) t => a.deferSwap t.1 t.2.1) s4
  { s5 with grid := { s5.grid with
    shifts := s5.grid.shifts.map fun (t : Nat × Nat × Nat × Nat) => (t.1, t.2.1, t.2.2.1, if t.2.2.2 = 0 then 1 else t.2.2.2) } }
/-- What follows the swaps: displaced sections, degradation causes, and the repair map record of what changed or of a lost channel or core
(R400, R459). -/
def State.repairTail (s : State) (changed : Bool) : State :=
  let s1 := s.markDisplaced.repairCauses
  let s2 := if changed then s1.mapRecord false else s1
  if s2.sys.mapDue then { s2 with sys := { s2.sys with mapDue := false } }.mapRecord false else s2

/-! ### Register writes -/

/-- The decisions that wait for REPAIR.APPLY are made (R448). -/
def State.applyRepairs (s : State) : State :=
  let s1 := { s with grid := { s.grid with awaiting := [] } }
  s.grid.awaiting.foldl (fun (a : State) pos => if a.holdsLogical pos then a.decideRepair pos else a) s1
/-- A write of REPAIR.APPLY. -/
def State.writeRepairApply (s : State) (val : Word) : State × Nat :=
  (if val.toNat % 2 = 1 then s.applyRepairs.repairCauses else s, resDone)
/-- REPAIR_APPLY_WRITE (R448). -/
def execRepairApplyWrite (rq : Req) (val : Word) (s : State) : Host.Outcome State Fault Refusal :=
  .next (s.busWrite rq (pgRepair * 0x1000 + 0x58) val fun t => t.writeRepairApply val)

/-- A write of REPAIR.CLEAR: the record with no soft entries follows the audit record of an installer's or maker's write (R461, R570). -/
def State.writeRepairClear (s : State) (i : Iface) (val : Word) : State × Nat :=
  if val.toNat % 2 = 0 then (s, resDone)
  else if s.audits i pgRepair 0x74 then (s.defer s.rind.nextSeq .repairClear, resDone)
  else (s.mapRecord true, resDone)
/-- REPAIR_CLEAR (R461). -/
def execRepairClear (rq : Req) (val : Word) (s : State) : Host.Outcome State Fault Refusal :=
  .next (s.busWrite rq (pgRepair * 0x1000 + 0x74) val fun t => t.writeRepairClear rq.iface val)

/-- REPAIR.STS.UNACK: the last record written is not yet acknowledged (R461). -/
def State.showUnack (s : State) : State :=
  s.setRegBit (pgRepair * 0x1000 + 0xC) 8 (decide (s.fld pgRepair R.repair_ACK_SEQ < s.fld pgRepair R.repair_LAST_SEQ))

/-- A repair map record is on its way to the flash. -/
def Follow.isMap (k : Follow) : Bool := match k with | .map _ => true | _ => false
def State.mapOnWay (s : State) : Bool :=
  (s.nv.ops ++ s.nv.cur.toList ++ s.nv.susp.toList).any (fun o => o.follow.isMap) || s.nv.held.any fun h => h.follow.isMap
/-- The repair map record is written again (R459). -/
def State.retryMap (s1 : State) (seq : Nat) : State :=
  let s2 := { s1 with nv := { s1.nv with mapWait := some (seq, s1.tb) } }
  s2.appendRecord ⟨3, s2.mapBytes seq false, .map seq, 0⟩
/-- REPAIR_NV_RETRY (R459): a minute after a repair map write failed, it is made again. -/
def execRepairNvRetry (at_ : Dword) (s : State) : Host.Outcome State Fault Refusal :=
  let s1 := s.advance at_
  match s1.nv.mapWait with
  | none => s.passOver "no repair map write failed"
  | some (seq, t) =>
    if s1.mapOnWay then s.passOver "a repair map record is being written"
    else if before s1.tb (t + 60000000000) then s.passOver "a minute has not passed"
    else .next (s1.retryMap seq)

end Sys2Proof.Machine
end

