-- ==== Sys2Proof/Machine/Watch.lean ====
section
/-! DEFINITION. The watchdog up to its second stage (R516 to R523, R528), the trace unit (R530 to R534), and the debug interfaces that reach no
register (R538 to R540). -/
namespace Sys2Proof.Machine

/-! ### The trace ring (R530 to R534) -/

def traceCtl : Nat := pgTrace * 0x1000 + 8
def traceSts : Nat := pgTrace * 0x1000 + 0xC
def State.ringSlots (s : State) : Nat := s.trace.len / 32
def State.traceHead (s : State) : Nat := s.fld64 pgTrace R.trace_HEAD
/-- A STOP ring holds as many unread records as it has slots (R533). -/
def State.ringFull (s : State) : Bool :=
  s.regBit traceCtl 8 && decide (s.ringSlots ≤ s.traceHead - s.fld64 pgTrace R.trace_RD_IDX)
def State.dropTrace (s : State) : State :=
  { s with trace := { s.trace with dropped := s.trace.dropped + 1 } }.bump pgTrace R.trace_LOST 0 1
/-- Write one record into the ring (R532); a full STOP ring or a lost channel drops it (R533, R534). -/
def State.ringPut (s : State) (r : List Byte) : State :=
  let a := s.trace.base + 32 * (s.traceHead % max s.ringSlots 1)
  if s.ringFull || s.regBit traceSts 8 then s.dropTrace
  else if s.trace.kind = 0 then (s.sramWrite a r).setFld64 pgTrace R.trace_HEAD (s.traceHead + 1)
  else match s.memWrite a r (fun _ _ => false) true with
    | .ok t _ => t.setFld64 pgTrace R.trace_HEAD (t.traceHead + 1)
    | _ => ((s.setRegBit traceSts 8 true).event pgTrace 0).dropTrace
/-- The LOST record of the drops since the last one, once space allows (R534). -/
def State.lostRecord (s : State) : State :=
  if s.trace.dropped = 0 || s.ringFull || decide (64 ≤ s.trace.buf.length) then s
  else
    let r := leBytes 8 s.tb.toNat ++ leBytes 4 s.trace.seq ++ leBytes 1 0x0E ++ leBytes 1 0x13 ++ leBytes 2 0 ++ leBytes 4 s.trace.dropped
      ++ List.replicate 12 0
    { s with trace := { s.trace with
        seq := (s.trace.seq + 1) % 2 ^ 32
        buf := s.trace.buf ++ [r]
        dropped := 0 } }
/-- Move the oldest buffered record into the ring. -/
def State.tracePump (s : State) : State :=
  match s.trace.buf with
  | [] => s
  | r :: rs => (({ s with trace := { s.trace with buf := rs } }).ringPut r).lostRecord
/-- Flush the buffer. -/
def State.traceFlush (s : State) : Nat → State
  | 0 => s
  | n + 1 => s.tracePump.traceFlush n
def State.flushTrace (s : State) : State := s.traceFlush 66

/-- TRACE_RING_WRITE (R532 to R534). -/
def execTraceRingWrite (s : State) : Host.Outcome State Fault Refusal :=
  let s1 := if s.trace.buf.isEmpty then s.lostRecord else s
  if s1.trace.buf.isEmpty || !s.regBit traceCtl 0 then s.passOver "no trace record waits" else .next s1.tracePump

/-- The ring's settings are ones of Table 17.4, off the host-exposed range, and off the staging area while the ROM runs. -/
def State.ringOk (s : State) : Bool :=
  let k := s.fld pgTrace R.trace_RING_KIND
  let b := s.fld64 pgTrace R.trace_RING_BASE
  let l := s.fld64 pgTrace R.trace_RING_LEN
  b % 4096 == 0 && l % 4096 == 0 && decide (4096 ≤ l)
    && (if k = 0 then decide (l ≤ 4194304) && decide (b + l ≤ 0x800000) && (s.sys.booted || decide (b + l ≤ 0x200000))
        else decide (l ≤ 17179869184) && (match s.memLocs b l true with | .ok ps => ps.all fun e =>
          (match e.1 with | .module _ off _ => decide (s.hdmBytes ≤ off) | _ => false) | .error _ => false))
/-- A write of TRACE.CTL: ENABLE applies the ring's settings when it rises, and flushes the buffer when it falls (R530, R534). -/
def State.writeTraceCtl (s : State) (i : Iface) (val : Word) : State × Nat :=
  let was := s.regBit traceCtl 0
  let en := bitOf val.toNat 0
  if en && !was && !s.ringOk then (s.reservedWrite i pgTrace 8 val, resReserved)
  else
    let s1 := if was && !en then s.flushTrace else s
    let s2 := (s1.setRegBit traceCtl 0 en).setRegBit traceCtl 8 (bitOf val.toNat 8)
    (if en && !was then ({ s2 with trace := { s2.trace with
        kind := s2.fld pgTrace R.trace_RING_KIND
        base := s2.fld64 pgTrace R.trace_RING_BASE
        len := s2.fld64 pgTrace R.trace_RING_LEN } }).setRegBit traceSts 8 false else s2, resDone)
/-- TRACE_ENABLE (R530). -/
def execTraceEnable (rq : Req) (s : State) : Host.Outcome State Fault Refusal :=
  let v := s.reg traceCtl ||| 1
  .next (s.busWrite rq traceCtl v fun t => t.writeTraceCtl rq.iface v)

/-- A write of a word of FW_REC; the last one forms the record (R531). SRC is the core that writes, which no access names. -/
def State.writeFwRec (s : State) (off : Nat) (val : Word) : State × Nat :=
  let s1 := s.setReg (pgTrace * 0x1000 + off) val
  if off ≠ 0x8C then (s1, resDone)
  else
    let (v, s2) := s1.takeFree
    (s2.traceRec 0x0F (v.toNat % 8) ([0x80, 0x84, 0x88, 0x8C].flatMap fun o => leBytes 4 (s1.reg (pgTrace * 0x1000 + o)).toNat), resDone)
/-- TRACE_FW_REC (R531): the last word of FW_REC. -/
def execTraceFwRec (rq : Req) (val : Word) (s : State) : Host.Outcome State Fault Refusal :=
  .next (s.busWrite rq (pgTrace * 0x1000 + 0x8C) val fun t => t.writeFwRec 0x8C val)

/-! ### Dumps (R537) -/

/-- Pre-erased last-gasp slots. -/
def State.gaspSlots (s : State) : List Nat :=
  [8, 9, 10, 11].filter fun sec => (match headerOf s.nv.flash sec 4 with | some (st, _) => st == 0xFE | none => false)
    && !s.nv.half.contains sec && !s.nv.erasing.contains sec && blankFrom s.nv.flash sec 16
/-- The bytes of record `i` of the ring; none where its module cannot be read. -/
def State.ringRecord (s : State) (i : Nat) : State × Option (List Byte) :=
  let a := s.trace.base + 32 * (i % max s.ringSlots 1)
  if s.trace.kind = 0 then let (t, b) := s.sramRead a 32; (t, some b)
  else match s.memRead a 32 true with
    | .ok t ps => (t, some (takePad 0 32 (ps.flatMap (·.1))))
    | .fail _ => (s, none)
def State.ringRecords (s : State) (i : Nat) : Nat → State × Option (List Byte)
  | 0 => (s, some [])
  | n + 1 =>
    match s.ringRecord i with
    | (s1, none) => (s1, none)
    | (s1, some b) =>
      let (s2, bs) := s1.ringRecords (i + 1) n
      (s2, bs.map (b ++ ·))
/-- The last-gasp slot that a dump takes: one stays free (R537). -/
def State.dumpSlot (s : State) : Option Nat :=
  if 2 ≤ s.gaspSlots.length then s.gaspSlots.getLast? else none
/-- The records of a dump are programmed into slot `sec` (R537). -/
def State.dumpInto (s : State) (sec : Nat) (bs : List Byte) : State :=
  let s1 := s.setFld pgTrace R.trace_DUMP_STS 1
  let s2 := { s1 with trace := { s1.trace with dumping := some sec } }
  (s2.program 7 (sec * secSize + 5) [0xFC] .nothing).program 7 (sec * secSize + 0x100) bs .dump
/-- A write of DUMP with GO: the newest records go into the highest pre-erased slot, where another stays pre-erased. A ring that cannot be
read ends it with FAIL. -/
def State.writeDump (s : State) (val : Word) : State × Nat :=
  if bitOf val.toNat 0 = false ∨ s.fld pgTrace R.trace_DUMP_STS = 1 then (s, resDone)
  else
    match s.dumpSlot with
    | none => (s.setFld pgTrace R.trace_DUMP_STS 3, resFailed)
    | some sec =>
      let n := min (min s.traceHead s.ringSlots) 2040
      match s.ringRecords (s.traceHead - n) n with
      | (t, some bs) => (t.dumpInto sec bs, resDone)
      | (t, none) => (t.setFld pgTrace R.trace_DUMP_STS 4, resFailed)
/-- TRACE_DUMP_GO (R537). -/
def execTraceDumpGo (rq : Req) (s : State) : Host.Outcome State Fault Refusal :=
  .next (s.busWrite rq (pgTrace * 0x1000 + 0x90) 1 fun t => t.writeDump 1)
/-- A write of DUMP_ACK: the slot is retired and erased again. -/
def State.writeDumpAck (s : State) (val : Word) : State × Nat :=
  match if bitOf val.toNat 0 ∧ s.fld pgTrace R.trace_DUMP_STS ≠ 1 then s.trace.dumping else none with
  | none => (s, resDone)
  | some sec =>
    let s1 := { s.setFld pgTrace R.trace_DUMP_STS 0 with trace := { s.trace with dumping := none } }
    ((s1.program 7 (sec * secSize + 5) [0xF0] .nothing).eraseSector sec, resDone)
/-- TRACE_DUMP_ACK (R537). -/
def execTraceDumpAck (rq : Req) (s : State) : Host.Outcome State Fault Refusal :=
  .next (s.busWrite rq (pgTrace * 0x1000 + 0x9C) 1 fun t => t.writeDumpAck 1)

/-! ### The watchdog's window, token and first stage (R516 to R523) -/

def wdtSts : Nat := pgWdt * 0x1000 + 0xC
/-- Stage 0, 1 or 2. -/
def State.wdtStage (s : State) : Nat := bitsOf (s.reg wdtSts).toNat 9 8
def State.setStage (s : State) (n : Nat) : State := (s.setRegBit wdtSts 8 (n % 2 == 1)).setRegBit wdtSts 9 (n == 2)
/-- step(k) of R518. -/
def tokenStep (k : Nat) : Nat := if k % 2 = 1 then (k / 2) ^^^ 0xB400 else k / 2
/-- Arming (R516 to R518). -/
def State.wdtArm (s : State) : State :=
  let s1 := (((s.setFld pgWdt R.wdt_CFG_MIN_US 1).setFld pgWdt R.wdt_CFG_MAX_US 1000000).setFld pgWdt R.wdt_CFG_STAGE2_US 100000).setReg
    (pgWdt * 0x1000 + 0x54) 0x10001
  ({ s1 with wdt := { Wdt.zero with
    armed := true
    tLast := s1.tb
    k := tokenStep 1 } }.setFld pgWdt R.wdt_SVC_CNT 0).setStage 0
/-- Time since the last accepted service, without the time frozen. -/
def State.wdtElapsed (s : State) : Nat := ((s.wdt.frozenAt.getD s.tb) - s.wdt.tLast).toNat
def State.winMin (s : State) : Nat := s.wdt.minUs * 1000
def State.winMax (s : State) : Nat := s.wdt.maxUs * 1000

/-- Evidence of a stage (R523): cause, t_last, the stage's instant, and the program counters of the cores that run, which the model does
not hold. -/
def State.captureWdt (s : State) (f : Fld) (cause : Nat) (t : Dword) : State :=
  let bad := (List.range 8).foldl (fun a k => if s.coreState k = 0 then a else a + 2 ^ k) 0
  let s1 := ((s.setFld pgWdt f (cause + bad * 256)).setFld64 pgWdt (f.up 8) s.wdt.tLast.toNat).setFld64 pgWdt (f.up 0x10) t.toNat
  (List.range 8).foldl (fun (a : State) k =>
    if a.coreState k = 0 then
      let (v, b) := a.takeFree
      b.setFld64 pgWdt (f.up (0x18 + 8 * k)) v.toNat
    else a.setFld64 pgWdt (f.up (0x18 + 8 * k)) 0) s1
/-- Enter stage 1 at an instant (R523). -/
def State.wdtStage1 (s : State) (cause : Nat) (t : Dword) : State :=
  let s1 := (s.captureWdt R.wdt_EVID1 cause t).setStage 1
  let s2 := { s1 with wdt := { s1.wdt with t1 := t } }.event pgWdt 0
  (s2.traceRec 5 0x11 (leBytes 1 1 ++ leBytes 1 cause ++ List.replicate 6 0 ++ leBytes 8 s2.wdt.tLast.toNat)).flushTrace

/-- A service is accepted (R518, R519): pending settings and seed take effect, the token moves on. -/
def State.wdtAccept (s : State) : State :=
  let w := s.wdt
  let w1 := { w with
    tLast := w.frozenAt.getD s.tb
    k := match w.seedDue with | some d => tokenStep d | none => tokenStep w.k
    seedDue := none
    minUs := s.fld pgWdt R.wdt_CFG_MIN_US
    maxUs := s.fld pgWdt R.wdt_CFG_MAX_US
    stage2Us := s.fld pgWdt R.wdt_CFG_STAGE2_US }
  let s1 := { s with wdt := w1 }.calApply 10 0
  match w.seedDue with
  | some d => (s1.setFld pgWdt R.wdt_ARM_SEED_EFF d).setFld pgWdt R.wdt_SVC_CNT 0
  | none => s1.bump pgWdt R.wdt_SVC_CNT 0 1
/-- A write of WDT.SVC (R519, R520): at or after t_last + WIN_MAX the watchdog has expired, and the service is ignored. -/
def State.writeSvc (s : State) (i : Iface) (val : Word) : State × Nat :=
  if 65535 < val.toNat then (s.reservedWrite i pgWdt 0x58 val, resReserved)
  else if s.wdt.armed = false then (s, resDone)
  else if s.wdtStage ≠ 0 then (s.bump pgWdt R.wdt_IGN_CNT 1 1, resDone)
  else if s.winMax ≤ s.wdtElapsed then ((s.wdtStage1 1 (s.wdt.tLast + BitVec.ofNat 64 s.winMax)).bump pgWdt R.wdt_IGN_CNT 1 1, resDone)
  else if s.wdtElapsed < s.winMin then (s.wdtStage1 2 s.tb, resDone)
  else if val.toNat ≠ s.wdt.k then (s.wdtStage1 3 s.tb, resDone)
  else (s.wdtAccept, resDone)
/-- WDT_SERVICE (R519). -/
def execWdtService (rq : Req) (val : Word) (s : State) : Host.Outcome State Fault Refusal :=
  .next (s.busWrite rq (pgWdt * 0x1000 + 0x58) val fun t => t.writeSvc rq.iface val)

/-- Writes of WDT.CFG, WDT.ARM and DBG_FREEZE (R517, R518). -/
def State.writeWdt (s : State) (i : Iface) (off : Nat) (val : Word) : State × Nat :=
  let lo := s.fld pgWdt R.wdt_CFG_MIN_US
  let hi := s.fld pgWdt R.wdt_CFG_MAX_US
  let v := val.toNat
  let bad := if off = 0x48 then v == 0 || decide (hi ≤ v)
    else if off = 0x4C then decide (v < 100) || decide (60000000 < v) || decide (v ≤ lo)
    else if off = 0x50 then decide (v < 10) || decide (10000000 < v)
    else v % 65536 == 0
  if s.locked pgWdt then (s, resFailed)
  else if bad then (s.reservedWrite i pgWdt off val, resReserved)
  else if off = 0x54 then
    ({ s with wdt := { s.wdt with seedDue := some (v % 65536) } }.setFld pgWdt R.wdt_ARM_SEED (v % 65536), resDone)
  else (s.setReg (pgWdt * 0x1000 + off) val, resDone)

/-- The watchdog counts: armed, in stage 0, not frozen, not in STANDBY (R528, R529). -/
def State.wdtRuns (s : State) : Bool :=
  s.wdt.armed && s.wdtStage == 0 && s.wdt.frozenAt.isNone && !(s.sys.lpPhase == .asleep && s.sys.lpTarget == 4)
/-- WDT_EXPIRE (R520). -/
def execWdtExpire (at_ : Dword) (s : State) : Host.Outcome State Fault Refusal :=
  let s1 := s.advance at_
  if s1.wdtRuns = false then s.passOver "the watchdog does not count in stage 0"
  else if s1.wdtElapsed < s1.winMax then s.passOver "WIN_MAX has not passed"
  else .next (s1.wdtStage1 1 (s1.wdt.tLast + BitVec.ofNat 64 s1.winMax))
/-- WDT_CLOCK_EXPIRE (R521): `count` periods of the 32 MHz oscillator have passed since t_last. -/
def execWdtClockExpire (count : Nat) (at_ : Dword) (s : State) : Host.Outcome State Fault Refusal :=
  let s1 := s.advance at_
  let scaled := (count : Int) * 125 * (1000000 + (s1.calGet 10 0).e)
  if s1.wdtRuns = false ∨ s1.winMax ≤ s1.wdtElapsed then s.passOver "the watchdog does not count in stage 0"
  else if scaled * 16 < (17 * s1.winMax * 4 * 1000000 : Nat) then s.passOver "the count is below 17/16 of WIN_MAX"
  else .next (s1.wdtStage1 4 s1.tb)

/-! ### Debug (R528, R538 to R540) -/

/-- A maker session is open on some interface. -/
def State.makerOpen (s : State) : Bool := (List.range 4).any fun k => (s.sess k).state == 2 && (s.sess k).role == 2
def State.coreHalted (s : State) : Bool := s.cl.cores.any fun c => c.2.halted
/-- The watchdog stops or goes on (R528): t_last moves by the frozen time. -/
def State.wdtFreeze (s : State) : State :=
  let stop := s.makerOpen && s.regBit (pgWdt * 0x1000 + 8) 8 && s.coreHalted
  match s.wdt.frozenAt with
  | none => if stop then { s with wdt := { s.wdt with frozenAt := some s.tb } }.setRegBit wdtSts 10 true else s
  | some t =>
    if stop then s
    else { s with wdt := { s.wdt with
      frozenAt := none
      tLast := s.wdt.tLast + (s.tb - t) } }.setRegBit wdtSts 10 false

def State.core (s : State) (k : Nat) : Core := mapGet Core.zero s.cl.cores k
def State.setCore (s : State) (k : Nat) (c : Core) : State := { s with cl := { s.cl with cores := mapSet Core.zero s.cl.cores k c } }
/-- The cores that a debugger holds run on. -/
def State.resumeCores (s : State) : State :=
  ((List.range 8).foldl (fun (a : State) k => a.setCore k { a.core k with halted := false }) s).wdtFreeze

/-- The JTAG interface's own session is a maker session. -/
def State.jtagMaker (s : State) : Bool := s.roleOf .jtag == roleMaker
/-- EXTEST, CLAMP and HIGHZ are open (Table 17.10). -/
def State.pinsOpen (s : State) : Bool :=
  s.lifecycle == 0 || s.lifecycle == 3 || (s.jtagMaker && s.lifecycle == 1)
/-- The core debug module is open (Table 17.10). -/
def State.coresOpen (s : State) : Bool := s.lifecycle == 0 || s.lifecycle == 3 || (s.jtagMaker && s.lifecycle != 4)
def State.setIr (s : State) (i : JtagIr) : State := { s with jtag := { s.jtag with ir := i } }

/-- JTAG_IDCODE (R539). -/
def execJtagIdcode (s : State) : Host.Outcome State Fault Refusal := .next ((s.setIr .idcode).emit (.jtag Config.idcode))
/-- JTAG_BYPASS (R539). -/
def execJtagBypass (s : State) : Host.Outcome State Fault Refusal := .next (s.setIr .bypass)
/-- JTAG_SAMPLE_PRELOAD (R539): the pins are sampled, the scan register takes `preload`. -/
def execJtagSamplePreload (pins preload : List Bool) (s : State) : Host.Outcome State Fault Refusal :=
  .next ({ s with jtag := ⟨.sample, preload⟩ }.emit (.jtagPins 0 pins))
/-- An instruction that drives the pins, or BYPASS where it is not open. -/
def State.jtagDrive (s : State) (i : JtagIr) (mode : Nat) (bits : List Bool) : State :=
  if s.pinsOpen then (s.setIr i).emit (.jtagPins mode bits) else s.setIr .bypass
/-- JTAG_EXTEST (R539). -/
def execJtagExtest (s : State) : Host.Outcome State Fault Refusal := .next (s.jtagDrive .extest 1 s.jtag.scan)
/-- JTAG_CLAMP (R539). -/
def execJtagClamp (s : State) : Host.Outcome State Fault Refusal := .next (s.jtagDrive .clamp 2 s.jtag.scan)
/-- JTAG_HIGHZ (R539). -/
def execJtagHighz (s : State) : Host.Outcome State Fault Refusal := .next (s.jtagDrive .highz 3 [])

/-- DEBUG_CORE_HALT (R528, R539): without the right, nothing happens. -/
def execDebugCoreHalt (k : Nat) (at_ : Dword) (s : State) : Host.Outcome State Fault Refusal :=
  let s1 := s.advance at_
  if s1.coresOpen && decide (k < 8) && s1.coreState k == 0 then .next (s1.setCore k { s1.core k with halted := true }).wdtFreeze else .next s1
/-- DEBUG_CORE_RESUME (R528, R539). -/
def execDebugCoreResume (k : Nat) (at_ : Dword) (s : State) : Host.Outcome State Fault Refusal :=
  let s1 := s.advance at_
  if s1.coresOpen && decide (k < 8) then .next (s1.setCore k { s1.core k with halted := false }).wdtFreeze else .next s1

/-- PLDM_SENSOR_READ (R539): sensor 0 to 63 a temperature, 64 the power of the last frame in mW, 65 DEGRADED. -/
def execPldmSensorRead (sensor : Nat) (s : State) : Host.Outcome State Fault Refusal :=
  if s.lifecycle = 4 then .next (s.emit (.mgmt 1 sensor))
  else if sensor < 64 then .next (s.emit (.mgmt 0 (s.fld pgTherm (R.therm_SENSE.up (4 * sensor)))))
  else if sensor = 64 then .next (s.emit (.mgmt 0 (s.meter.lastUj * 1000 / max s.meter.lastUs 1)))
  else .next (s.emit (.mgmt 0 (b2n s.degraded)))

end Sys2Proof.Machine
end

