-- ==== Sys2Proof/Machine/Rind.lean ====
section
/-! DEFINITION. Rind (R547 to R571): sessions, key slots, maker fuses, the lifecycle, attestation; the actions that wait for their audit
record. -/
namespace Sys2Proof.Machine

/-! ### Sessions (R547 to R553) -/

/-- A lifecycle state permits a session role: 1 installer, 2 maker (R547). -/
def permits (lc role : Nat) : Bool := if role = 1 then lc == 1 || lc == 2 else role == 2 && lc != 4
def rindPage : Nat := pgRind * 0x1000
/-- A session opens or closes on a debug interface (R540). -/
def State.debugRec (s : State) (k open_ role : Nat) : State :=
  if k = 0 then s else s.traceRec 7 0x12 (leBytes 1 k ++ leBytes 1 open_ ++ leBytes 1 role)
/-- Close the session of a bank (R552): the record names the cause; with a maker session, halted cores run on (R540). -/
def State.closeSess (s : State) (k cause : Nat) : State :=
  let x := s.sess k
  if x.state ≠ 2 then s
  else
    let s1 := ((s.setSess k { x with
      state := 0
      role := 0
      sk := []
      nonceLive := false }).audit 0x11 (x.role + 1) k 0 rindPage 0x60 cause 0 0 0).debugRec k 0 (x.role + 1)
    if x.role = 2 then s1.resumeCores else s1
/-- Close every session that satisfies a test. -/
def State.closeSessions (s : State) (cause : Nat) (p : Nat → Sess → Bool) : State :=
  (List.range 4).foldl (fun (a : State) k => if p k (a.sess k) then a.closeSess k cause else a) s

/-- `n` bytes of Rind's random number generator: free values. -/
def State.randomBytes (s : State) : Nat → State × List Byte
  | 0 => (s, [])
  | n + 1 =>
    let (v, s1) := s.takeFree
    let (s2, bs) := s1.randomBytes n
    (s2, leBytes 8 v.toNat ++ bs)

def sessFail (s : State) (k role : Nat) : State := s.audit 0x12 (role + 1) k 2 rindPage 0xA0 0 0 0 0
/-- OPEN (R549 to R551): a nonce, or a refusal. -/
def State.openSess (s : State) (k role key : Nat) : State :=
  let s1 := s.closeSess k 1
  let x := s1.sess k
  if 8 ≤ x.fails ∧ before s1.tb (x.lastFail + 60000000000) then s1.setSess k { x with
      state := 4
      nonceLive := false }
  else if permits s1.lifecycle role = false then
    sessFail (s1.setSess k { x with
      state := 3
      nonceLive := false }) k role
  else
    let (s2, n) := s1.randomBytes 6
    s2.setSess k { x with
      state := 1
      role := role
      key := key
      nonce := n
      nonceLive := true
      issued := s2.tb
      resp := [] }

/-- A write of SESS.CTL: a reserved ACTION, ROLE or KEY is a reserved encoding (R7). -/
def State.writeSessCtl (s : State) (i : Iface) (val : Word) : State × Nat :=
  match bankOf i with
  | none => (s, resFailed)
  | some k =>
    let act := bitsOf val.toNat 1 0
    let role := bitsOf val.toNat 9 8
    let key := bitsOf val.toNat 19 16
    if act = 3 ∨ (act = 1 ∧ (role = 0 ∨ role = 3 ∨ (role = 1 ∧ 1 < key) ∨ 3 < key)) then (s.reservedWrite i pgRind 0x60 val, resReserved)
    else
      let s1 := s.setSess k { s.sess k with ctl := (val &&& 0xF0303).toNat }
      (if act = 1 then s1.openSess k role key else if act = 2 then s1.closeSess k 1 else s1, resDone)

/-- The response a session's nonce asks for holds (R549): an installer's tag, or a maker's signature. -/
def State.respOk (s : State) (k : Nat) : Bool :=
  let x := s.sess k
  let m := x.nonce ++ s.rind.devUid ++ leBytes 1 x.role ++ leBytes 1 k
  if x.role = 1 then
    match s.slotKey (20 + x.key) with
    | some key => Config.hmacSha384 key m == mapRead 0 x.resp 0 48
    | none => false
  else
    match (s.rind.mpk.find? fun e => e.1 == x.key).map (·.2) with
    | some pk => Config.ecdsaOk pk (Config.sha384 m) (mapRead 0 x.resp 0 96)
    | none => false
/-- Open a session in its role (R549, R551, R553, R557). -/
def State.enterSess (s : State) (k role key : Nat) (iauth : List Byte) : State :=
  let x := s.sess k
  (((s.setSess k { x with
    state := 2
    role := role
    key := key
    nonceLive := false
    fails := 0
    kcnt := 0
    lastAccess := s.tb
    sk := if role = 1 then (Config.hmacSha384 iauth ([0x53, 0x45, 0x53, 0x53] ++ x.nonce)).take 32 else [] }).audit
    0x10 (role + 1) k 0 rindPage 0xA0 0 0 0 0).debugRec k 1 (role + 1)).wdtFreeze
/-- Check a response (R549 to R551). -/
def State.checkResp (s : State) (k : Nat) : State :=
  let x := s.sess k
  let live := x.state == 1 && x.nonceLive && before s.tb (x.issued + 10000000000)
  if x.state = 2 then s
  else if live && s.respOk k && permits s.lifecycle x.role then s.enterSess k x.role x.key ((s.slotKey (20 + x.key)).getD [])
  else
    let role := max x.role (bitsOf x.ctl 9 8)
    sessFail (s.setSess k { x with
      state := 3
      nonceLive := false
      fails := min (x.fails + 1) (2 ^ 32 - 1)
      lastFail := s.tb }) k role

/-- A write of a word of SESS.RESP; the role's final word starts the check. -/
def State.writeSessResp (s : State) (i : Iface) (off : Nat) (val : Word) : State × Nat :=
  match bankOf i with
  | none => (s, resFailed)
  | some k =>
    let x := s.sess k
    let s1 := s.setSess k { x with resp := mapWrite 0 x.resp (off - 0xA0) (leBytes 4 val.toNat) }
    let last := if bitsOf x.ctl 9 8 = 2 then 0xFC else 0xCC
    (if off = last then s1.checkResp k else s1, resDone)

def State.busSess (s : State) (rq : Req) (off : Nat) (val : Word) (f : State → State × Nat) : State :=
  s.busWrite rq (rindPage + off) val f
/-- SESS_OPEN (R549). -/
def execSessOpen (rq : Req) (role key : Nat) (s : State) : Host.Outcome State Fault Refusal :=
  let v := BitVec.ofNat 32 (1 + role % 4 * 256 + key % 16 * 65536)
  .next (s.busSess rq 0x60 v fun t => t.writeSessCtl rq.iface v)
/-- SESS_RESP (R549 to R551): the final word of the response. -/
def execSessResp (rq : Req) (val : Word) (s : State) : Host.Outcome State Fault Refusal :=
  let k := (bankOf rq.iface).getD 0
  let off := if bitsOf (s.sess k).ctl 9 8 = 2 then 0xFC else 0xCC
  .next (s.busSess rq off val fun t => t.writeSessResp rq.iface off val)
/-- SESS_CLOSE (R552). -/
def execSessClose (rq : Req) (s : State) : Host.Outcome State Fault Refusal :=
  .next (s.busSess rq 0x60 2 fun t => t.writeSessCtl rq.iface 2)
/-- SESS_IDLE_CLOSE (R552): the interface has made no access for 600 s. -/
def execSessIdleClose (k : Nat) (at_ : Dword) (s : State) : Host.Outcome State Fault Refusal :=
  let s1 := s.advance at_
  if (s1.sess k).state ≠ 2 ∨ 4 ≤ k then s.passOver "no session is open"
  else if before s1.tb ((s1.sess k).lastAccess + 600000000000) then s.passOver "600 s have not passed"
  else .next (s1.closeSess k 2)
/-- NONCE_EXPIRE (R550). -/
def execNonceExpire (k : Nat) (at_ : Dword) (s : State) : Host.Outcome State Fault Refusal :=
  let s1 := s.advance at_
  let x := s1.sess k
  if x.state ≠ 1 ∨ before s1.tb (x.issued + 10000000000) then s.passOver "no nonce of 10 s ago waits"
  else .next (s1.setSess k { x with
    state := 0
    nonceLive := false })
/-- LOCKOUT_EXPIRE (R551): 60 s after the last failure OPEN is accepted again. -/
def execLockoutExpire (k : Nat) (at_ : Dword) (s : State) : Host.Outcome State Fault Refusal :=
  let s1 := s.advance at_
  let x := s1.sess k
  if x.state ≠ 4 ∨ before s1.tb (x.lastFail + 60000000000) then s.passOver "the interface is not locked out, or 60 s have not passed"
  else .next (s1.setSess k { x with state := 0 })

/-! ### Key slots (R554 to R561) -/

def keyDone : Nat := 2
def keyAuth : Nat := 3
def keyExhausted : Nat := 4
def keyDenied : Nat := 5
def keyBurnFail : Nat := 6
def State.keySts (s : State) (v : Nat) : State := s.setFld pgRind R.rind_KEY_STS v
/-- A burn is in progress or waits for its record. -/
def State.keyBusy (s : State) : Bool :=
  s.rind.burn.isSome || s.rind.deferred.any fun d => match d.2 with | .key _ _ => true | _ => false
def State.holdsSlot (s : State) (slot : Nat) : Bool := (s.slotKey slot).isSome

/-- The key a WRITE brings, or the outcome that refuses it (R557, R560). -/
def State.keyOf (s : State) (i : Iface) (slot : Nat) : Except Nat (List Byte) :=
  match bankOf i with
  | none => .error keyDenied
  | some k =>
    let x := s.sess k
    if 224 ≤ s.rind.rows.length then .error keyExhausted
    else if x.state = 2 ∧ x.role = 1 then
      let b := mapRead 0 s.rind.blob 0 76
      match Config.gcmOpen x.sk (b.take 12) (leBytes 1 slot ++ leBytes 4 x.kcnt) ((b.drop 12).take 48) (b.drop 60) with
      | some key => .ok (takePad 0 48 key)
      | none => .error keyAuth
    else if x.state = 2 ∧ x.role = 2 ∧ s.lifecycle = 3 ∧ slot < 20 then .ok (mapRead 0 s.rind.clear 0 48)
    else .error keyDenied
/-- REVOKE is open to the roles that may write the slot (Table 18.6). -/
def State.mayRevoke (s : State) (i : Iface) (slot : Nat) : Bool :=
  match bankOf i with
  | none => false
  | some k => let x := s.sess k; x.state == 2 && (x.role == 1 || (x.role == 2 && s.lifecycle == 3 && decide (slot < 20)))
/-- CLAIM is open to PF0 without a session in PROVISIONED with no IAUTH slot held (R558). -/
def State.mayClaim (s : State) (i : Iface) : Bool :=
  i == .pf0 && s.roleOf i == roleNone && s.lifecycle == 1 && !s.holdsSlot 20 && !s.holdsSlot 21

/-- Form the record of a key action; where it is allowed, its burn follows the record (R566, R570). -/
def State.keyAction (s : State) (i : Iface) (type slot : Nat) (b : Except Nat Burn) : State × Nat :=
  match b with
  | .error c => ((s.keySts c).audit type (s.roleOf i) (auditIface i) 2 rindPage 0x100 slot 0 0 0, resFailed)
  | .ok x =>
    let seq := s.rind.nextSeq
    (((s.keySts 1).audit type (s.roleOf i) (auditIface i) 0 rindPage 0x100 slot 0 0 0).defer seq (.key i x), resDone)
/-- A write of KEY.CTL (R557 to R560). -/
def State.writeKeyCtl (s : State) (i : Iface) (val : Word) : State × Nat :=
  let act := bitsOf val.toNat 1 0
  let slot := bitsOf val.toNat 12 8
  if act = 0 then (s, resDone)
  else if 21 < slot then (s.reservedWrite i pgRind 0x100 val, resReserved)
  else if s.keyBusy then (s, resFailed)
  else if act = 1 then
    s.keyAction i 0x20 slot (match s.keyOf i slot with | .ok k => .ok (.write slot k false) | .error c => .error c)
  else if act = 2 then s.keyAction i 0x21 slot (if s.mayRevoke i slot then .ok (.revoke slot) else .error keyDenied)
  else s.keyAction i 0x22 20 (if !s.mayClaim i then .error keyDenied else if 224 ≤ s.rind.rows.length then .error keyExhausted
    else .ok (.write 20 (mapRead 0 s.rind.clear 0 48) true))

def State.busKey (s : State) (rq : Req) (act slot : Nat) : State :=
  let v := BitVec.ofNat 32 (act + slot % 32 * 256)
  s.busWrite rq (rindPage + 0x100) v fun t => t.writeKeyCtl rq.iface v
/-- KEY_WRITE (R557, R560). -/
def execKeyWrite (rq : Req) (slot : Nat) (s : State) : Host.Outcome State Fault Refusal := .next (s.busKey rq 1 slot)
/-- KEY_REVOKE (R559). -/
def execKeyRevoke (rq : Req) (slot : Nat) (s : State) : Host.Outcome State Fault Refusal := .next (s.busKey rq 2 slot)
/-- KEY_CLAIM (R558). -/
def execKeyClaim (rq : Req) (s : State) : Host.Outcome State Fault Refusal := .next (s.busKey rq 3 20)

/-- Burn REVOKED on the row that holds a slot. -/
def revokeRow (slot : Nat) (rows : List KeyRow) : List KeyRow :=
  match (List.range rows.length).reverse.find? fun i => match rows[i]? with
    | some r => r.slot == slot && r.valid && r.checkOk && !r.revoked
    | none => false with
  | some i => (match rows[i]? with | some r => rows.set i { r with revoked := true } | none => rows)
  | none => rows
/-- KEY_BURN_COMPLETE (R556, R558, R560): the burn ends, well or not; `iface` is the interface whose action it was. -/
def State.endBurn (s : State) (i : Iface) (b : Burn) (ok : Bool) : State :=
  let s1 := { s with rind := { s.rind with burn := none } }
  match b with
  | .revoke slot =>
    if ok then ({ s1 with rind := { s1.rind with rows := revokeRow slot s1.rind.rows } }).keySts keyDone else s1.keySts keyBurnFail
  | .write slot key claim =>
    if ok then
      let s2 := ({ s1 with rind := { s1.rind with rows := revokeRow slot s1.rind.rows ++ [(⟨slot, key, true, true, false⟩ : KeyRow)] } }).keySts keyDone
      if claim then s2.enterSess 0 1 0 key
      else match bankOf i with
        | some k => s2.setSess k { s2.sess k with kcnt := ((s2.sess k).kcnt + 1) % 2 ^ 32 }
        | none => s2
    else ({ s1 with rind := { s1.rind with rows := s1.rind.rows ++ [(⟨slot, key, false, false, false⟩ : KeyRow)] } }).keySts keyBurnFail
def execKeyBurnComplete (ok : Bool) (s : State) : Host.Outcome State Fault Refusal :=
  match s.rind.burn with
  | none => s.passOver "no key row is being burnt"
  | some b => .next (s.endBurn s.rind.burnBy b ok)

/-! ### Maker fuses (R555) -/

/-- A write of MFUSE with GO: the target is burnt once, in a maker session, while the state is MAKER. -/
def State.burnMfuse (s : State) (i : Iface) (val : Word) : State × Nat :=
  let t := bitsOf val.toNat 7 0
  let d := fun n => mapRead 0 s.rind.mdata 0 n
  if bitOf val.toNat 31 = false then (s, resDone)
  else if s.roleOf i ≠ roleMaker ∨ s.lifecycle ≠ 0 then (s, resFailed)
  else if t = 0 then (if s.rind.drk.isEmpty then ({ s with rind := { s.rind with drk := d 32 } }, resDone) else (s, resFailed))
  else if t ≤ 4 then
    (if s.rind.mpk.any fun e => e.1 == t - 1 then (s, resFailed)
     else ({ s with rind := { s.rind with mpk := mapPut s.rind.mpk (t - 1) (d 96) } }, resDone))
  else if t = 5 then (if s.rind.uidBurnt then (s, resFailed) else ({ s with rind := { s.rind with devUid := d 16, uidBurnt := true } }, resDone))
  else if t = 6 then (if s.rind.partBurnt then (s, resFailed) else ({ s with rind := { s.rind with part := leNat (d 2), partBurnt := true } }, resDone))
  else (s.reservedWrite i pgRind 0x1A0 val, resReserved)
/-- MFUSE_GO (R555). -/
def execMfuseGo (rq : Req) (val : Word) (s : State) : Host.Outcome State Fault Refusal :=
  .next (s.busWrite rq (rindPage + 0x1A0) val fun t => t.burnMfuse rq.iface val)

/-! ### Lifecycle (R563 to R565) -/

/-- A transition and its required conditions (Table 18.8). -/
def State.lcAllowed (s : State) (i : Iface) (t : Nat) : Bool :=
  let r := s.roleOf i
  let now := s.lifecycle
  if t = 1 then now == 0 && r == roleMaker && !s.rind.drk.isEmpty && (s.rind.mpk.any fun e => e.1 == 0) && s.rind.partBurnt
  else if t = 2 then now == 1 && r == roleInstaller && (s.holdsSlot 20 || s.holdsSlot 21) && [0, 1, 2, 3].any fun k => s.holdsSlot k
  else if t = 3 then r == roleMaker && (now == 1 || (now == 2 && s.flag pgRind R.rind_LC_RMA_CONSENT))
  else t == 4 && r == roleMaker && now != 4
/-- A write of LC.GO (R564). -/
def State.writeLcGo (s : State) (i : Iface) (val : Word) : State × Nat :=
  let t := bitsOf val.toNat 2 0
  let busy := s.rind.lcBurn.isSome || s.rind.deferred.any fun d => match d.2 with | .lifecycle _ => true | _ => false
  if 4 < t then (s.reservedWrite i pgRind 0x224 val, resReserved)
  else if busy then (s, resFailed)
  else
    let rec_ := fun (a : State) (res : Nat) => a.audit 0x30 (s.roleOf i) (auditIface i) res rindPage 0x224 t s.lifecycle t val.toNat
    if s.lcAllowed i t then
      let seq := s.rind.nextSeq
      ((rec_ (s.setFld pgRind R.rind_LC_STS 1) 0).defer seq (.lifecycle t), resDone)
    else (rec_ (s.setFld pgRind R.rind_LC_STS 3) 2, resFailed)
/-- LC_GO (R564). -/
def execLcGo (rq : Req) (target : Nat) (s : State) : Host.Outcome State Fault Refusal :=
  let v := BitVec.ofNat 32 (target % 8)
  .next (s.busWrite rq (rindPage + 0x224) v fun t => t.writeLcGo rq.iface v)
/-- A write of LC.RMA_CONSENT: only an installer session sets it (R565). -/
def State.writeConsent (s : State) (i : Iface) (val : Word) : State × Nat :=
  if val.toNat % 2 = 0 then (s, resDone)
  else if s.roleOf i = roleInstaller then (s.setFld pgRind R.rind_LC_RMA_CONSENT 1, resDone)
  else (s, resFailed)

/-- The effects of entering a lifecycle state (Table 18.8). -/
def State.lcEnter (s : State) (t : Nat) : State :=
  let s1 := if 3 ≤ t then { s with rind := { s.rind with rows := s.rind.rows.map fun r => { r with revoked := true } } } else s
  let s2 := if t = 4 then { s1 with rind := { s1.rind with drkOff := true } } else s1
  s2.closeSessions 5 fun _ x => x.state == 2 && !permits t x.role
/-- The first `n` of the three copies of a state's bit are burnt. -/
def State.burnLc (s : State) (t n : Nat) : State :=
  let b := 2 ^ (t - 1)
  { s with rind := { s.rind with
      lc0 := if 1 ≤ n then s.rind.lc0 ||| b else s.rind.lc0
      lc1 := if 2 ≤ n then s.rind.lc1 ||| b else s.rind.lc1
      lc2 := if 3 ≤ n then s.rind.lc2 ||| b else s.rind.lc2 } }
/-- The three copies of a lifecycle bit are burnt and the entry effects are performed (R564). -/
def State.lcBurnt (s : State) (t : Nat) : State :=
  let s1 := (s.burnLc t 3).lcEnter t
  { s1 with rind := { s1.rind with lcBurn := none } }.setFld pgRind R.rind_LC_STS 2
/-- LC_BURN_COMPLETE (R564). -/
def execLcBurnComplete (s : State) : Host.Outcome State Fault Refusal :=
  match s.rind.lcBurn with
  | none => s.passOver "no lifecycle transition is being burnt"
  | some t => .next (s.lcBurnt t)

/-! ### SEC_VER_MIN (R562) -/

def State.raiseSecVer (s : State) (v : Nat) : State :=
  ({ s with rind := { s.rind with secVer := max v s.rind.secVer } }).setFld pgNv R.nv_SEC_VER_MIN (max v s.rind.secVer)
/-- A write of NV.SEC_VER_MIN. -/
def State.writeSecVer (s : State) (i : Iface) (val : Word) : State × Nat :=
  let v := bitsOf val.toNat 6 0
  if v < s.rind.secVer ∨ 64 < v ∨ s.sys.secVer < v then (s.reservedWrite i pgNv 0x60 val, resReserved)
  else if v = s.rind.secVer then (s, resDone)
  else if s.audits i pgNv 0x60 then
    let seq := s.rind.nextSeq
    ((s.audit 0x31 (s.roleOf i) (auditIface i) 0 (pgNv * 0x1000) 0x60 v s.rind.secVer v val.toNat).defer seq (.secVer v), resDone)
  else (s.raiseSecVer v, resDone)
/-- SEC_VER_MIN_WRITE (R562). -/
def execSecVerMinWrite (rq : Req) (val : Word) (s : State) : Host.Outcome State Fault Refusal :=
  .next (s.busWrite rq (pgNv * 0x1000 + 0x60) val fun t => t.writeSecVer rq.iface val)

/-! ### Attestation (R571) -/

/-- Store bytes in consecutive words of a page. -/
def State.setBytes (s : State) (pg off : Nat) (bs : List Byte) : Nat → State
  | 0 => s
  | n + 1 => (s.setReg (pg * 0x1000 + off + 4 * n) (BitVec.ofNat 32 (fieldAt bs (4 * n) 4))).setBytes pg off bs n
/-- A write of a word of ATTEST_NONCE; the last one latches the attestation in an installer session. -/
def State.writeAttest (s : State) (i : Iface) (off : Nat) (val : Word) : State × Nat :=
  let s1 := { s with rind := { s.rind with attNonce := mapWrite 0 s.rind.attNonce (off - 0x48) (leBytes 4 val.toNat) } }
  if off ≠ 0x74 then (s1, resDone)
  else match bankOf i with
    | none => (s1, resFailed)
    | some k =>
      if s1.roleOf i ≠ roleInstaller then (s1, resFailed)
      else
        let chain := takePad 0 48 s1.rind.headChain
        let m := mapRead 0 s1.rind.attNonce 0 48 ++ leBytes 4 s1.rind.headSeq ++ chain
        let tag := takePad 0 48 (Config.hmacSha384 ((s1.slotKey (20 + (s1.sess k).key)).getD []) m)
        (((s1.setFld pgAudit R.audit_ATT_SEQ s1.rind.headSeq).setBytes pgAudit 0xC0 chain 12).setBytes pgAudit 0x80 tag 12, resDone)
/-- ATTEST_NONCE_WRITE (R571): the final word of the nonce. -/
def execAttestNonceWrite (rq : Req) (val : Word) (s : State) : Host.Outcome State Fault Refusal :=
  .next (s.busWrite rq (pgAudit * 0x1000 + 0x74) val fun t => t.writeAttest rq.iface 0x74 val)

/-! ### CAL.CTL (R577) -/

def Follow.isCal (k : Follow) : Bool := match k with | .cal => true | _ => false
/-- Write a user calibration record with the next SEQ. -/
def State.calSave (s : State) : State :=
  let waiting := ((s.nv.ops ++ s.nv.cur.toList ++ s.nv.susp.toList).filter (fun o => o.follow.isCal)).length
    + (s.nv.held.filter fun h => h.follow.isCal).length
  let seq := ((lastCalRecord s.nv.flash).map (·.1)).getD 0 + 1 + waiting
  s.appendRecord ⟨2, s.calBytes seq, .cal, 0⟩
/-- SAVE and CLEAR_ALL of CAL.CTL; SAVE follows the audit record of an installer's or maker's write (R570). -/
def State.writeCalCtl (s : State) (i : Iface) (val : Word) : State :=
  let s1 := if bitOf val.toNat 9 then s.calClear else s
  if bitOf val.toNat 8 then (if s1.audits i pgCal 8 then s1.defer s1.rind.nextSeq .calSave else s1.calSave) else s1
/-- CAL_SAVE (R577). -/
def execCalSave (rq : Req) (s : State) : Host.Outcome State Fault Refusal :=
  let v := s.reg (pgCal * 0x1000 + 8) ||| 0x100
  .next (s.busWrite rq (pgCal * 0x1000 + 8) v fun t => (t.writeCalCtl rq.iface v, resDone))
/-- CAL_CLEAR_ALL (R577). -/
def execCalClearAll (rq : Req) (s : State) : Host.Outcome State Fault Refusal :=
  let v := s.reg (pgCal * 0x1000 + 8) ||| 0x200
  .next (s.busWrite rq (pgCal * 0x1000 + 8) v fun t => (t.writeCalCtl rq.iface v, resDone))

end Sys2Proof.Machine
end

