-- ==== Sys2Proof/Machine/NvOps.lean ====
section
/-! DEFINITION. The flash at work (R494 to R497, R507, R508, R511, R513, R514): operations started and completed, what follows them,
image updates, acknowledgements; the checks on a device image (R498 to R502). -/
namespace Sys2Proof.Machine

/-! ### The device image (R498 to R501) -/

/-- A segment of a device image: TYPE, OFFSET, LEN, LOAD. -/
structure Seg where
  type : Nat
  off : Nat
  len : Nat
  load : Nat
deriving DecidableEq, Repr

def segsOf (b : List Byte) : List Seg :=
  (List.range (fieldAt b 6 1)).map fun i => ⟨fieldAt b (0x20 + 16 * i) 1, fieldAt b (0x24 + 16 * i) 4, fieldAt b (0x28 + 16 * i) 4, fieldAt b (0x2C + 16 * i) 4⟩
def segOf (b : List Byte) (t : Nat) : Option Seg := (segsOf b).find? fun x => x.type == t
def Seg.bytes (x : Seg) (b : List Byte) : List Byte := (b.drop x.off).take x.len
def segsApart : List Seg → Bool
  | [] => true
  | x :: xs => (xs.all fun y => decide (x.off + x.len ≤ y.off) || decide (y.off + y.len ≤ x.off)) && segsApart xs
def imageLen (b : List Byte) : Nat := fieldAt b 8 4
def imageLenOk (n : Nat) : Bool := n % 16 == 0 && decide (1024 ≤ n) && decide (n ≤ 6291456)

/-- An entry of GRID_BASE (Table 16.9). -/
def gridEntryOk (len : Nat) (e : List Byte) : Bool :=
  let kind := fieldAt e 0 1
  if kind = 1 then
    let pg := fieldAt e 4 4
    zeroAt e 1 1 && fieldAt e 2 2 % 4 == 0 && decide (fieldAt e 2 2 < 0x1000) && pg % 0x1000 == 0
      && (match pageKind (pg / 0x1000) with | some .cell => true | some .stream => true | _ => false)
  else
    kind == 2 && decide (fieldAt e 1 1 < 4) && decide (fieldAt e 2 1 < 64) && decide (fieldAt e 3 1 < 32) && zeroAt e 4 1 && zeroAt e 13 3
      && decide (fieldAt e 5 4 + fieldAt e 9 4 ≤ len)
def gridEntries (b : List Byte) : List (List Byte) :=
  match segOf b 2 with
  | none => []
  | some x => (List.range (x.len / 16)).map fun i => ((x.bytes b).drop (16 * i)).take 16

/-- Every route entry of LINK_TABLES has NHOPS up to 24 and its reserved bits 0 (R8, Table 11.9): both stand in its last byte. -/
def routesOk (t : List Byte) : Bool :=
  t.zipIdx.all fun e => e.2 % 16 != 15 || (e.1.toNat / 32 % 4 == 0 && decide (e.1.toNat % 32 ≤ 24))
/-- The format of a device image (R498, R501, Tables 16.7 to 16.9, 11.9). -/
def imageFormat (b : List Byte) : Bool :=
  let n := fieldAt b 6 1
  let len := imageLen b
  let xs := segsOf b
  let count := fun t => (xs.filter fun x => x.type == t).length
  fieldAt b 0 4 == 0x4944_5A4B && fieldAt b 4 2 == 1 && decide (3 ≤ n) && decide (n ≤ 16) && imageLenOk len
    && zeroAt b 0xC 4 && zeroAt b 0x18 8 && zeroAt b (0x20 + 16 * n) (0x1E0 - 16 * n)
    && ((List.range n).all fun i => zeroAt b (0x21 + 16 * i) 3)
    && (xs.all fun x => x.off % 16 == 0 && decide (0x200 ≤ x.off) && decide (x.off + x.len ≤ len - 48))
    && segsApart xs && count 1 == 1 && decide (count 2 ≤ 1) && count 3 == 1 && count 4 == 1 && n == count 1 + count 2 + count 3 + count 4
    && (xs.all fun x =>
      if x.type = 1 then x.load % 4096 == 0 && decide (0x10000000 ≤ x.load) && decide (x.load + x.len ≤ 0x10200000)
      else x.load == 0 && (if x.type = 2 then x.len % 16 == 0 else if x.type = 3 then x.len == 64 + 262144 else x.len == 112))
    && (match segOf b 3 with
      | some x => let h := x.bytes b; zeroAt h 3 1 && zeroAt h 6 2 && zeroAt h 32 32 && routesOk (h.drop 64)
      | none => false)
    && (match segOf b 4 with
      | some x => let h := x.bytes b; decide (fieldAt h 0 1 < 4) && zeroAt h 2 2 && zeroAt h 8 8
      | none => false)
    && (gridEntries b).all (gridEntryOk (len - 48))

/-- The checks of R500, steps 1 to 5, on a stream: 0, or the cause of the earliest step that fails (R502). The bytes read are as many as
IMAGE_LEN says. -/
def State.imageCause (s : State) (raw : List Byte) : Nat :=
  match s.slotKey (fieldAt raw 7 1) with
  | none => 7
  | some key =>
    let n := imageLen raw
    if 4 ≤ fieldAt raw 7 1 then 7
    else if imageLenOk n = false ∨ raw.length < n then 3
    else
      let b := raw.take n
      if takePad 0 48 (Config.hmacSha384 key (b.take (n - 48))) ≠ b.drop (n - 48) then 3
      else if imageFormat b = false then 4
      else
        let sig := match segOf b 4 with | some x => x.bytes b | none => []
        let fw := match segOf b 1 with | some x => x.bytes b | none => []
        if fieldAt sig 1 1 < s.rind.secVer then 5
        else if Config.ecdsaOk (mapGet [] s.rind.mpk (fieldAt sig 0 1)) (Config.sha384 (sig.take 16 ++ fw)) (sig.drop 16) then 0
        else 6
/-- A slot's stream. -/
def State.slotBytes (s : State) (slot : Nat) : List Byte :=
  let a := slotSector slot * secSize
  flashRead s.nv.flash a (let n := fieldAt (flashRead s.nv.flash a 16) 8 4; if imageLenOk n then n else 512)

/-! ### Updates (R513, R514) -/

def updIdle : Nat := 0
def State.updSts (s : State) (st cause : Nat) : State := s.setFld pgNv R.nv_UPD_STS (st + cause * 256)
/-- The update fails; the target stays incomplete. -/
def State.updFail (s : State) (cause : Nat) : State := { s with nv := { s.nv with upd := none } }.updSts 3 cause
/-- Start: the target is the slot that is not active; UPDATE_BEGIN (steps 1 and 2). -/
def State.updStart (s : State) : State :=
  match s.nv.upd with
  | none => s
  | some u =>
    let slot := 1 - (readJournal s.nv.flash).1.active % 2
    ({ s with nv := { s.nv with upd := some { u with slot := slot } } }).jWrite ⟨0x10, 0, slot, 0, .update 2⟩
/-- Step 4: program the image, or fail where the source could not be read. -/
def State.updProgram (s : State) (u : Upd) : State :=
  if u.how ≠ .ok then s.updFail 9 else s.program 6 (slotSector u.slot * secSize) u.bytes (.update 4)
/-- Step 3: erase the sectors the image covers, one after the other. -/
def State.updErase (s : State) (u : Upd) : State :=
  match u.todo with
  | [] => s.updProgram u
  | sec :: _ => if s.nv.bad.contains sec then s.updFail 8 else s.eraseSector sec
/-- What follows a programmed step of an update. -/
def State.updStep (s : State) (step : Nat) : State :=
  match s.nv.upd with
  | none => s
  | some u =>
    if step = 2 then
      let u1 := { u with todo := (List.range ((u.bytes.length + secSize - 1) / secSize)).map fun i => slotSector u.slot + i }
      ({ s with nv := { s.nv with upd := some u1 } }).updErase u1
    else if step = 4 then
      let c := s.imageCause (flashRead s.nv.flash (slotSector u.slot * secSize) u.bytes.length)
      if c ≠ 0 then s.updFail c else s.jWrite ⟨0x11, 0, u.slot, fieldAt u.bytes 0x10 4, .update 6⟩
    else if step = 6 ∧ u.activate then s.jWrite ⟨0x12, 1, u.slot, 0, .update 7⟩
    else { s with nv := { s.nv with upd := none } }.updSts 2 0
/-- A sector of the target is erased, or bad. -/
def State.updErased (s : State) (sec : Nat) (bad : Bool) : State :=
  match s.nv.upd with
  | none => s
  | some u =>
    if u.todo.contains sec = false then s
    else if bad then s.updFail 8
    else
      let u1 := { u with todo := u.todo.filter fun x => x != sec }
      ({ s with nv := { s.nv with upd := some u1 } }).updErase u1

/-- The bytes that an update's source reads return, and how the reads end: this device's own module memory is read here; the host and other
devices answer with the operands (log entry 88). -/
def State.updSource (s : State) (len : Nat) (image : List Byte) (how : ReadEnd) : State × List Byte × ReadEnd :=
  let a := s.fld64 pgNv R.nv_UPD_SRC
  if s.fld pgNv R.nv_UPD_KIND = 1 ∧ a / 2 ^ 51 = ownDev s then
    match s.memRead (a % 2 ^ 51) len false with
    | .ok t ps => (t, ps.flatMap (·.1), if ps.any (·.2) then .poison else .ok)
    | .fail _ => (s, [], .failed)
  else (s, takePad 0 len image, how)
/-- A write of NV.UPD.CTL; `image` is what the host's or another device's reads of UPD.LEN bytes at UPD.SRC return, `how` how they end. -/
def State.writeUpdCtl (s : State) (i : Iface) (val : Word) (image : List Byte) (how : ReadEnd) : State × Nat :=
  if bitOf val.toNat 0 ∧ s.nv.upd.isSome then (s.reservedWrite i pgNv 0x80 val, resReserved)
  else
    let s1 := s.setFld pgNv R.nv_UPD_CTL_ACTIVATE (bitsOf val.toNat 1 1)
    if bitOf val.toNat 0 = false then (s1, resDone)
    else
      let len := s1.fld pgNv R.nv_UPD_LEN
      if 6291456 < len then (s1.updSts 3 4, resDone)
      else
        let (t, bs, ends) := s1.updSource len image how
        let s2 := ({ t with nv := { t.nv with upd := some ⟨0, takePad 0 len bs, bitOf val.toNat 1, [], ends⟩ } }).updSts 1 0
        if s2.audits i pgNv 0x80 then (s2.defer s2.rind.nextSeq .update, resDone) else (s2.updStart, resDone)
/-- NV_UPD_GO (R513, R514). -/
def execNvUpdGo (rq : Req) (activate : Bool) (image : List Byte) (how : ReadEnd) (s : State) : Host.Outcome State Fault Refusal :=
  let v := BitVec.ofNat 32 (1 + 2 * b2n activate)
  .next (s.busWrite rq (pgNv * 0x1000 + 0x80) v fun t => t.writeUpdCtl rq.iface v image how)

/-! ### Deferred actions (R570) -/

def State.perform (s : State) (d : Deferred) : State :=
  match d with
  | .key i b => { s with rind := { s.rind with burn := some b, burnBy := i } }
  | .lifecycle t => { s with rind := { s.rind with lcBurn := some t } }
  | .secVer v => s.raiseSecVer v
  | .calSave => s.calSave
  | .update => s.updStart
  | .repairClear => s.mapRecord true
/-- An audit record is programmed: the actions that waited for it are performed. -/
def State.audited (s : State) (seq : Nat) : State :=
  let done := s.rind.queue.filter fun r => decide (r.1 ≤ seq)
  let chain := match done.getLast? with | some r => (r.2.drop 0x50).take 48 | none => s.rind.headChain
  let due := s.rind.deferred.filter fun d => decide (d.1 ≤ seq)
  let s1 := { s with rind := { s.rind with
      headSeq := max seq s.rind.headSeq
      headChain := chain
      queue := s.rind.queue.filter fun r => decide (seq < r.1)
      deferred := s.rind.deferred.filter fun d => decide (seq < d.1) } }
  due.foldl (fun (a : State) d => a.perform d.2) (s1.setFld pgAudit R.audit_HEAD_SEQ (max seq s.rind.headSeq))

/-! ### What follows an operation -/

def erasePrio (r : Nat) : Nat := if r = 1 then 1 else if r = 4 then 6 else regionPrio r
/-- A journal sector is headed: SNAPSHOT, ERASE_DONE, the old sector RETIRED, then the entries that waited (R507). -/
def State.journalSwitch (s : State) (sec jseq : Nat) : State :=
  let old := s.nv.jSector
  let j := (readJournal s.nv.flash).1
  let s1 := ({ s with nv := { s.nv with
      jSector := sec
      jPtr := 0x100
      jSwitch := false } }).program 1 (sec * secSize + 5) [0xFC] .nothing
  let s2 := (s1.jPut ⟨0x20, 0, j.active, j.snapshot, .nothing⟩).jPut ⟨2, 0, sec, jseq, .done sec⟩
  let s3 := if old ≠ sec ∧ (headerOf s.nv.flash old 1).isSome then s2.program 1 (old * secSize + 5) [0xF0] .nothing else s2
  let held := s3.nv.jHold
  held.foldl (fun (a : State) q => a.jWrite q) { s3 with nv := { s3.nv with jHold := [] } }
/-- The other sector of CAL or REPAIR, where it is FULL, is erased once a record stands in the new one (R496). -/
def State.eraseFull (s : State) (r : Nat) : State :=
  let (a, n) := s.region r
  let cur := (s.ringPtr r).1
  (List.range n).foldl (fun (t : State) i =>
    let sec := a + i
    let full : Bool := match headerOf t.nv.flash sec r with
      | some (st, _) => st == 0xF8
      | none => false
    if sec != cur && full then t.eraseSector sec else t) s
/-- The used last-gasp slots whose records are now in the log are marked RETIRED and erased (R512). -/
def State.retireGasps (s : State) : State :=
  s.acct.gaspDue.foldl (fun (a : State) sec => (a.program 0 (sec * secSize + 5) [0xF0] .nothing).eraseSector sec)
    { s with acct := { s.acct with gaspDue := [] } }
def Follow.isAcct (k : Follow) : Bool := match k with | .acct => true | _ => false
/-- An operation's bytes are programmed, or its sector is erased and verified. -/
def State.follow (s : State) (o : FlashOp) : State :=
  match o.follow with
  | .nothing => s
  | .intent sec jseq => s.flashOp ⟨erasePrio (s.regionOf sec), true, sec * secSize, [], 0, .header sec jseq⟩
  | .header sec jseq =>
    let r := s.regionOf sec
    if o.erase ∧ r ≠ 0 then
      s.program (erasePrio r) (sec * secSize) (sectorHeader r 0xFE (s.maxGen r + 1)) (.header sec jseq)
    else if r = 1 ∧ s.nv.jSwitch then s.journalSwitch sec jseq
    else s.jWrite ⟨2, 0, sec, jseq, .done sec⟩
  | .done sec =>
    let r := s.regionOf sec
    let s1 := { s with nv := { s.nv with
        erasing := s.nv.erasing.filter fun x => x != sec
        half := s.nv.half.filter fun x => x != sec
        topSeq := mapSet 0 s.nv.topSeq sec 0 } }
    if r = 0 then s1.updErased sec false else if r = 1 ∨ r = 4 then s1 else s1.drainHeld r 65
  | .map seq =>
    let s1 := (s.setFld pgRepair R.repair_LAST_SEQ seq).showUnack
    let s2 := (s1.setRegBit (pgRepair * 0x1000 + 0xC) 9 false)
    ({ s2 with nv := { s2.nv with mapWait := match s2.nv.mapWait with | some (q, t) => if q ≤ seq then none else some (q, t) | none => none } }).eraseFull 3
  | .cal => s.eraseFull 2
  | .audit seq => s.audited seq
  | .acct =>
    let more := (s.nv.ops ++ s.nv.susp.toList).any (fun x => x.follow.isAcct) || s.nv.held.any fun h => h.follow.isAcct
    if more then s else { s with acct := { s.acct with unsaved := none } }.retireGasps
  | .dump =>
    let s1 := s.setFld pgTrace R.trace_DUMP_STS 2
    match s1.trace.dumping with
    | some sec => s1.program 7 (sec * secSize + 5) [0xF8] .nothing
    | none => s1
  | .update step => s.updStep step

/-! ### The flash's operations (R511) -/

/-- The waiting operation of the highest priority, the first of those. -/
def nextOp : List FlashOp → Option FlashOp
  | [] => none
  | o :: os => match nextOp os with
    | none => some o
    | some p => if o.prio ≤ p.prio then some o else some p
/-- The flash answers and has power. -/
def State.flashOn (s : State) : Bool := s.nv.present && s.sys.on_ && !s.sys.tripped
/-- FLASH_OP_START (R511): an idle flash starts the next operation, or resumes an erase; a program of higher priority suspends one. -/
def execFlashOpStart (s : State) : Host.Outcome State Fault Refusal :=
  let n := s.nv
  if !s.flashOn then s.passOver "no flash answers"
  else if s.wdt.hold.isSome then
    match n.cur, n.susp with
    | none, some e => .next { s with nv := { n with cur := some e, susp := none } }
    | _, _ => s.passOver "stage 2 of the watchdog is held off, and no operation starts"
  else match nextOp n.ops, n.cur with
  | none, none =>
    (match n.susp with
    | some e => .next { s with nv := { n with cur := some e, susp := none } }
    | none => s.passOver "no operation waits")
  | none, some _ => s.passOver "no operation waits"
  | some o, none =>
    (match n.susp with
    | some e =>
      if o.erase ∨ e.prio ≤ o.prio then .next { s with nv := { n with cur := some e, susp := none } }
      else .next { s with nv := { n with cur := some o, ops := n.ops.erase o } }
    | none => .next { s with nv := { n with cur := some o, ops := n.ops.erase o } })
  | some o, some e =>
    if e.erase && n.canSuspend && n.susp.isNone && !o.erase && decide (o.prio < e.prio) then
      .next { s with nv := { n with cur := some o, susp := some e, ops := n.ops.erase o } }
    else s.passOver "an operation is in progress"

/-- A page is programmed (R511): the rest of the bytes waits in front of its priority. -/
def State.programmed (s : State) (o : FlashOp) : State :=
  let n := 256 - o.addr % 256
  let s1 := { s with nv := { s.nv with
    cur := none
    flash := flashProgram s.nv.flash o.addr (o.bytes.take n) } }
  if o.bytes.length ≤ n then s1.follow o
  else { s1 with nv := { s1.nv with ops := { o with addr := o.addr + n, bytes := o.bytes.drop n } :: s1.nv.ops } }
/-- A program failed (R459): a repair map record waits for its retry, any other program is made again. -/
def State.programFails (s : State) (o : FlashOp) : State :=
  let s1 := { s with nv := { s.nv with cur := none } }
  match o.follow with
  | .map seq => ({ s1 with nv := { s1.nv with mapWait := some (seq, s1.tb) } }.rasReport 2 0x43 pgRepair [seq] 0).event pgRepair 2
  | _ => { s1 with nv := { s1.nv with ops := { o with tries := o.tries + 1 } :: s1.nv.ops } }
/-- FLASH_PROGRAM_COMPLETE (R459, R511): the page is programmed, or the program failed. -/
def execFlashProgramComplete (ok : Bool) (s : State) : Host.Outcome State Fault Refusal :=
  match s.nv.cur with
  | none => s.passOver "no program is in progress"
  | some o =>
    if o.erase then s.passOver "no program is in progress"
    else .next (if ok then s.programmed o else s.programFails o)

/-- An erase ends (R508): the sector reads back as 0xFF, or fails; it is erased once more, and after a second failure it is bad. -/
def State.eraseEnds (s : State) (o : FlashOp) (ok : Bool) : State :=
  let sec := o.addr / secSize
  let s1 := { s with nv := { s.nv with cur := none } }
  if ok then { s1 with nv := { s1.nv with flash := flashErase s1.nv.flash sec } }.follow o
  else if o.tries = 0 then { s1 with nv := { s1.nv with ops := { o with tries := 1 } :: s1.nv.ops } }
  else
    let s2 := { s1 with nv := { s1.nv with
        bad := sec :: s1.nv.bad
        erasing := s1.nv.erasing.filter fun x => x != sec } }
    let s3 := (s2.jWrite ⟨3, 0, sec, 0, .nothing⟩).event pgNv 1
    let r := s3.regionOf sec
    if r = 0 then s3.updErased sec true else if r = 1 ∨ r = 4 then s3 else s3.drainHeld r 65

/-! ### Acknowledgements (R496, R497) -/

/-- A write of ACCT_ACK_SEQ or AUDIT_ACK_SEQ: sectors become eligible, the queue is written out. -/
def State.writeAck (s : State) (i : Iface) (off : Nat) (val : Word) : State × Nat :=
  let (s1, r) := s.plainWrite i pgNv off val
  (s1.drainHeld (if off = 0x90 then 6 else 5) 65, r)
/-- NV_ACCT_ACK (R496). -/
def execNvAcctAck (rq : Req) (val : Word) (s : State) : Host.Outcome State Fault Refusal :=
  .next (s.busWrite rq (pgNv * 0x1000 + 0x90) val fun t => t.writeAck rq.iface 0x90 val)
/-- NV_AUDIT_ACK (R496). -/
def execNvAuditAck (rq : Req) (val : Word) (s : State) : Host.Outcome State Fault Refusal :=
  .next (s.busWrite rq (pgNv * 0x1000 + 0x94) val fun t => t.writeAck rq.iface 0x94 val)

end Sys2Proof.Machine
end

