-- ==== Sys2Proof/Machine/Resets.lean ====
section
/-! DEFINITION. Resets (R580 to R585, R595, R596): what each kind reaches and what survives it; the second stage of the watchdog (R523 to
R527), faults of router planes (Table 3.1), power-up and the return of power (R437, R634). -/
namespace Sys2Proof.Machine

/-! ### The GRID reset (Tables 19.1, 19.2, 19.5) -/

/-- Runs end FAULT_INTERNAL, as do the items they serve and the loads that are arriving. -/
def State.endGridWork (s : State) : State :=
  let s1 := s.work.runs.foldl (fun (a : State) r => if r.going then a.endRun r (a.runUsed r) else a) s
  let s2 := (s1.work.descs.filter fun d => d.isRun && d.phase == .item && d.order != 0).foldl (fun (a : State) d => a.endItem d.id endInternal) s1
  let s3 := (s2.work.loads.filter fun l => l.accepted).foldl (fun (a : State) l => a.failLoad l endInternal) s2
  { s3 with work := { s3.work with
      sects := []
      runs := []
      releases := []
      replacing := []
      noCells := []
      descs := s3.work.descs.map fun (d : Desc) => { d with
        conts := []
        kv := []
        kvWait := [] } } }
/-- Words of a CELL page that a GRID or CLUSTER reset keeps: counters and captures. -/
def cellCounter (off : Nat) : Bool :=
  [0x10, 0x24, 0x28, 0x40].contains off || (fieldsAt (pgCell 0) off).any fun d => match d.acc with | .counter _ => true | _ => false
/-- A cell and a router without contexts, engines and tables; the slice and a failed switch stay as they are. -/
def Cell.gridReset (c : Cell) : Cell :=
  { Cell.zero with
    slice := c.slice
    wbq := c.wbq
    scrubPos := c.scrubPos
    passStart := c.passStart }
def Router.gridReset (r : Router) : Router :=
  { Router.zero with
    planeFaults := r.planeFaults
    plane2 := r.plane2 }
/-- Every context, router table, stream engine and press queue returns to reset; scratchpad contents stay. The grid is held in reset. -/
def State.gridReset (s : State) : State :=
  let s1 := s.endGridWork
  let s2 := { s1 with
    regs := s1.regs.filter fun e =>
      let pg := e.1 / 0x1000
      if pg = pgStream then false
      else match pageKind pg with
        | some .cell => cellCounter (e.1 % 0x1000)
        | _ => true
    grid := { s1.grid with
      cells := s1.grid.cells.map fun (e : Nat × Cell) => (e.1, e.2.gridReset)
      routers := s1.grid.routers.map fun (e : Nat × Router) => (e.1, e.2.gridReset)
      flight := []
      tokens := []
      toEngine := []
      heldInj := []
      nap := false
      heldReset := true }
    press := s1.press.map fun (e : Nat × Press) => (e.1, { e.2 with
      queues := []
      order := [] })
    ses := []
    tyz := { s1.tyz with
      rma := []
      rsvAsk := []
      rsvBad := [] }
    sys := { s1.sys with gridDue := true } }
  (List.range 16).foldl (fun (a : State) c =>
    let b := a.setFld (pgPress c) R.press_STS (a.fld (pgPress c) R.press_STS % 16)
    (List.range 4).foldl (fun (t : State) q => t.setFld (pgPress c) (R.press_QSTS.up (4 * q)) 0xFFFF) b) s2.releaseBar4
/-- The grid leaves its reset at a tick (Table 19.1), unless a router has lost both planes (Table 3.1). -/
def State.releaseGrid (s : State) : State :=
  let stays := s.grid.heldReset && s.grid.routers.any fun e => decide (2 ≤ e.2.planeFaults)
  { s with grid := { s.grid with
      heldReset := stays
      scrubFrom := if s.grid.heldReset && !stays then s.tb else s.grid.scrubFrom } }

/-- Out of SLEEP (R592): the modules leave self-refresh and are retrained without zero fill, every slice has been zero-filled, the frame
engine resumes at the next tick instant and firmware then applies GRID_BASE. -/
def State.wakeSleep (s : State) : State :=
  let s1 := s.servedChannels.foldl (fun (a : State) c => (a.emit (.memCmd c 2)).calDeskew c) s
  { s1 with
    sys := { s1.sys with
      resumeAt := some s1.tb
      gridDue := true }
    grid := { s1.grid with scrubFrom := s1.tb } }.setFld pgPower R.power_LP_STATE 0
/-- A reset ends a power-state transition that is in progress, and the device leaves the reset in RUN (R583). -/
def State.endTransition (s : State) : State :=
  if s.sys.lpPhase = .accepted then { s with sys := { s.sys with
    lpPhase := .none
    lpTarget := 0
    runReq := false } }
  else if s.sys.lpPhase = .leaving ∧ s.fld pgPower R.power_LP_STATE = 3 then s.wakeSleep else s

/-- ROUTER_PLANE_FAULT (Table 3.1, R446): the switch of a router fails: its second plane takes over at the next tick; a second failure
holds the grid in reset. -/
def execRouterPlaneFault (pos : Nat) (s : State) : Host.Outcome State Fault Refusal :=
  if 2176 ≤ pos ∨ !s.grid.on_ then s.passOver "no such router has power"
  else
    let r := s.router pos
    let s1 := (s.setRouter pos { r with planeFaults := r.planeFaults + 1 }).event (pgCell pos) 15
    if r.planeFaults = 0 then .next ((s1.rasReport 2 0x08 (pgCell pos) [posPx pos, posPy pos] 0).strike pos)
    else .next ((s1.rasReport 3 0x09 (pgCell pos) [posPx pos, posPy pos] 0).gridReset.endTransition)

/-! ### Resets that restart the cluster -/

/-- The kinds of reset that restart the control cluster, and STANDBY. -/
inductive ResetKind where
  | por | board | device | cluster | standby
deriving DecidableEq, Repr

/-- A burn that a reset cuts short leaves a bad row, or some of the copies of a lifecycle bit. -/
def State.abandonBurns (s : State) : State :=
  let s1 := match s.rind.burn with
    | some (.write slot key _) => { s with rind := { s.rind with rows := s.rind.rows ++ [(⟨slot, key, false, false, false⟩ : KeyRow)] } }
    | _ => s
  let s2 := match s1.rind.lcBurn with
    | some t => let (v, a) := s1.takeFree; a.burnLc t (v.toNat % 4)
    | none => s1
  { s2 with rind := { s2.rind with
      burn := none
      lcBurn := none } }
/-- Words of the register file that survive (Table 19.5); fuses always do. -/
def ResetKind.keeps (k : ResetKind) (addr : Nat) : Bool :=
  let pg := addr / 0x1000
  let off := addr % 0x1000
  if pg = pgRepair ∧ 0x180 ≤ off then true
  else if pg = pgNv ∧ off = 0x60 then true
  else match k with
    | .por => false
    | .cluster => !([pgRas, pgNv, pgRind, pgCal, pgAudit, pgCluster].contains pg)
    | k =>
      pg == pgWdt || (pg == pgTherm && (off == 0x50 || off == 0x54 || off == 0x58))
        || (k == .device && (pageKind pg == some .host || pg == pgMsix))
/-- Rind after a reset: fuses; the sessions closed, with their failure counts; in STANDBY the sessions too. -/
def State.rindAfter (s : State) (k : ResetKind) : Rind :=
  let r := s.rind
  { Rind.zero with
    rows := r.rows
    drk := r.drk
    drkOff := r.drkOff
    otp := r.otp
    mpk := r.mpk
    devUid := r.devUid
    uidBurnt := r.uidBurnt
    part := r.part
    partBurnt := r.partBurnt
    lc0 := r.lc0
    lc1 := r.lc1
    lc2 := r.lc2
    secVer := r.secVer
    sess := match k with
      | .standby => r.sess
      | .por => []
      | _ => r.sess.filterMap fun (e : Nat × Sess) =>
        let x := { Sess.zero with
          fails := e.2.fails
          lastFail := e.2.lastFail }
        if x = Sess.zero then none else some (e.1, x) }
/-- Sessions that are open when a reset closes them. -/
def State.openSessions (s : State) : List (Nat × Nat) :=
  ((List.range 4).filter fun k => (s.sess k).state == 2).map fun k => (k, (s.sess k).role)
/-- The flash and what is known of the part. -/
def Nv.after (n : Nv) : Nv :=
  { Nv.zero with
    flash := n.flash
    present := n.present
    canSuspend := n.canSuspend }
/-- Fused calibration limits. -/
def State.calFuses (s : State) : SMap CalEntry :=
  s.cal.filterMap fun (e : Nat × CalEntry) =>
    let x := { CalEntry.zero with f := e.2.f, lo := e.2.lo, hi := e.2.hi }
    if calFused (e.1 / 512) && x != CalEntry.zero then some (e.1, x) else none

/-- The state after a reset of POR, BOARD or DEVICE kind, or in STANDBY: everything at reset but what Table 19.5 keeps. -/
def State.wideReset (s0 : State) (k : ResetKind) : State :=
  let s := s0.abandonOp.abandonBurns
  { State.reset with
    pending := s.pending
    free := s.free
    out := s.out
    modHeld := s.modHeld
    tb := if k = .por then 0 else s.tb
    grid := { Grid.zero with scrubFrom := if k = .por then 0 else s.tb }
    regs := (s.regs.filter fun (e : Nat × Word) => k.keeps e.1 && e.1 != 0xC0048).foldl (fun (m : SMap Word) (e : Nat × Word) => mapPut m e.1 e.2) State.reset.regs
    bus := if k = .device then { Bus.zero with
      msix := s.bus.msix
      pba := s.bus.pba } else Bus.zero
    ras := if k = .por then Ras.zero else { Ras.zero with seq := s.ras.seq }
    rind := s.rindAfter k
    cal := s.calFuses
    mods := if k = .device then s.mods.map fun (e : Nat × Module) => (e.1, { Module.zero with
      mem := e.2.mem
      retained := true }) else []
    nv := s.nv.after
    wdt := if k = .standby then s.wdt else Wdt.zero
    jtag := if k = .por then Jtag.zero else s.jtag
    sys := { Sys.zero with
      refLost := s.sys.refLost && k != .por
      closeDue := if k = .por ∨ k = .standby then [] else s.sys.closeDue ++ s.openSessions
      suspendTb := s.sys.suspendTb
      keepModules := k == .device
      hdmCommitted := k == .device && s.sys.hdmCommitted } }
/-- Stage 0 after a reset: the boot ROM arms the watchdog anew. -/
def State.unarmed (s : State) : State := s.setStage 0
def State.porReset (s : State) : State := s.wideReset .por
def State.boardReset (s : State) : State := (s.wideReset .board).unarmed
/-- Modules enter self-refresh first (R582). -/
def State.deviceReset (s : State) : State :=
  ((s.servedChannels.foldl (fun (a : State) c => a.emit (.memCmd c 1)) s).wideReset .device).unarmed

/-- A CLUSTER reset restarts the cluster, and after boot the device is in RUN (Table 19.3): out of SLEEP the grid domain has power again. -/
def State.clusterWake (s : State) : State :=
  if s.fld pgPower R.power_LP_STATE ≠ 3 then s
  else
    let s1 := if s.grid.on_ then s else s.emit (.pin pinGridPwr 1 s.tb)
    { s1 with grid := { s1.grid with on_ := true } }.wakeSleep
/-- A CLUSTER reset: cores, control SRAM, the GRID reset, a TENANT reset of every tenant, and what Table 19.5 returns with them. -/
def State.clusterReset (s0 : State) : State :=
  let s := s0.abandonOp.abandonBurns
  let s1 := (s.tenantsTouched.foldl (fun (a : State) t => a.resetTenant t) s.gridReset).acctRestart
  let ring := s1.trace.kind = 0
  let s2 := { s1 with
    regs := (s1.regs.filter fun (e : Nat × Word) => ResetKind.cluster.keeps e.1).foldl (fun (m : SMap Word) (e : Nat × Word) => mapPut m e.1 e.2) State.reset.regs
    ras := { Ras.zero with seq := s.ras.seq }
    rind := s.rindAfter .cluster
    cal := s.calFuses
    calSel := []
    bus := { s1.bus with pageResets := [] }
    sram := EccMem.zero
    cl := Cluster.zero
    nv := { s.nv.after with mapWait := s.nv.mapWait }
    wdt := Wdt.zero
    acct := { s1.acct with
      open_ := none
      destroyed := []
      sat := []
      unsaved := none
      nextSeq := 1
      first := true }
    sys := { s1.sys with
      booted := false
      bootOkDue := false
      bootRecordDue := false
      recovery := false
      kept := s.sys.booted || s.sys.kept
      rst := none
      lpReq := none
      lpPhase := .none
      tickRest := none
      runReq := false
      closeDue := s.sys.closeDue ++ s.openSessions } }
  (if ring then (s2.setFld64 pgTrace R.trace_HEAD 0).setFld64 pgTrace R.trace_RD_IDX 0 else s2).unarmed.clusterWake

/-- POR (R580): VDD_AON rises through its threshold; POR is held until POWER_UP_SEQUENCE. -/
def execPor (s : State) : Host.Outcome State Fault Refusal :=
  let s1 := s.porReset
  .next { s1 with sys := { s1.sys with on_ := false } }
/-- POWER_UP_SEQUENCE (R634): the power enables rise in order, the rails, REFCLK_SYS and SYS_RST_N are good, and POR is released. -/
def execPowerUpSequence (s : State) : Host.Outcome State Fault Refusal :=
  if s.sys.on_ then s.passOver "POR is not held"
  else
    let s1 := (s.emit (.pin pinCtlPwr 1 s.tb)).emit (.pin pinGridPwr 1 s.tb)
    .next { s1 with sys := { s1.sys with on_ := true } }
/-- BOARD_RESET (R580): SYS_RST_N or PERST_N has been low for 1 µs and rises again. -/
def execBoardReset (at_ : Dword) (s : State) : Host.Outcome State Fault Refusal :=
  let s1 := s.advance at_
  if s1.sys.on_ && !s1.sys.tripped then .next s1.boardReset else s.passOver "POR is held, or the clocks are stopped by THERMTRIP_N"

/-- A reset asked for through TOP.RST takes effect (R581): 0 GRID, 1 CLUSTER, 2 DEVICE. -/
def State.applyReset (s : State) (kind : Nat) : State :=
  let s1 := { s with sys := { s.sys with rst := none } }
  if kind = 0 then s1.gridReset.endTransition else if kind = 1 then s1.clusterReset else s1.deviceReset

/-- A write of TOP.RST (R581): with GO the reset of KIND waits for the tick instant; of two requests the wider prevails (R583). -/
def State.writeRst (s : State) (i : Iface) (val : Word) : State × Nat :=
  let k := val.toNat % 4
  if k = 3 then (s.reservedWrite i pgTop 0x54 val, resReserved)
  else
    let s1 := s.setFld pgTop R.top_RST_KIND k
    if bitOf val.toNat 8 = false then (s1, resDone)
    else
      let r := match s1.sys.rst with
        | some (k0, t) => if k0 < k then (k, s1.tb) else (k0, t)
        | none => (k, s1.tb)
      ({ s1 with sys := { s1.sys with rst := some r } }, resDone)
def State.busRst (s : State) (rq : Req) (kind : Nat) : State :=
  let v := BitVec.ofNat 32 (0x100 + kind)
  s.busWrite rq (pgTop * 0x1000 + 0x54) v fun t => t.writeRst rq.iface v
/-- RST_GRID, RST_CLUSTER, RST_DEVICE (R581). -/
def execRstGrid (rq : Req) (s : State) : Host.Outcome State Fault Refusal := .next (s.busRst rq 0)
def execRstCluster (rq : Req) (s : State) : Host.Outcome State Fault Refusal := .next (s.busRst rq 1)
def execRstDevice (rq : Req) (s : State) : Host.Outcome State Fault Refusal := .next (s.busRst rq 2)

/-! ### The second stage of the watchdog (R523 to R527) -/

/-- The evidence of stage 2 and the reset of kind WDT: `hold` and `why` are HOLD_NS and HOLD_CAUSE. -/
def State.wdtReset (s : State) (t2 : Dword) (hold why : Nat) : State :=
  let s1 := ((s.captureWdt R.wdt_EVID2 (s.fld pgWdt R.wdt_EVID1 % 256) t2).setFld pgWdt (R.wdt_EVID2.up 0x58) hold).setFld pgWdt
    (R.wdt_EVID2.up 0x5C) why
  s1.deviceReset.bump pgWdt R.wdt_RST_CNT 2 1
def State.erasing (s : State) : Bool := s.nv.susp.isSome || (match s.nv.cur with | some o => o.erase | none => false)
/-- The watchdog's own clock when the timebase has stopped: its instants are not the timebase's. -/
def State.advanceWdt (s : State) (t : Dword) : State := s.advance t
/-- WDT_STAGE2 (R524, R525): t2 has come; an erase in progress holds the reset off. -/
def execWdtStage2 (at_ : Dword) (s : State) : Host.Outcome State Fault Refusal :=
  let s1 := s.advanceWdt at_
  let t2 := s1.wdt.t1 + BitVec.ofNat 64 (s1.wdt.stage2Us * 1000)
  if s1.wdtStage ≠ 1 ∨ s1.wdt.hold.isSome ∨ !s1.sys.on_ then s.passOver "the watchdog is not in stage 1"
  else if !s1.sys.refLost && before s1.tb t2 then s.passOver "t2 has not come"
  else if s1.erasing then .next { s1 with wdt := { s1.wdt with hold := some t2 } }
  else .next (s1.wdtReset t2 0 0)
/-- WDT_HOLD_EXPIRE (R525): 2.5 s have passed since t2. -/
def execWdtHoldExpire (at_ : Dword) (s : State) : Host.Outcome State Fault Refusal :=
  let s1 := s.advanceWdt at_
  match s1.wdt.hold with
  | none => s.passOver "stage 2 is not held off"
  | some t2 =>
    if !s1.sys.refLost && before s1.tb (t2 + 2500000000) then s.passOver "2.5 s have not passed since t2"
    else .next (s1.wdtReset t2 2500000000 2)
/-- Where an erase held off stage 2, the reset follows its end (R525). -/
def State.afterHold (t : State) : State :=
  match t.wdt.hold with
  | some t2 => t.wdtReset t2 (t.tb - t2).toNat 1
  | none => t
/-- FLASH_ERASE_COMPLETE (R508, R525): an erase ends. -/
def execFlashEraseComplete (ok : Bool) (s : State) : Host.Outcome State Fault Refusal :=
  match s.nv.cur with
  | none => s.passOver "no erase is in progress"
  | some o => if o.erase = false then s.passOver "no erase is in progress" else .next (s.eraseEnds o ok).afterHold

/-! ### Loss and return of power and clock -/

/-- PWRFAIL_RELEASE (R437): the last gasp is complete and PWRFAIL_N has been high for 10 ms. -/
def execPwrfailRelease (at_ : Dword) (s : State) : Host.Outcome State Fault Refusal :=
  let s1 := s.advance at_
  match s1.sys.cut with
  | none => s.passOver "the power was not cut"
  | some t =>
    if before s1.tb (t + 10000000) then s.passOver "10 ms have not passed"
    else if !(s1.nv.ops.isEmpty && s1.nv.cur.isNone) then s.passOver "the last gasp is not complete"
    else .next s1.boardReset
/-- REFCLK_SYS_LOST (R521, Table 22.9): the timebase stops; the watchdog's oscillator runs on. -/
def execRefclkSysLost (s : State) : Host.Outcome State Fault Refusal :=
  if s.sys.refLost then s.passOver "REFCLK_SYS is lost already" else .next { s with sys := { s.sys with refLost := true } }

end Sys2Proof.Machine
end

