-- ==== Sys2Proof/Machine/PowerStates.lean ====
section
/-! DEFINITION. Power states (R586 to R594, R635): requests, NAP, SLEEP, STANDBY and the ways out of them. -/
namespace Sys2Proof.Machine

/-! ### Requests (R589) -/

/-- Why a SLEEP or STANDBY request is denied: 1 BUSY, 2 HDM, 0 it is not. -/
def State.lpDeny (s : State) : Nat :=
  let busy := (s.tenantsTouched.any fun t => s.qEnabled t || s.qSts t 0 % 2 == 0) || !s.work.loads.isEmpty || s.nv.upd.isSome
  if busy then 1 else if s.hdmBytes ≠ 0 then 2 else 0
/-- Examine a request, at tick step 9. -/
def State.examineLp (s : State) : State :=
  match s.sys.lpReq with
  | none => s
  | some (code, _) =>
    let d := s.lpDeny
    let s1 := { s with sys := { s.sys with lpReq := none } }.setFld pgPower R.power_LP_DENY d
    if d ≠ 0 then s1
    else { s1 with sys := { s1.sys with
      lpPhase := .accepted
      lpTarget := code + 1 } }
/-- The way out of SLEEP begins: the grid domain has power again (R592, R635). -/
def State.leaveSleep (s : State) : State :=
  { s.emit (.pin pinGridPwr 1 s.tb) with
    sys := { s.sys with
      lpPhase := .leaving
      runReq := false }
    grid := { s.grid with on_ := true } }
/-- A write of POWER.LP: NAP_EN, and REQ with its request. -/
def State.writeLp (s : State) (i : Iface) (val : Word) : State × Nat :=
  let s0 := s.setFld pgPower R.power_LP_NAP_EN (bitsOf val.toNat 4 4)
  let q := val.toNat % 4
  if q = 1 then (s0.reservedWrite i pgPower 0xC0 val, resReserved)
  else
    let s1 := s0.setFld pgPower R.power_LP_REQ q
    let asleep := s1.sys.lpPhase == .asleep && s1.sys.lpTarget == 3
    (if q = 0 then
      (if asleep then s1.leaveSleep
      else if s1.sys.lpPhase = .accepted then { s1 with sys := { s1.sys with runReq := true } }
      else { s1 with sys := { s1.sys with lpReq := none } })
    else if asleep then
      (if q = 3 then { s1 with sys := { s1.sys with lpReq := some (3, s1.tb) } }.examineLp else s1)
    else if s1.sys.lpPhase = .none ∨ s1.sys.lpPhase = .leaving then { s1 with sys := { s1.sys with lpReq := some (q, s1.tb) } }
    else s1, resDone)
def State.busLp (s : State) (rq : Req) (q : Nat) : State :=
  let v := BitVec.ofNat 32 (q + s.fld pgPower R.power_LP_NAP_EN * 16)
  s.busWrite rq (pgPower * 0x1000 + 0xC0) v fun t => t.writeLp rq.iface v
/-- LP_REQ_SLEEP, LP_REQ_STANDBY, LP_REQ_RUN (R589, R592). -/
def execLpReqSleep (rq : Req) (s : State) : Host.Outcome State Fault Refusal := .next (s.busLp rq 2)
def execLpReqStandby (rq : Req) (s : State) : Host.Outcome State Fault Refusal := .next (s.busLp rq 3)
def execLpReqRun (rq : Req) (s : State) : Host.Outcome State Fault Refusal := .next (s.busLp rq 0)

/-! ### NAP (R588) -/

/-- No run is served, and no load, migration or repair copy is pending. -/
def State.mayNap (s : State) : Bool :=
  s.frameOn && s.flag pgPower R.power_LP_NAP_EN && s.sys.lpPhase == .none && s.gridRuns && !s.grid.stayAwake
    && (s.work.runs.all fun r => r.phase == .ended) && s.work.loads.isEmpty && (s.grid.shifts.all fun t => t.2.2.2 != 1)
    && s.ses.all fun e => e.2.jobs.all fun j => decide (j.opc < 2)
/-- The grid enters NAP at instant `t` (R535, R588). -/
def State.enterNap (s : State) (t : Dword) : State :=
  let s1 := ((s.advance t).suspendRec 1).flushTrace
  { s1 with grid := { s1.grid with nap := true } }.setFld pgPower R.power_LP_STATE 2
/-- NAP_ENTER (R588): the admit phase ends. -/
def execNapEnter (s : State) : Host.Outcome State Fault Refusal :=
  let t := s.tickAt s.frameNo + 2000
  if !s.mayNap || before t s.tb then s.passOver "the grid does not enter NAP here"
  else .next (s.enterNap t)

/-! ### SLEEP (R590 to R592) -/

/-- The grid domain loses power: every context is EMPTY, every REGION value free, the slices and the pages of the cells are gone. -/
def State.gridOff (s : State) : State :=
  let s1 := s.gridReset
  { s1.emit (.pin pinGridPwr 0 s1.tb) with
    regs := s1.regs.filter fun (e : Nat × Word) => pageKind (e.1 / 0x1000) != some .cell
    grid := { s1.grid with
      cells := []
      shifts := s1.grid.shifts.map fun (t : Nat × Nat × Nat × Nat) => (t.1, t.2.1, t.2.2.1, 0)
      heldReset := s1.grid.routers.any fun e => decide (2 ≤ e.2.planeFaults)
      on_ := false } }
/-- The energy since the last attribution, to its owners, or to the device account alone. -/
def State.attributeNow (s : State) (owners : Bool) : State :=
  let (ej, s1) := s.takeEnergy
  let s2 := if owners then s1 else { s1 with meter := { s1.meter with
    act := []
    items := [] } }
  s2.attribute ej ((s.tb - s.tickAt s.frameNo).toNat / 1000)
/-- Steps 2 to 4 of R590; `code` is the target that SUSPEND names. -/
def State.suspend (s : State) (code : Nat) : State :=
  let s0 := if s.enabled then s.advance (s.tickAt s.frameNo + 2000) else s
  let s1 := ((s0.attributeNow s0.enabled).suspendRec code).flushTrace
  (s1.servedChannels.foldl (fun (a : State) c => a.emit (.memCmd c 1)) s1).gridOff
/-- The device enters SLEEP; a request for RUN that came meanwhile begins the way out (R590, R601). -/
def State.enterSleep (s : State) : State :=
  let s1 := (s.suspend 2).setFld pgPower R.power_LP_STATE 3
  let s2 := { s1 with sys := { s1.sys with lpPhase := .asleep } }
  if s2.sys.runReq then s2.leaveSleep else s2
/-- SLEEP_ENTER (R590). -/
def execSleepEnter (s : State) : Host.Outcome State Fault Refusal :=
  if !s.alive || s.sys.lpPhase != .accepted || s.sys.lpTarget != 3 then s.passOver "no SLEEP request is accepted"
  else .next s.enterSleep
/-- SLEEP_EXIT_READY (R592): the slices are zero-filled and the modules retrained. -/
def execSleepExitReady (at_ : Dword) (s : State) : Host.Outcome State Fault Refusal :=
  let s1 := s.advance at_
  if !s1.alive || s1.sys.lpPhase != .leaving || s1.fld pgPower R.power_LP_STATE != 3 then s.passOver "the device does not leave SLEEP"
  else
    .next s1.wakeSleep

/-! ### STANDBY (R593, R594) -/

/-- Carry out the waiting operations of the flash, each with success. -/
def State.nvDrain (s : State) : Nat → State
  | 0 => s
  | n + 1 =>
    let all := s.nv.cur.toList ++ s.nv.susp.toList ++ s.nv.ops
    match nextOp all with
    | none => s
    | some o =>
      let f := if o.erase then flashErase s.nv.flash (o.addr / secSize) else flashProgram s.nv.flash o.addr o.bytes
      (({ s with nv := { s.nv with
        flash := f
        cur := none
        susp := none
        ops := all.erase o } }).follow o).nvDrain n
/-- The open interval is cut at this instant and written as a CUT record (R593). -/
def State.cutInterval (s : State) : State :=
  match s.acct.open_ with
  | none => s
  | some v =>
    let s1 := (s.acctRecord v 3 (s.fld pgEnergy R.energy_TARIFF_INDEX)).acctRestart
    { s1 with acct := { s1.acct with open_ := none } }
/-- The device enters STANDBY, after the steps of SLEEP entry or out of SLEEP (R535, R593). -/
def State.enterStandby (s : State) : State :=
  let s1 := if s.fld pgPower R.power_LP_STATE = 3 then ((s.attributeNow false).suspendRec 3).flushTrace else s.suspend 3
  let s2 := (s1.cutInterval.nvDrain 65536).emit (.pin pinCtlPwr 0 s1.tb)
  let s3 := (s2.wideReset .standby).setFld pgPower R.power_LP_STATE 4
  { s3 with
    sys := { s3.sys with
      lpPhase := .asleep
      lpTarget := 4 }
    grid := { s3.grid with on_ := false } }
/-- STANDBY_ENTER. -/
def execStandbyEnter (s : State) : Host.Outcome State Fault Refusal :=
  if !s.alive || s.sys.lpPhase != .accepted || s.sys.lpTarget != 4 then s.passOver "no STANDBY request is accepted"
  else .next s.enterStandby
/-- Out of STANDBY: power returns, the trace begins again with RESUME, and the boot follows (R529, R535, R594). -/
def State.wakeStandby (s1 : State) : State :=
  let s2 := ((s1.emit (.pin pinCtlPwr 1 s1.tb)).emit (.pin pinGridPwr 1 s1.tb)).setFld pgPower R.power_LP_STATE 0
  let rec_ := leBytes 8 s2.tb.toNat ++ leBytes 4 0 ++ [4, 0x13, 0, 0] ++ leBytes 1 3 ++ List.replicate 7 0 ++ leBytes 8 s2.sys.suspendTb.toNat
  { s2 with
    sys := { s2.sys with
      lpPhase := .none
      lpTarget := 0 }
    grid := { s2.grid with on_ := true }
    wdt := { s2.wdt with tLast := s2.tb }
    trace := { s2.trace with
      seq := 1
      buf := [rec_] } }
/-- PLDM_POWER_WAKE (R594): in states other than STANDBY nothing changes. -/
def execPldmPowerWake (at_ : Dword) (s : State) : Host.Outcome State Fault Refusal :=
  let s1 := s.advance at_
  if !s1.alive || s1.sys.lpPhase != .asleep || s1.sys.lpTarget != 4 then .next s1 else .next s1.wakeStandby

end Sys2Proof.Machine
end

