-- ==== Sys2Proof/Machine/PageWrites.lean ====
section
/-! DEFINITION. Writes of the common page header (R440, R602 to R608), of 64-bit registers (R609), of the CELL and the STREAM page (R614 to
R617, R619, R620). -/
namespace Sys2Proof.Machine

/-! ### 64-bit registers (R609) -/

/-- The word is the low, or the high, word of a 64-bit register. -/
def isPart (p : Part) (pg off : Nat) : Bool := (fieldsAt pg off).any fun d => d.part == p
def State.holdLow (s : State) (pg off : Nat) (val : Word) : State :=
  { s with bus := { s.bus with hold := mapSet 0 s.bus.hold (pg * 0x1000 + off) val } }
/-- The value that a write of the high word commits. -/
def State.committed (s : State) (pg off : Nat) (val : Word) : Nat :=
  (mapGet 0 s.bus.hold (pg * 0x1000 + off - 4)).toNat + val.toNat * 2 ^ 32
/-- A word of a page whose fields follow their access codes; a 64-bit register is committed by its high word. -/
def State.plainWord (s : State) (i : Iface) (pg off : Nat) (val : Word) : State × Nat :=
  if isPart .low pg off then (s.holdLow pg off val, resDone)
  else if isPart .high pg off then
    let v := s.committed pg off val
    if (fieldsAt pg off).any fun d => match d.acc with | .accum _ => true | _ => false then
      (if v = 0 then
        ((s.plainWrite i pg (off - 4) 0).1).plainWrite i pg off 0
      else (s.reservedWrite i pg off val, resReserved))
    else
      let (s1, r) := s.writeFields pg (off - 4) (BitVec.ofNat 32 v) (fieldsAt pg (off - 4))
      let (s2, r2) := s1.writeFields pg off val (fieldsAt pg off)
      if r = resReserved ∨ r2 = resReserved then (s2.reservedWrite i pg off val, resReserved) else (s2, max r r2)
  else s.plainWrite i pg off val

/-! ### The header -/

/-- Pages on which CTL.RESET has an effect (R604). -/
def resets (pg : Nat) : Bool := !([pgWdt, pgNv, pgRind, pgCal, pgAudit, pgCluster].contains pg)
/-- EVT_EN: a bit that becomes pending makes its vector due at step 8 (Table 20.3). -/
def State.writeEvtEn (s : State) (pg : Nat) (val : Word) : State :=
  let old := (s.reg (pg * 0x1000 + 0x14)).toNat
  let s1 := s.setReg (pg * 0x1000 + 0x14) val
  (List.range 32).foldl (fun (a : State) b =>
    if bitOf val.toNat b && !bitOf old b && s.regBit (pg * 0x1000 + 0x10) b then a.holdVector (eventVector pg b) else a) s1
/-- ERR_LOG0 (R440): 0 clears the pair; another value is a reserved encoding. -/
def State.writeErrLog (s : State) (i : Iface) (pg : Nat) (val : Word) : State × Nat :=
  if val = 0 then ((s.setReg (pg * 0x1000 + 0x24) 0).setReg (pg * 0x1000 + 0x28) 0, resDone)
  else (s.reservedWrite i pg 0x24 val, resReserved)
/-- CTL's RESET and LOCK (R604, R605). -/
def State.writeCtl (s : State) (pg : Nat) (val : Word) : State :=
  let s1 := if bitOf val.toNat 2 then s.setRegBit (pg * 0x1000 + 8) 2 true else s
  if bitOf val.toNat 1 && resets pg && !(s1.bus.pageResets.any fun e => e.1 == pg) then
    { s1 with bus := { s1.bus with pageResets := s1.bus.pageResets ++ [(pg, s1.tb)] } }
  else s1
/-- A word of the header that has no block control. -/
def State.writeHeader (s : State) (i : Iface) (pg off : Nat) (val : Word) : State × Nat :=
  if off = 8 then (s.writeCtl pg val, resDone)
  else if off = 0x14 then (s.writeEvtEn pg val, resDone)
  else if off = 0x24 then s.writeErrLog i pg val
  else s.plainWrite i pg off val

/-- The read offset of a record window returns to 0 (R610). -/
def State.rewind (s : State) (a : Nat) : State := { s with bus := { s.bus with winOff := mapSet 0 s.bus.winOff a 0 } }

/-! ### CELL (R614 to R617) -/

/-- Words held for a window's entry, and their discard. -/
def State.holdWord (s : State) (a : Nat) (v : Word) : State := { s with bus := { s.bus with winHeld := mapSet 0 s.bus.winHeld a v } }
def State.heldWords (s : State) (a n : Nat) : List Word := mapRead 0 s.bus.winHeld a (4 * n) |>.zipIdx.filterMap fun e => if e.2 % 4 = 0 then some e.1 else none
def State.dropHeld (s : State) (a n : Nat) : State :=
  { s with bus := { s.bus with winHeld := s.bus.winHeld.filter fun (e : Nat × Word) => decide (e.1 < a) || decide (a + 4 * n ≤ e.1) } }
/-- A word of a table entry whose listed fields have reserved encodings: a field (highest bit, lowest bit, test) that fails its test keeps
the value `old` has there. Also whether any failed (R7). -/
def keepReserved (old new : Nat) (fs : List (Nat × Nat × (Nat → Bool))) : Nat × Bool :=
  fs.foldl (fun a f => if f.2.2 (bitsOf a.1 f.1 f.2.1) then a else (setBits a.1 f.1 f.2.1 (bitsOf old f.1 f.2.1), true)) (new, false)
/-- A write of a word of a table entry: `put` takes the word with its reserved fields kept; a reserved encoding is counted once (R7, R614). -/
def State.entryWrite (s : State) (i : Iface) (pg off : Nat) (val : Word) (old mask : Nat) (fs : List (Nat × Nat × (Nat → Bool)))
    (put : State → Word → State) : State × Nat :=
  let (v, bad) := keepReserved old (val.toNat &&& mask) fs
  let t := put s (BitVec.ofNat 32 v)
  (if bad then t.reservedWrite i pg off val else t, if bad then resReserved else resDone)
/-- The tests of fields: a port code; 0 to a bound; a number of children. -/
def isPortCode (v : Nat) : Bool := decide (v ≤ 4)
/-- The fields of word 2 of a reduction entry: N_CHILD, and the codes of its children. -/
def redChildFields (v : Nat) : List (Nat × Nat × (Nat → Bool)) :=
  (18, 16, fun n => decide (1 ≤ n) && decide (n ≤ 5)) :: (List.range (min 5 (bitsOf v 18 16))).map fun k => (3 * k + 2, 3 * k, isPortCode)
/-- A write of a window's IDX register: the words held are discarded. -/
def State.writeIdx (s : State) (i : Iface) (pg off n words : Nat) (val : Word) : State × Nat :=
  if val.toNat < n then (((s.dropHeld (pg * 0x1000 + off + 4) words)).setReg (pg * 0x1000 + off) val, resDone)
  else (s.reservedWrite i pg off val, resReserved)
/-- Sticky bits of the contexts: a 1 clears. -/
def State.clearFlags (s : State) (pos n lim mx vx : Nat) : State :=
  let x := s.ctx pos n
  s.setCtx pos n { x with
    limClamp := x.limClamp && lim == 0
    mxFlags := x.mxFlags - (x.mxFlags &&& mx)
    vxFlags := x.vxFlags - (x.vxFlags &&& vx) }
/-- A write of a word of a CELL page. -/
def State.writeCell (s : State) (i : Iface) (pos off : Nat) (val : Word) : State × Nat :=
  let pg := pgCell pos
  let a := pg * 0x1000
  let v := val.toNat
  let r := s.router pos
  if off < 0x48 then s.writeHeader i pg off val
  else if off = 0x50 then ((List.range 4).foldl (fun (t : State) n => t.clearFlags pos n (bitsOf v (4 + n) (4 + n)) 0 0) s, resDone)
  else if off = 0x78 then ((List.range 4).foldl (fun (t : State) n => t.clearFlags pos n 0 (bitsOf v (4 * n + 3) (4 * n)) 0) s, resDone)
  else if off = 0x94 ∨ off = 0xB4 ∨ off = 0xD4 ∨ off = 0xF4 then (s.clearFlags pos ((off - 0x94) / 0x20) 0 0 (v % 64), resDone)
  else if off = 0x220 then s.writeIdx i pg off 256 1 val
  else if off = 0x224 then
    (s.setRouter pos { r with sePort := mapSet 0 r.sePort (s.fld pg R.cell_SE_IDX) (val &&& 0x800FFFFF) }, resDone)
  else if off = 0x230 then s.writeIdx i pg off 64 2 val
  else if off = 0x234 then (s.holdWord (a + off) (val &&& 0x800FFFFF), resDone)
  else if off = 0x238 then
    let h := r.shadow
    let e := 2 * s.fld pg R.cell_MC_IDX
    s.entryWrite i pg off val (mapGet 0 h.mcSh (e + 1)).toNat 0x1F07 [(2, 0, isPortCode)] fun t w =>
      (t.dropHeld (a + 0x234) 2).setRouter pos { h with mcSh := mapWrite 0 h.mcSh e (t.heldWords (a + 0x234) 1 ++ [w]) }
  else if off = 0x240 then s.writeIdx i pg off 32 4 val
  else if off = 0x244 then (s.holdWord (a + off) (val &&& 0x800FFFFF), resDone)
  else if off = 0x248 then
    s.entryWrite i pg off val (mapGet 0 r.shadow.redSh (4 * s.fld pg R.cell_RED_IDX + 1)).toNat 0xF1F [(10, 8, isPortCode)] fun t w =>
      t.holdWord (a + off) w
  else if off = 0x24C then
    let h := r.shadow
    let e := 4 * s.fld pg R.cell_RED_IDX
    s.entryWrite i pg off val (mapGet 0 h.redSh (e + 2)).toNat 0x77FFF (redChildFields val.toNat) fun t w =>
      (t.dropHeld (a + 0x244) 4).setRouter pos { h with redSh := mapWrite 0 h.redSh e (t.heldWords (a + 0x244) 2 ++ [w]) }
  else if 0x260 ≤ off ∧ off < 0x274 then
    (if v % 16 = 15 then (s.reservedWrite i pg off val, resReserved)
     else (s.setRouter pos { r with wheelSh := mapSet none r.wheelSh ((off - 0x260) / 4) (some (v % 16)) }, resDone))
  else s.plainWrite i pg off val

/-! ### STREAM (R619, R620) -/

/-- A write of a word of the STREAM page. -/
def State.writeStream (s : State) (i : Iface) (off : Nat) (val : Word) : State × Nat :=
  let k := (off - 0x100) / 0x20
  let o := (off - 0x100) % 0x20
  if off < 0x48 then s.writeHeader i pgStream off val
  else if 0x100 ≤ off ∧ off < 0x500 ∧ o = 0 then
    let busy := !(s.engine k).jobs.isEmpty || s.ringHead k != s.ringTail k
    let bad := val.toNat % 0x2000 != 0 || decide (val.toNat < 0x10000000) || decide (0x10800000 ≤ val.toNat)
    (if busy || bad then (s.reservedWrite i pgStream off val, resReserved) else (s.setReg (pgStream * 0x1000 + off) val, resDone))
  else if 0x100 ≤ off ∧ off < 0x500 ∧ o = 4 then s.writeDb k val
  else if off = 0x500 then
    (let t := s.plainWrite i pgStream off val; (t.1.rewind (pgStream * 0x1000 + off), t.2))
  else s.plainWord i pgStream off val

/-- A word that firmware writes on a CELL or STREAM page. -/
def State.fwWrite (s : State) (pg off : Nat) (val : Word) : State :=
  match pageKind pg with
  | some .cell =>
    if (s.logicalOf (pg - 0x1000)).1 ≠ 0 ∧ !cellKept off then s else (s.writeCell .fw (pg - 0x1000) off val).1
  | some .stream => (s.writeStream .fw off val).1
  | _ => s

end Sys2Proof.Machine
end

