-- ==== Sys2Proof/Machine/Boot.lean ====
section
/-! DEFINITION. Boot (R489 to R515): the boot header, the journal, half-erased sectors, the logs' resumption, the repair map, the records
built from last-gasp summaries, the choice of a slot, the start of an image, RECOVERY. -/
namespace Sys2Proof.Machine

/-! ### The boot header (R490, R491, Table 16.2) -/

def bootHeaderOk (b : List Byte) : Bool :=
  let mode := fieldAt b 6 1
  let clk := fieldAt b 7 1
  fieldAt b 0 4 == 0x4842_5A4B && fieldAt b 4 2 == 1 && decide (mode < 4) && decide (25 ≤ clk)
    && decide (clk ≤ if mode < 2 then 100 else 200) && decide (fieldAt b 8 1 < 32) && (fieldAt b 9 1 == 3 || fieldAt b 9 1 == 4)
    && decide (25 ≤ fieldAt b 0xA 1) && decide (fieldAt b 0xA 1 ≤ 28) && decide (fieldAt b 0xB 1 ≤ 4) && zeroAt b 0xD 3 && zeroAt b 0x14 40
    && fieldAt b 0x3C 4 == crc32 (b.take 0x3C)
/-- The flash's interface settings: MODE, CLK_MHZ, ADDR_BYTES, DENSITY_LOG2, and HDR_DEFAULT. -/
def flashSettings (f : SMap Byte) (b : BootInfo) : Nat × Nat × Nat × Nat × Bool :=
  let dflt := (0, 25, 3, min b.density 28, true)
  match [0, 0x10000].find? fun o => bootHeaderOk (flashRead f o 64) with
  | none => dflt
  | some o =>
    let h := flashRead f o 64
    if 2 ≤ fieldAt h 6 1 ∧ !b.octal then dflt else (fieldAt h 6 1, fieldAt h 7 1, fieldAt h 9 1, fieldAt h 0xA 1, false)
def bootStsBit (s : State) (k : Nat) (v : Bool) : State := s.setRegBit (pgNv * 0x1000 + 0x50) k v
def State.bootFlash (s : State) (b : BootInfo) : State :=
  let (mode, clk, ab, dens, dflt) := flashSettings s.nv.flash b
  let s1 := { s with nv := { s.nv with
    present := b.present
    canSuspend := b.suspend } }
  bootStsBit (s1.setFld pgNv R.nv_FLASH_CFG (mode + clk * 2 ^ 8 + ab * 2 ^ 16 + dens * 2 ^ 24)) 1 dflt

/-! ### The journal (R505, R506) -/

/-- The journal's state, the sector in use, the next entry's place; half-erased sectors are not read. -/
def bootJournal (f : SMap Byte) : JState × Nat × Nat :=
  let all := readJournal f
  let order := (journalOrder f).filter fun sec => !all.1.open_.any fun e => e.1 == sec
  order.foldl (fun a sec => let (j, o) := readEntries f sec 2048 0x100 a.1; (j, sec, o)) (JState.zero, 2, 0x100)
/-- Take up the journal; without a valid JOURNAL sector the first is erased and headed anew. -/
def State.bootLog (s : State) : State × JState :=
  let (j, sec, o) := bootJournal s.nv.flash
  let f := if (journalOrder s.nv.flash).isEmpty then flashProgram (flashErase s.nv.flash 2) (2 * secSize) (sectorHeader 1 0xFC 1) else s.nv.flash
  (({ s with nv := { s.nv with
    flash := f
    jseq := j.last
    jSector := sec
    jPtr := o
    bad := j.bad.eraseDups } }.setFld pgNv R.nv_JRN_TORN j.torn), j)

/-! ### Ring regions and half-erased sectors (R495, R509, R510) -/

/-- Bytes of the sector headers alone. -/
def headersOf (f : SMap Byte) : SMap Byte := f.filter fun e => decide (e.1 % secSize < 16)
/-- Sectors outside the boot header and the image slots whose header is not valid. -/
def State.headless (s : State) : List Nat :=
  let h := headersOf s.nv.flash
  (List.range s.flashSectors).filter fun sec => s.regionOf sec != 0 && (headerOf h sec (s.regionOf sec)).isNone
/-- Sectors of a region with a valid header, not half-erased: GEN, sector, STATE, in the order of GEN. -/
def insertGen (x : Nat × Nat × Nat) : List (Nat × Nat × Nat) → List (Nat × Nat × Nat)
  | [] => [x]
  | y :: ys => if x.1 ≤ y.1 then x :: y :: ys else y :: insertGen x ys
def State.sectorsOf (s : State) (r : Nat) : List (Nat × Nat × Nat) :=
  let (a, n) := s.region r
  let h := headersOf s.nv.flash
  (List.range n).foldl (fun l i =>
    if s.nv.half.contains (a + i) then l
    else match headerOf h (a + i) r with
      | some (st, g) => insertGen (g, a + i, st) l
      | none => l) []
def recordAlign (r : Nat) : Nat := if r = 3 then 256 else if r = 5 then 128 else 16
/-- The place after a sector's last programmed byte. -/
def sectorEnd (f : SMap Byte) (sec align : Nat) : Nat :=
  let n := f.foldl (fun m e => if e.1 / secSize = sec then max m (e.1 % secSize + 1) else m) 0x100
  (n + align - 1) / align * align
/-- The open sector of a ring region, and its next place; past a FULL one without an open one, its end. -/
def State.bootPtr (s : State) (r : Nat) : State :=
  match (s.sectorsOf r).reverse.find? fun e => e.2.2 == 0xFC || e.2.2 == 0xF8 with
  | none => s
  | some (_, sec, st) =>
    { s with nv := { s.nv with
      ptrs := mapSet (0, 0) s.nv.ptrs r (sec, if st = 0xF8 then secSize else sectorEnd s.nv.flash sec (recordAlign r)) } }
/-- ERASED sectors that the margin check reads at boot, and that fail it. -/
def State.weakSectors (s : State) (weak : List Nat) : List Nat :=
  let look := [8, 9, 10, 11] ++ [2, 3, 5, 6].filterMap fun r => s.nextSector r (s.ringPtr r).1
  look.filter fun sec => (match headerOf s.nv.flash sec (s.regionOf sec) with | some (st, _) => st == 0xFE | none => false)
    && (weak.contains sec || !blankFrom s.nv.flash sec 16)
/-- Half-erased sectors are found and reported; last-gasp slots among them are erased again. -/
def State.bootSectors (s : State) (j : JState) (weak : List Nat) : State :=
  let half := ((j.open_.map (·.1)) ++ s.headless).eraseDups.filter fun x => !j.bad.contains x && x != s.nv.jSector
  let s1 := [2, 3, 5, 6].foldl (fun (a : State) r => a.bootPtr r) { s with nv := { s.nv with half := half } }
  let all := (half ++ s1.weakSectors weak).eraseDups
  let first := all.foldl min (all.headD 0)
  ({ s1 with nv := { s1.nv with half := all } }.setFld pgNv R.nv_HALF_ERASED (first % 4096 + min all.length 65535 * 2 ^ 16))

/-! ### Records in the logs (R431, R567, R568) -/

/-- Records of a sector from an offset on; `len` is the length of the valid record at an address, 0 where none stands. -/
def scanRecords (f : SMap Byte) (len : Nat → Nat) (step sec : Nat) : Nat → Nat → List (List Byte)
  | 0, _ => []
  | n + 1, o =>
    let k := len (sec * secSize + o)
    if secSize < o + 16 then []
    else if k = 0 ∨ secSize < o + k then scanRecords f len step sec n (o + step)
    else flashRead f (sec * secSize + o) k :: scanRecords f len step sec n (o + k)
/-- The length of an accounting record whose CRC matches. -/
def acctLenAt (f : SMap Byte) (a : Nat) : Nat :=
  let n := 128 + 40 * fieldAt (flashRead f a 8) 6 2
  if fieldAt (flashRead f a 4) 0 4 ≠ 0x4143_5A4B ∨ secSize < n then 0
  else
    let b := flashRead f a (n + 4)
    if fieldAt b n 4 = crc32 (b.take n) then (n + 4 + 15) / 16 * 16 else 0
def auditLenAt (f : SMap Byte) (a : Nat) : Nat := if fieldAt (flashRead f a 4) 0 4 = 0x4155_5A4B then 128 else 0
def mapLenAt (f : SMap Byte) (a : Nat) : Nat :=
  let b := flashRead f a 256
  if fieldAt b 0 4 = 0x5052_5A4B ∧ fieldAt b 4 2 = 1 ∧ fieldAt b 0xFC 4 = crc32 (b.take 0xFC) then 256 else 0
/-- Records of a ring region with their sectors, oldest first. -/
def State.records (s : State) (r : Nat) (len : Nat → Nat) : List (Nat × List Byte) :=
  (s.sectorsOf r).flatMap fun e =>
    if e.2.2 = 0xFE then [] else (scanRecords s.nv.flash len (recordAlign r) e.2.1 4096 0x100).map fun b => (e.2.1, b)
/-- The highest SEQ of each sector that needs acknowledgement (R496). -/
def State.noteTop (s : State) (rs : List (Nat × List Byte)) : State :=
  rs.foldl (fun (a : State) e =>
    let q := fieldAt e.2 8 4 + 1
    { a with nv := { a.nv with topSeq := mapSet 0 a.nv.topSeq e.1 (max q (mapGet 0 a.nv.topSeq e.1)) } }) s

/-- The valid records of the audit log in their order: each verifies against the one before it; the oldest in the flash, whose
predecessor may have been erased, is taken by its MAGIC unless it is SEQ 1. -/
def auditChain (uid : List Byte) (rs : List (Nat × List Byte)) : Option (List Byte) :=
  rs.foldl (fun (last : Option (List Byte)) e =>
    let b := e.2
    let fits := fun (prev : List Byte) => takePad 0 48 (Config.sha384 (prev ++ b.take 0x50)) == b.drop 0x50
    match last with
    | some p => if fits (p.drop 0x50) then some b else last
    | none => if fieldAt b 8 4 ≠ 1 ∨ fits (Config.sha384 uid) then some b else none) none
/-- Rind resumes the audit log (R568). -/
def State.bootAudit (s : State) : State :=
  let rs := s.records 5 (auditLenAt s.nv.flash)
  let s1 := s.noteTop rs
  match auditChain s.rind.devUid rs with
  | none => s1
  | some b =>
    let q := fieldAt b 8 4
    { s1 with rind := { s1.rind with
      nextSeq := q + 1
      chain := b.drop 0x50
      headSeq := q
      headChain := b.drop 0x50 } }.setFld pgAudit R.audit_HEAD_SEQ q

/-! ### Accounting after restore (R436, R512) -/

/-- A valid summary page (R434). -/
def summaryOk (b : List Byte) : Bool :=
  fieldAt b 0 4 == 0x4143_5A4B && (fieldAt b 4 1 == 1 || fieldAt b 4 1 == 3) && fieldAt b 6 2 == 0 && fieldAt b 128 4 == crc32 (b.take 128)
/-- The record that a summary becomes: the entries of the last checkpoint with its T_NOM, TAIL set. -/
def rebuilt (sum : List Byte) (ckpt : Option (List Byte)) : List Byte :=
  let n := match ckpt with | some c => fieldAt c 6 2 | none => 0
  let es := match ckpt with | some c => (c.drop 128).take (40 * n) | none => []
  let e := fieldAt sum 0x28 8 - (match ckpt with | some c => fieldAt c 0x28 8 | none => 0)
  acctSeal (sum.take 5 ++ leBytes 1 (fieldAt sum 5 1 ||| 1) ++ leBytes 2 n ++ (sum.drop 8).take 0x28 ++ leBytes 8 e ++ (sum.drop 0x38).take 0x48 ++ es)
/-- Build the record of one summary. -/
def State.rebuild (ckpts : List (List Byte)) (s : State) (sum : List Byte) : State :=
  let b := rebuilt sum ((ckpts.filter fun c => fieldAt c 0x10 8 == fieldAt sum 0x10 8).getLast?)
  let q := fieldAt b 8 4
  let closed := fieldAt b 4 1 = 1
  let s1 := { s with acct := { s.acct with
    nextSeq := max s.acct.nextSeq (q + 1)
    unsaved := if closed then some b else s.acct.unsaved } }
  let s2 := if closed then s1.showLast (b.take 128) (fieldAt b 0x40 8) (fieldAt b 0x48 8) else s1
  (s2.appendRecord ⟨6, b, .acct, q + 1⟩).setRegBit (pgEnergy * 0x1000 + 0x320) (if closed then 1 else 2) true
/-- Last-gasp slots in use: those that hold a dump stay until DUMP_ACK; the others are retired and erased, once the records built from the
summaries are in the accounting log (R512, R537). -/
def State.gaspIsDump (s : State) (sec : Nat) : Bool :=
  fieldAt (flashRead s.nv.flash (sec * secSize + 0x100) 4) 0 4 != 0x4143_5A4B && !blankFrom s.nv.flash sec 0x100
def State.bootGasp (s : State) : State :=
  let used : List (Nat × Nat × Nat) := (s.sectorsOf 4).filter fun e => e.2.2 != 0xFE
  let isDump : Nat × Nat × Nat → Bool := fun e => e.2.2 != 0xF0 && s.gaspIsDump e.2.1
  let recs := (s.records 6 (acctLenAt s.nv.flash)).map (·.2)
  let ckpts := recs.filter fun b => fieldAt b 4 1 == 2
  let sums := ((used.filter fun e => !isDump e && e.2.2 != 0xF0).flatMap fun e =>
    [0x100, 0x200].map fun o => flashRead s.nv.flash (e.2.1 * secSize + o) 132).filter summaryOk
  let s0 := ([0, 1, 2].foldl (fun (a : State) k => a.setRegBit (pgEnergy * 0x1000 + 0x320) k false) s).setRegBit (pgEnergy * 0x1000 + 0x320) 0 sums.isEmpty
  let s1 := sums.foldl (State.rebuild ckpts) s0
  used.foldl (fun (a : State) (e : Nat × Nat × Nat) =>
    if isDump e then { a.setFld pgTrace R.trace_DUMP_STS (if e.2.2 = 0xF8 then 2 else 4) with trace := { a.trace with dumping := some e.2.1 } }
    else if sums.isEmpty then (a.program 0 (e.2.1 * secSize + 5) [0xF0] .nothing).eraseSector e.2.1
    else { a with acct := { a.acct with gaspDue := a.acct.gaspDue ++ [e.2.1] } }) s1
/-- The accounting log resumes (R431), and half-erased last-gasp slots are erased again. -/
def State.bootAcct (s : State) : State :=
  let rs := s.records 6 (acctLenAt s.nv.flash)
  let s1 := s.noteTop (rs.filter fun (e : Nat × List Byte) => fieldAt e.2 4 1 != 2)
  let s2 := { s1 with acct := { s1.acct with nextSeq := rs.foldl (fun (m : Nat) (e : Nat × List Byte) => max m (fieldAt e.2 8 4 + 1)) 1 } }
  (s2.nv.half.filter fun sec => s2.regionOf sec == 4).foldl (fun (a : State) sec => a.eraseSector sec) s2

/-! ### The repair map (R458, R460, Tables 14.9 and 14.10) -/

/-- The valid record with the highest SEQ. -/
def State.lastMap (s : State) : Option (List Byte) :=
  (s.records 3 (mapLenAt s.nv.flash)).foldl (fun (a : Option (List Byte)) e =>
    match a with
    | none => some e.2
    | some b => if fieldAt b 8 4 < fieldAt e.2 8 4 then some e.2 else some b) none
/-- Fuse value `p` and map entry `m` combined (Table 14.9). -/
def combineRow (p m : Nat) : Nat :=
  let soft := if m % 32 ≤ 16 then m % 32 else 16
  if bitOf m 5 then p + 32 + b2n (bitOf m 6) * 64
  else if p = 16 then soft + b2n (bitOf m 6) * 64
  else if (soft = 16 ∨ soft = p) ∧ bitOf m 6 = false then p
  else p + 32 + b2n (bitOf m 6) * 64
def State.mapRows (s : State) (m : Option (List Byte)) : State :=
  (List.range 128).foldl (fun (a : State) i =>
    let e := match m with | some b => fieldAt b (0x14 + i) 1 | none => 16
    a.setQrow (i / 32) (i % 32) (combineRow (a.qhard (i / 32) (i % 32)) e)) s
/-- Failed lanes and lost channels of the map. -/
def State.mapLinks (s : State) (b : List Byte) : State :=
  let s1 := (List.range 16).foldl (fun (a : State) n =>
    a.setPort n { a.port n with failed := (List.range 9).filter fun l => bitOf (fieldAt b (0x94 + 2 * n) 2) l }) s
  (List.range 16).foldl (fun (a : State) c => if bitOf (fieldAt b 0xB4 2) c then a.setRegBit (memStsAddr c) 4 true else a) s1
/-- Cores: LOST as the map says, the lowest other one in RUN, the rest HELD until firmware releases them (R460, R486, R487). -/
def State.mapCores (s : State) (lost : Nat) : State :=
  let first := ((List.range 8).find? fun k => !bitOf lost k).getD 8
  let sts := (List.range 8).foldl (fun a k => a + (if bitOf lost k then 2 else if k = first then 0 else 1) * 4 ^ k) 0
  (s.setFld pgCluster R.cluster_CORE_STS sts).setCause 5 (lost % 256 != 0)
/-- The map at boot. What a CLUSTER reset kept stays (Table 19.5); the cores start anew. -/
def State.bootMap (s : State) : State :=
  let m := s.lastMap
  let seq := match m with | some b => fieldAt b 8 4 | none => 0
  let cores := match m with | some b => fieldAt b 0xB6 1 | none => 0
  if s.sys.kept then s.mapCores cores
  else
    let s1 := (s.mapRows m).setRegBit (pgRepair * 0x1000 + 0xC) 9 m.isNone
    let s2 := match m with | some b => s1.mapLinks b | none => s1
    (((s2.setFld pgRepair R.repair_LAST_SEQ seq).showUnack.mapCores cores).repairCauses).channelCause

/-! ### The choice of a slot (R502, R503, R506) -/

/-- What the ROM does with the slots: causes of A and B, the slot that boots, slots for BOOT_FAIL, whether TRIAL_START is written. -/
structure SlotPlan where
  causes : Nat × Nat
  slot : Option Nat
  fails : List Nat
  trial : Bool
deriving DecidableEq, Repr
/-- The cause that a slot records, by its stream: READ_ERR, or those of R500; 1 where it is incomplete. -/
def State.slotCause (s : State) (j : JState) (b : BootInfo) (slot : Nat) : Nat :=
  if (if slot = 0 then j.incA else j.incB) then 1
  else if !b.present || b.badReads.contains slot then 2
  else s.imageCause (s.slotBytes slot)
def State.planSlots (s : State) (j : JState) (b : BootInfo) : SlotPlan :=
  let broke := j.trial && j.started
  let act := (if broke then j.prev else j.active) % 2
  let other := 1 - act
  let ca := s.slotCause j b act
  let co := s.slotCause j b other
  let ends := if broke then [j.active % 2] else []
  let put := fun (x y : Nat) => if act = 0 then (x, y) else (y, x)
  let inc := if (if other = 0 then j.incA else j.incB) then 1 else 0
  if ca = 0 then ⟨put 0 inc, some act, ends, j.trial && !broke⟩
  else if co = 0 then ⟨put ca 0, some other, ends ++ (if ca = 1 then [] else [act]), false⟩
  else ⟨put ca co, none, ends, false⟩

/-! ### Starting an image (R500 steps 6 and 7) -/

/-- TYZ0's identity, roots and gateways, and both routing tables, from LINK_TABLES. -/
def State.linkTables (s : State) (t : List Byte) : State :=
  let f := fun o n => fieldAt t o n
  let s1 := (((s.setFld (pgTyz 0) R.tyz0_DEV_ID (f 0 2)).setFld (pgTyz 0) R.tyz0_DOM_ID (f 2 1)).setFld (pgTyz 0) R.tyz0_DOM_SIZE (f 4 2)).setFld (pgTyz 0)
    R.tyz0_ALIGN0_ROOT0 (f 8 2)
  let s2 := ((s1.setFld (pgTyz 0) R.tyz0_ALIGN0_ROOT1 (f 10 2)).setFld (pgTyz 0) R.tyz0_ALIGN1_ROOT2 (f 12 2)).setFld (pgTyz 0) R.tyz0_ALIGN1_ROOT3 (f 14 2)
  let s3 := (List.range 8).foldl (fun (a : State) d =>
    (a.setFld (pgTyz 0) (R.tyz0_DOM_GW_DEV.up (4 * d)) (f (16 + 2 * d) 2)).setFld (pgTyz 0) (R.tyz0_DOM_GW_VALID.up (4 * d)) 1) s2
  { s3 with tyz := { s3.tyz with routes := (List.range 16384).foldl (fun (m : SMap Nat) i => mapSet 0 m i (f (64 + 16 * i) 16)) [] } }

/-- Firmware applies GRID_BASE (R500, Table 16.9), with the placements it chose for the sections. -/
def State.applyGridBase (s : State) : State :=
  let s0 := { s with sys := { s.sys with gridDue := false } }
  ((gridEntries s.sys.image).foldl (fun (a : State × List Placement) e =>
    let t := a.1
    if fieldAt e 0 1 = 1 then
      let pg := fieldAt e 4 4 / 0x1000
      let off := fieldAt e 2 2
      let mask := fieldAt e 12 4
      let old := t.word .fw pg off
      (t.fwWrite pg off (BitVec.ofNat 32 ((old - (old &&& mask)) ||| (fieldAt e 8 4 &&& mask))), a.2)
    else
      let p := a.2.headD ⟨0, 0, 0, [], [], [], [], [], [], []⟩
      let place := { p with
        ctx := fieldAt e 1 1
        orgX := fieldAt e 2 1
        orgY := fieldAt e 3 1 }
      (t.beginLoad none place ((t.sys.image.drop (fieldAt e 5 4)).take (fieldAt e 9 4)), a.2.tail)) (s0, s0.sys.gridPlace)).1

/-- Step 6 and 7: FIRMWARE to LOAD, LINK_TABLES to TYZ0, the other cores released, the entry; firmware applies GRID_BASE once the grid is
out of its reset. `slot` 2 is the staging area. The frame engine, stopped by the reset, resumes as the firmware starts: R30 names no
resume instant after a reset, and this one is the model's choice (log entry 85). -/
def State.runImage (s : State) (img : List Byte) (slot : Nat) (places : List Placement) : State :=
  let b := img.take (imageLen img)
  let fw := (segOf b 1).getD ⟨1, 0, 0, 0x10000000⟩
  let sig := match segOf b 4 with | some x => x.bytes b | none => []
  let s2 := (s.sramWrite 0x200000 b).sramWrite (fw.load % 0x10000000) (fw.bytes b)
  let s3 := if s2.sys.kept then s2 else match segOf b 3 with | some x => s2.linkTables (x.bytes b) | none => s2
  let run := (List.range 8).foldl (fun (a : State) k =>
    if a.coreState k = 1 then a.setFld pgCluster R.cluster_CORE_STS (setBits (a.fld pgCluster R.cluster_CORE_STS) (2 * k + 1) (2 * k) 0) else a) s3
  let beat := (List.range 8).foldl (fun (a : State) k => if a.coreState k = 0 then a.setCore k { a.core k with hbAt := a.tb } else a) run
  let s4 := (bootStsBit (beat.setFld64 pgNv R.nv_IMAGE_ID (fieldAt b 0x10 8)) 0 (slot == 1))
  let s5 := { (bootStsBit s4 2 false) with sys := { s4.sys with
    booted := true
    recovery := false
    bootOkDue := slot != 2
    bootRecordDue := true
    slot := slot
    imageId := fieldAt b 0x10 8
    secVer := fieldAt sig 1 1
    image := b
    gridPlace := places
    kept := false
    resumeAt := some s4.tb } }
  if s5.grid.heldReset || !s5.grid.on_ then { s5 with sys := { s5.sys with gridDue := true } } else s5.applyGridBase

/-! ### The boot -/

/-- Records of the sessions that a reset closed (R552). -/
def State.closedRecords (s : State) : State :=
  s.sys.closeDue.foldl (fun (a : State) e => a.audit 0x11 (e.2 + 1) e.1 0 rindPage 0x60 3 0 0 0) { s with sys := { s.sys with closeDue := [] } }
/-- What boot takes from fuses (Table 19.5). -/
def State.bootFuses (s : State) : State :=
  let pkg := if bitOf s.rind.part 0 then 1400 else 1000
  let s1 := s.setFld pgNv R.nv_SEC_VER_MIN s.rind.secVer
  if s.sys.kept then s1 else (s1.setFld pgPower R.power_PKG_W pkg).setFld pgPower R.power_CAP0_W pkg
/-- The flash's journal, sectors, logs and map, read and resumed. -/
def State.bootStore (s : State) (b : BootInfo) : State × JState :=
  let (s1, j) := (s.bootFlash b).bootLog
  (((s1.bootSectors j b.weak).bootAudit.bootMap), j)
/-- Boot from a slot, or RECOVERY. -/
def State.bootSlots (s : State) (j : JState) (b : BootInfo) : State :=
  let p := s.planSlots j b
  let s1 := p.fails.foldl (fun (a : State) slot => a.jWrite ⟨0x14, 0, slot, 0, .nothing⟩) s
  let s2 := bootStsBit s1 3 (j.incA || j.incB)
  let s3 := s2.setFld pgNv R.nv_BOOT_STS (setBits (setBits (s2.fld pgNv R.nv_BOOT_STS) 11 8 p.causes.1) 15 12 p.causes.2)
  match p.slot with
  | none => { bootStsBit (s3.nvDrain 64) 2 true with sys := { s3.sys with
      recovery := true
      resumeAt := some s3.tb } }
  | some slot =>
    let s4 := (if p.trial then s3.jWrite ⟨0x15, 0, slot, 0, .nothing⟩ else s3).nvDrain 64
    s4.runImage (s4.slotBytes slot) slot b.places

/-- The calibration, the slots, the records of closed sessions and of the accounting; `kept`: there is nothing to restore. -/
def State.bootRest (s2 : State) (j : JState) (b : BootInfo) (kept : Bool) : State :=
  let s3 := (if s2.wdt.armed then s2 else s2.wdtArm).calBoot
  let s5 := b.faulty.foldl (fun (a : State) pos => a.makeFaulty pos) (s3.bootSlots j b).closedRecords
  if kept then s5.bootAcct else { s5 with acct := { s5.acct with gaspDue := [] } }.bootAcct.bootGasp
/-- The boot ROM's work: fuses, flash, and the rest where a core is in service. -/
def State.bootUp (s0 : State) (b : BootInfo) : State :=
  let (s2, j) := s0.bootFuses.bootStore b
  if (List.range 8).all fun k => s2.coreState k == 2 then s2 else s2.bootRest j b (s0.sys.kept && s0.acct.gaspDue.isEmpty)
/-- BOOT (R490 to R512, R516, R568, R577): the boot ROM and the firmware's start; after a CLUSTER reset there is nothing to restore (R436,
R584), unless it came before the records of the last gasp were in the log. A SCRAPPED device boots nothing (R563), nor does one without a core in service. -/
def execBoot (b : BootInfo) (s : State) : Host.Outcome State Fault Refusal :=
  let s0 := s.advance b.at_
  if !s0.alive || s0.sys.booted || s0.sys.recovery || s0.sys.lpPhase != .none then s.passOver "no reset has restarted the control cluster"
  else if s0.lifecycle = 4 then .next s0
  else .next (s0.bootUp b)

/-! ### RECOVERY (R504) -/

/-- A write of STAGE_DATA: 4 bytes at STAGE_ADDR of the staging area, then 4 are added. -/
def State.writeStageData (s : State) (val : Word) : State × Nat :=
  let a := s.fld pgNv R.nv_STAGE_ADDR
  let bs := (leBytes 4 val.toNat).take (0x600000 - a)
  ((s.sramWrite (0x200000 + a) bs).setFld pgNv R.nv_STAGE_ADDR ((a + 4) % 2 ^ 32), resDone)
/-- STAGE_DATA_WRITE (R504). -/
def execStageDataWrite (rq : Req) (val : Word) (s : State) : Host.Outcome State Fault Refusal :=
  .next (s.busWrite rq (pgNv * 0x1000 + 0x68) val fun t => t.writeStageData val)
/-- A write of STAGE_GO: the staged image is checked (R500 steps 2 to 7) and runs, or its cause is recorded. -/
def State.writeStageGo (s : State) (val : Word) (places : List Placement) : State × Nat :=
  if bitOf val.toNat 0 = false ∨ s.sys.recovery = false then (s, resDone)
  else
    let (t, img) := s.sramRead 0x200000 0x600000
    let c := t.imageCause img
    if c ≠ 0 then (t.setFld pgNv R.nv_BOOT_STS (setBits (t.fld pgNv R.nv_BOOT_STS) 11 8 c), resFailed)
    else (t.runImage img 2 places, resDone)
/-- STAGE_GO (R504). -/
def execStageGo (rq : Req) (places : List Placement) (s : State) : Host.Outcome State Fault Refusal :=
  .next (s.busWrite rq (pgNv * 0x1000 + 0x6C) 1 fun t => t.writeStageGo 1 places)

end Sys2Proof.Machine
end

