-- ==== Sys2Proof/Machine/HostLink.lean ====
section
/-! DEFINITION. The host link (R305 to R308, R314, R315): training, loss, hot reset and function level resets (R329, R330), MSI-X tables,
virtual functions, the host-exposed range in force. -/
namespace Sys2Proof.Machine

/-! ### The host-exposed range (R314, R315) -/

/-- The value of HDM, in GiB per channel, that CXL_CFG and the link call for. -/
def State.hdmWanted (s : State) : Nat :=
  if bitsOf (s.fld pgHost R.host_LINK_STS) 13 12 = 0 then 0 else min (s.fld pgHost R.host_CXL_CFG_HDM_GIB) (s.ilvS / 2 ^ 30 / 2)
/-- CXL_STS: HDM_CLAMPED while the minimum clamps, HDM_PENDING while a change waits, the value in force; and the range size
that the DVSEC registers report. -/
def State.showHdm (s : State) : State :=
  let w := s.hdmWanted
  let cur := s.fld (pgMem 0) R.mem_HDM
  let cl := bitsOf (s.fld pgHost R.host_LINK_STS) 13 12 != 0 && decide (w < s.fld pgHost R.host_CXL_CFG_HDM_GIB)
  let s1 := { s with sys := { s.sys with dvsecGib := s.ilvSet.length * cur } }
  s1.setFld pgHost R.host_CXL_STS (b2n cl + b2n (w != cur) * 2 + cur * 2 ^ 16)
/-- At a tick: a change takes effect where the host's decoder is not committed. -/
def State.hdmTick (s : State) : State :=
  if s.sys.hdmCommitted then s.showHdm else (s.setFld (pgMem 0) R.mem_HDM s.hdmWanted).showHdm
/-- A write of CXL_CFG. -/
def State.writeCxlCfg (s : State) (i : Iface) (val : Word) : State × Nat :=
  let (s1, r) := s.plainWrite i pgHost 0x4C val
  (s1.showHdm, r)

/-! ### Training and loss (R306, R307, R329) -/

/-- Every MSI-X entry and pending bit of the functions that satisfy a test returns to reset. -/
def State.msixReset (s : State) (p : Nat → Bool) : State :=
  { s with bus := { s.bus with
    msix := s.bus.msix.filter fun e => !p (e.1 / 2048)
    pba := s.bus.pba.filter fun k => !p (k / 2048) } }
/-- Reset the queues of the tenants that satisfy a test. -/
def State.resetTenants (s : State) (p : Nat → Bool) : State :=
  (s.tenantsTouched.filter p).foldl (fun (a : State) t => a.resetTenant t) s
def State.setSriov (s : State) (n : Nat) (on_ : Bool) : State := s.setFld pgHost R.host_SRIOV (n % 256 + b2n on_ * 2 ^ 16)
/-- A LINK reset (Table 10.15): every queue, every MSI-X table; configuration space returns to its reset values. -/
def State.linkReset (s : State) : State :=
  let s1 := ((s.resetTenants fun _ => true).msixReset fun _ => true).setSriov 0 false
  { s1 with sys := { s1.sys with hdmCommitted := false } }

/-- The control domain runs a boot or RECOVERY, and the link may come up. -/
def State.pcieUp (s : State) : Bool := s.alive && (s.sys.booted || s.sys.recovery)
/-- The link is in L0 at a rate, a width and the CXL version that both partners and CXL_CFG offer; LINK_UP where it was down. -/
def State.linkUp (s : State) (rate width : Nat) (flit : Bool) (cxl : Nat) : State :=
  let s1 := s.setFld pgHost R.host_LINK_STS (rate + width * 16 + b2n flit * 2 ^ 9 + min cxl (s.fld pgHost R.host_CXL_CFG_MODE) * 2 ^ 12)
  (if s.fld pgHost R.host_LINK_STS % 4 != 0 then s1 else s1.event pgHost 1).showHdm
/-- HOST_LINK_TRAIN (R306, R307): rate code, width, FLIT mode and the highest CXL version both partners offer. Below x4 the device stays out
of L0. -/
def execHostLinkTrain (rate width : Nat) (flit : Bool) (cxl : Nat) (at_ : Dword) (s : State) : Host.Outcome State Fault Refusal :=
  let s1 := s.advance at_
  let up := s1.fld pgHost R.host_LINK_STS % 4 != 0
  if !s1.pcieUp ∨ rate = 0 ∨ 3 < rate ∨ !([1, 2, 4, 8, 16].contains width) then s.passOver "the host link does not train so"
  else if width < 4 then (if up then s.passOver "the link is in L0" else .next s1)
  else .next (s1.linkUp rate width flit cxl)
/-- HOST_LINK_DOWN (R329): as a LINK reset. -/
def execHostLinkDown (at_ : Dword) (s : State) : Host.Outcome State Fault Refusal :=
  let s1 := s.advance at_
  if s1.fld pgHost R.host_LINK_STS % 4 = 0 then s.passOver "the link is down"
  else .next (((s1.setFld pgHost R.host_LINK_STS 0).linkReset.event pgHost 0).showHdm)
/-- HOT_RESET (R329). -/
def execHotReset (at_ : Dword) (s : State) : Host.Outcome State Fault Refusal := s.onClock <|
  let s1 := s.advance at_
  if s1.fld pgHost R.host_LINK_STS % 4 = 0 then s.passOver "the link is down" else .next s1.linkReset

/-- FLR_VF (R329): the tenants that the VF holds; its table. -/
def execFlrVf (v : Nat) (at_ : Dword) (s : State) : Host.Outcome State Fault Refusal := s.onClock <|
  let s1 := s.advance at_
  if !s1.vfEnabled v then s.passOver "the VF is not enabled"
  else .next ((s1.resetTenants fun t => s1.fld (pgTenant t) R.tenant_FN_EFF % 256 == v).msixReset fun fn => fn == 1 + v)
/-- FLR_PF1 (R329): every tenant; PF1's table and the VFs'; the VFs are disabled. -/
def execFlrPf1 (at_ : Dword) (s : State) : Host.Outcome State Fault Refusal := s.onClock <|
  .next ((((s.advance at_).resetTenants fun _ => true).msixReset fun fn => fn != 0).setSriov 0 false)
/-- FLR_PF0 (R329, R552): PF0's table; the session opened through PF0 closes. -/
def execFlrPf0 (at_ : Dword) (s : State) : Host.Outcome State Fault Refusal := s.onClock <|
  .next (((s.advance at_).msixReset fun fn => fn == 0).closeSessions 4 fun k _ => k == 0)

/-! ### MSI-X tables and virtual functions (R330, R608, R623) -/

/-- Entries of a function's table. -/
def msixSize (fn : Nat) : Nat := if fn = 0 then 64 else 2048
/-- Set a table entry; unmasked, a held message is sent. -/
def State.setMsix (s : State) (key : Nat) (e : MsixEntry) : State :=
  let s1 := { s with bus := { s.bus with msix := mapSet MsixEntry.zero s.bus.msix key e } }
  if !e.masked && s1.bus.pba.contains key then
    ({ s1 with bus := { s1.bus with pba := s1.bus.pba.erase key } }.emit (.msix (key / 2048) (key % 2048) e.addr e.data)).bump pgMsix R.msix_SENT 0 1
  else s1
/-- MSIX_VECTOR_UNMASK (R608): the host writes an entry's address and data and unmasks it. -/
def execMsixVectorUnmask (fn vec : Nat) (addr : Dword) (data : Word) (s : State) : Host.Outcome State Fault Refusal := s.onClock <|
  if msixSize fn ≤ vec ∨ 256 < fn then s.passOver "no such vector" else .next (s.setMsix (fn * 2048 + vec) ⟨addr, data, false⟩)
/-- A word of a function's MSI-X table (16 bytes an entry), written and read. -/
def State.writeMsix (s : State) (fn off : Nat) (val : Word) : State :=
  let key := fn * 2048 + off / 16
  let e := mapGet MsixEntry.zero s.bus.msix key
  let k := off % 16 / 4
  if msixSize fn ≤ off / 16 then s
  else s.setMsix key (if k = 0 then { e with addr := e.addr / 2 ^ 32 * 2 ^ 32 + val.setWidth 64 }
    else if k = 1 then { e with addr := BitVec.ofNat 64 (e.addr.toNat % 2 ^ 32 + val.toNat * 2 ^ 32) }
    else if k = 2 then { e with data := val } else { e with masked := val.getLsbD 0 })
def State.readMsix (s : State) (fn off : Nat) : Word :=
  let e := mapGet MsixEntry.zero s.bus.msix (fn * 2048 + off / 16)
  let k := off % 16 / 4
  if msixSize fn ≤ off / 16 then 0
  else if k = 0 then e.addr.setWidth 32 else if k = 1 then (e.addr / 2 ^ 32).setWidth 32 else if k = 2 then e.data else BitVec.ofNat 32 (b2n e.masked)
/-- A word of a function's PBA. -/
def State.readPba (s : State) (fn off : Nat) : Word :=
  BitVec.ofNat 32 ((List.range 32).foldl (fun a i => a + b2n (s.bus.pba.contains (fn * 2048 + off * 8 + i)) * 2 ^ i) 0)

/-- NumVFs and VF_ENABLE; VFs that are no longer enabled lose their tables. -/
def State.vfsEnabled (s : State) (n : Nat) (on_ : Bool) : State :=
  let s1 := s.setSriov n on_
  s1.msixReset fun fn => decide (1 < fn) && !s1.vfEnabled (fn - 1)
/-- SRIOV_VF_ENABLE (R330). -/
def execSriovVfEnable (n : Nat) (on_ : Bool) (s : State) : Host.Outcome State Fault Refusal := s.onClock <|
  if 255 < n then s.passOver "TotalVFs is 255" else .next (s.vfsEnabled n on_)
/-- HDM_DECODER_COMMIT (R315). -/
def execHdmDecoderCommit (commit : Bool) (s : State) : Host.Outcome State Fault Refusal := s.onClock <|
  .next { s with sys := { s.sys with hdmCommitted := commit } }

end Sys2Proof.Machine
end

