-- ==== Sys2Proof/Machine/RegReads.lean ====
section
/-! DEFINITION. Register reads (R22, R545, R609, R610): 64-bit latches, record windows, the views of the STREAM page, MSI-X tables. -/
namespace Sys2Proof.Machine

/-! ### Record windows (R610) -/

/-- The record that an IDX register selects in the window whose DATA register is named; none where the word is no DATA register. -/
def State.windowRecord (s : State) (pg off : Nat) : Option (Nat × List Byte) :=
  let find := fun (r : Nat) (len : Nat → Nat) (seq : Nat) =>
    match ((s.records r len).map (·.2)).filter fun b => fieldAt b 8 4 == seq with
    | [] => []
    | b :: bs => (b :: bs).getLastD b
  if pg = pgEnergy ∧ off = 0x314 then some (0x310, find 6 (acctLenAt s.nv.flash) (s.fld pgEnergy R.energy_LOG_IDX))
  else if pg = pgAudit ∧ off = 0xF4 then some (0xF0, find 5 (auditLenAt s.nv.flash) (s.fld pgAudit R.audit_LOG_IDX))
  else if pg = pgTrace ∧ off = 0x98 then
    let i := s.fld pgTrace R.trace_DUMP_IDX
    some (0x94, match s.trace.dumping with
      | none => []
      | some sec =>
        let b := flashRead s.nv.flash (sec * secSize + 0x100 + 32 * i) 32
        if i < 2040 ∧ b.any (· != 0xFF) then b else [])
  else if pg = pgStream ∧ off = 0x504 then
    let v := (s.reg (pgStream * 0x1000 + 0x500)).toNat
    some (0x500, match (s.engine (bitsOf v 4 0)).cpl.find? fun e => e.1 == bitsOf v 15 8 with
      | none => []
      | some e => leBytes 1 e.2.1 ++ leBytes 1 e.2.2.1 ++ leBytes 2 0 ++ leBytes 4 e.2.2.2)
  else none

/-! ### The STREAM page (R619) -/

/-- SE_STS and SE_POS of an engine, computed from its first job. -/
def State.streamWord (s : State) (off : Nat) : Option Nat :=
  let k := (off - 0x100) / 0x20
  let g := s.engine k
  let j := g.jobs.head?
  if off < 0x100 ∨ 0x500 ≤ off then none
  else if off % 0x20 = 0xC then
    let susp := match j with | some x => s.stopped x.region | none => false
    let sat := s.fld64 pgStream (kReg R.stream_MIG_CNT0 k) == 2 ^ 64 - 1
    let row := match j with | some x => x.moved / max x.upr 1 | none => 0
    some (b2n j.isSome + b2n g.paused * 2 + b2n susp * 4 + b2n sat * 8 + row % 65536 * 65536)
  else if off % 0x20 = 0x10 then some (match j with | some x => x.moved % max x.upr 1 * 64 | none => 0)
  else none
/-- A word as a requester reads it, with the views that no register holds. -/
def State.viewWord (s : State) (i : Iface) (pg off : Nat) : Word :=
  let own := if pg = pgStream then s.streamWord off else if pg = pgTyz 0 && off == 0x108 && !s.portTrained then some 1 else none
  match if s.mayRead i pg off then own else none with
  | some v => BitVec.ofNat 32 v
  | none => s.readWord i pg off

/-! ### Reads -/

/-- The function whose MSI-X table an interface's BAR0 holds; VF tables lie outside the register pages. -/
def msixFn (i : Iface) : Option Nat :=
  match i with
  | .pf0 => some 0 | .fn => some 1 | .uart => none | .mgmt => none | .jtag => none | .fw => none
/-- What a read returns, and what it leaves: latches and record windows move on. -/
def State.readReg (s : State) (i : Iface) (addr : Nat) : State × Word :=
  let pg := addr / 0x1000
  let off := addr % 0x1000
  let hi := fun (a : Nat) => (mapGet none s.bus.latch a)
  if 0x28000 ≤ addr ∧ addr < 0x30000 then (s, match msixFn i with | some fn => s.readMsix fn (addr % 0x8000) | none => 0)
  else if 0x30000 ≤ addr ∧ addr < 0x31000 then (s, match msixFn i with | some fn => s.readPba fn (addr % 0x1000) | none => 0)
  else if !s.mayRead i pg off then (s, 0)
  else if isPart .low pg off then
    ({ s with bus := { s.bus with latch := mapSet none s.bus.latch (addr + 4) (some (s.viewWord i pg (off + 4))) } }, s.viewWord i pg off)
  else
    match hi addr, s.windowRecord pg off with
    | some w, _ => ({ s with bus := { s.bus with latch := mapSet none s.bus.latch addr none } }, w)
    | none, some (idx, b) =>
      let a := pg * 0x1000 + idx
      let o := mapGet 0 s.bus.winOff a
      ({ s with bus := { s.bus with winOff := mapSet 0 s.bus.winOff a (o + 4) } }, wordOf (takePad 0 4 ((b.drop o).take 4)))
    | none, none => (s, s.viewWord i pg off)
/-- BAR0 of VF `v` in the addresses of the host's functions: from `v` · 64 MiB (assumption 93). -/
def vfOf (rq : Req) (addr : Nat) : Option Nat := if rq.iface = .fn ∧ 2 ^ 26 ≤ addr then some (addr / 2 ^ 26) else none
/-- A read in BAR0 of VF `v` (R309, R313): a window onto its tenant's page, the VF's MSI-X table and PBA; an empty window reads 0. -/
def State.readVf (s : State) (v off : Nat) : State × Word :=
  if off < 0x8000 then
    (match s.tenantOf v (off / 0x1000) with
    | some t => s.readReg .fn (pgTenant t * 0x1000 + off % 0x1000)
    | none => (s, 0))
  else if 0x10000 ≤ off ∧ off < 0x18000 then (s, s.readMsix (1 + v) (off - 0x10000))
  else if 0x18000 ≤ off ∧ off < 0x18100 then (s, s.readPba (1 + v) (off - 0x18000))
  else (s, 0)
/-- A read that is answered: THERM.TRIP_LOG lies in the always-on domain and stays readable over the management bus (R596, R641). -/
def State.readAnswers (s : State) (i : Iface) (addr : Nat) : Bool :=
  s.busAnswers i || (s.sys.on_ && i == .mgmt && [0x50, 0x54, 0x58].any fun o => addr == pgTherm * 0x1000 + o)
/-- A read over the register bus, or through a VF's BAR0: the value goes to its requester. -/
def State.busRead (s : State) (rq : Req) (addr : Nat) : State :=
  let s0 := ((s.advance rq.at_).flushNotes).touch rq.iface
  if !s0.readAnswers rq.iface addr then s0
  else match vfOf rq addr with
  | some v => if !s0.vfEnabled v then s0.emit .unsupported else let (s1, w) := s0.readVf v (addr % 2 ^ 26); s1.emit (.regData rq w)
  | none =>
    let (s1, w) := s0.readReg rq.iface addr
    s1.emit (.regData rq w)

/-- READ_LOW_WORD_LATCH (R609): the high word is latched for its next read. -/
def execReadLowWordLatch (rq : Req) (addr : Nat) (s : State) : Host.Outcome State Fault Refusal := .next (s.busRead rq addr)
/-- RECORD_WINDOW_DATA_READ (R610): the next 4 bytes of the record. -/
def execRecordWindowDataRead (rq : Req) (addr : Nat) (s : State) : Host.Outcome State Fault Refusal := .next (s.busRead rq addr)

end Sys2Proof.Machine
end

