-- ==== Sys2Proof/Machine/RegWrite.lean ====
section
/-! DEFINITION. Register writes (R7, R11, R440, R444, R602 to R614): the body of a write for every page, and the rows that are register
writes of no other row; the reset of a page (R604). -/
namespace Sys2Proof.Machine

/-! ### Pages whose words have rules of their own -/

/-- FRAME (R21, R30, R600). -/
def State.writeFrame (s : State) (i : Iface) (off : Nat) (val : Word) : State × Nat :=
  if off = 8 then
    let s1 := s.writeCtl pgFrame val
    let en := bitOf val.toNat 0
    (if en && !s1.enabled then { s1.setFld pgFrame R.hdr_CTL_ENABLE 1 with sys := { s1.sys with resumeAt := some s1.tb } }
     else if !en && s1.enabled then s1.setFld pgFrame R.hdr_CTL_ENABLE 0 else s1, resDone)
  else if off < 0x48 then s.writeHeader i pgFrame off val
  else if off = 0x50 ∨ off = 0x98 then
    let (s1, r) := s.plainWord i pgFrame off val
    (s1.sourceChanged s.discSource, r)
  else if off = 0x48 ∨ off = 0x70 then (s.holdLow pgFrame off val, resDone)
  else if off = 0x4C then
    (if s.enabled then (s.reservedWrite i pgFrame off val, resReserved) else (s.setTimebase (BitVec.ofNat 64 (s.committed pgFrame off val)), resDone))
  else if off = 0x74 then
    (if s.enabled then (s.reservedWrite i pgFrame off val, resReserved) else (s.setFld64 pgFrame R.frame_EPOCH (s.committed pgFrame off val), resDone))
  else s.plainWord i pgFrame off val
/-- The key index that SCHED.PROFILE and POWER.EPROFILE share. -/
def State.setProfileIdx (s : State) (v : Nat) : State := (s.setFld pgSched R.sched_PROFILE_IDX v).setFld pgPower R.power_EPROFILE_IDX v
/-- SCHED (R393). -/
def State.writeSched (s : State) (i : Iface) (off : Nat) (val : Word) : State × Nat :=
  if off < 0x48 then s.writeHeader i pgSched off val
  else if off = 0x100 then (s.setProfileIdx (val.toNat % 256), resDone)
  else if off = 0x10C then
    let f := fun (e : Nat × Profile) =>
      if e.1 = s.fld pgSched R.sched_PROFILE_IDX then (e.1, { e.2 with add := bitsOf val.toNat 23 16 }) else e
    ({ s with work := { s.work with profile := s.work.profile.map f } }, resDone)
  else s.plainWord i pgSched off val
/-- POWER.DVFS word 1 (R7, R405): a value that is no point keeps its field; a MIN above MAX keeps MIN, and MAX too where it lies below the
MIN that stays (log entry 54). A locked page ignores both. -/
def State.writeDvfs1 (s : State) (i : Iface) (val : Word) : State × Nat :=
  let above := fun (t : State) => decide (t.fld pgPower R.power_DVFS1_MAX_MHZ < t.fld pgPower R.power_DVFS1_MIN_MHZ)
  let back := fun (t : State) (f : Fld) => if above t then t.setFld pgPower f (s.fld pgPower f) else t
  let (s1, r) := s.writeFields pgPower 0x5C val (fieldsAt pgPower 0x5C)
  if r = resReserved ∨ above s1 then
    ((back (back s1 R.power_DVFS1_MIN_MHZ) R.power_DVFS1_MAX_MHZ).reservedWrite i pgPower 0x5C val, resReserved)
  else (s1, r)
/-- POWER (R404, R405, R589). -/
def State.writePower (s : State) (i : Iface) (off : Nat) (val : Word) : State × Nat :=
  if off < 0x48 then s.writeHeader i pgPower off val
  else if off = 0x5C then s.writeDvfs1 i val
  else if off = 0x68 then (s.setProfileIdx (val.toNat % 256), resDone)
  else if off = 0xC0 then s.writeLp i val
  else s.plainWord i pgPower off val
/-- The index of a record window: it selects a record and sets the read offset to 0. -/
def State.selectRecord (s : State) (pg off : Nat) (val : Word) : State × Nat :=
  ((s.setReg (pg * 0x1000 + off) val).rewind (pg * 0x1000 + off), resDone)
/-- ENERGY (R423, R426). -/
def State.writeEnergy (s : State) (i : Iface) (off : Nat) (val : Word) : State × Nat :=
  if off < 0x48 then s.writeHeader i pgEnergy off val
  else if off = 0x68 then (s.holdLow pgEnergy off val, resDone)
  else if off = 0x6C then (s.writeWall (BitVec.ofNat 64 (s.committed pgEnergy off val)), resDone)
  else if off = 0x310 then s.selectRecord pgEnergy off val
  else
    let (s1, r) := s.plainWord i pgEnergy off val
    if r = resDone ∧ ((0x100 ≤ off ∧ off < 0x200) ∨ off = 0x204) then ({ s1 with acct := { s1.acct with tariffDue := true } }, r) else (s1, r)
/-- WDT (R517 to R519, R528). -/
def State.writeWdtPage (s : State) (i : Iface) (off : Nat) (val : Word) : State × Nat :=
  if off = 8 then ((((s.plainWrite i pgWdt off val).1).writeCtl pgWdt val).wdtFreeze, resDone)
  else if off < 0x48 then s.writeHeader i pgWdt off val
  else if off ≤ 0x54 then s.writeWdt i off val
  else if off = 0x58 then s.writeSvc i val
  else s.plainWrite i pgWdt off val
/-- TRACE (R530 to R537). -/
def State.writeTrace (s : State) (i : Iface) (off : Nat) (val : Word) : State × Nat :=
  if off = 8 then let (s1, r) := s.writeTraceCtl i val; (s1.writeCtl pgTrace val, r)
  else if off < 0x48 then s.writeHeader i pgTrace off val
  else if 0x80 ≤ off ∧ off < 0x90 then s.writeFwRec off val
  else if off = 0x90 then s.writeDump val
  else if off = 0x94 then s.selectRecord pgTrace off val
  else if off = 0x9C then s.writeDumpAck val
  else s.plainWord i pgTrace off val
/-- RAS (R439 to R441): ALERT_N rises once no FATAL bit is set. -/
def State.writeRas (s : State) (i : Iface) (off : Nat) (val : Word) : State × Nat :=
  let head := s.fld pgRas R.ras_LOG_HEAD
  let ack := s.fld pgRas R.ras_LOG_ACK
  let v := val.toNat % 512
  if off < 0x48 then s.writeHeader i pgRas off val
  else if off = 0x58 then
    (if (head + 512 - v) % 512 ≤ (head + 512 - ack) % 512 then (s.setFld pgRas R.ras_LOG_ACK v, resDone)
     else (s.reservedWrite i pgRas off val, resReserved))
  else if off = 0x60 then
    (if val = 0 then ((List.range 6).foldl (fun (a : State) k => a.setReg (pgRas * 0x1000 + 0x60 + 4 * k) 0) s, resDone)
     else (s.reservedWrite i pgRas off val, resReserved))
  else
    let (s1, r) := s.plainWord i pgRas off val
    (if s.fld pgRas R.ras_FATAL_STS ≠ 0 ∧ s1.fld pgRas R.ras_FATAL_STS = 0 then s1.emit (.pin pinAlert 1 s1.tb) else s1, r)
/-- REPAIR (R448, R455, R461). -/
def State.writeRepair (s : State) (i : Iface) (off : Nat) (val : Word) : State × Nat :=
  if off = 8 then let (s1, r) := s.plainWrite i pgRepair off val; (s1.writeCtl pgRepair val, r)
  else if off < 0x48 then s.writeHeader i pgRepair off val
  else if off = 0x58 then s.writeRepairApply val
  else if off = 0x64 then
    (if val.toNat % 2 = 1 ∧ s.sys.refill ≠ 0 then { s with sys := { s.sys with refill := 2 } } else s, resDone)
  else if off = 0x70 then let (s1, r) := s.plainWrite i pgRepair off val; (s1.showUnack, r)
  else if off = 0x74 then s.writeRepairClear i val
  else s.plainWord i pgRepair off val
/-- NV (R496, R504, R513, R562). -/
def State.writeNv (s : State) (i : Iface) (off : Nat) (val : Word) (image : List Byte) (how : ReadEnd) (places : List Placement) : State × Nat :=
  if off < 0x48 then s.writeHeader i pgNv off val
  else if off = 0x60 then s.writeSecVer i val
  else if off = 0x68 then s.writeStageData val
  else if off = 0x6C then s.writeStageGo val places
  else if off = 0x80 then s.writeUpdCtl i val image how
  else if off = 0x90 ∨ off = 0x94 then s.writeAck i off val
  else s.plainWord i pgNv off val
/-- RIND (R548 to R565). -/
def State.writeRind (s : State) (i : Iface) (off : Nat) (val : Word) : State × Nat :=
  let bs := leBytes 4 val.toNat
  if off < 0x48 then s.writeHeader i pgRind off val
  else if off = 0x60 then s.writeSessCtl i val
  else if 0xA0 ≤ off ∧ off < 0x100 then s.writeSessResp i off val
  else if off = 0x100 then s.writeKeyCtl i val
  else if 0x110 ≤ off ∧ off < 0x15C then ({ s with rind := { s.rind with blob := mapWrite 0 s.rind.blob (off - 0x110) bs } }, resDone)
  else if 0x160 ≤ off ∧ off < 0x190 then ({ s with rind := { s.rind with clear := mapWrite 0 s.rind.clear (off - 0x160) bs } }, resDone)
  else if off = 0x1A0 then s.burnMfuse i val
  else if 0x1B0 ≤ off ∧ off < 0x210 then ({ s with rind := { s.rind with mdata := mapWrite 0 s.rind.mdata (off - 0x1B0) bs } }, resDone)
  else if off = 0x224 then s.writeLcGo i val
  else if off = 0x22C then s.writeConsent i val
  else s.plainWrite i pgRind off val
/-- CAL (R574, R577). -/
def State.writeCal (s : State) (i : Iface) (off : Nat) (val : Word) : State × Nat :=
  if off = 8 then ((s.writeCalCtl i val).writeCtl pgCal val, resDone)
  else if off < 0x48 then s.writeHeader i pgCal off val
  else if off = 0x48 then s.writeCalIdx i val
  else if off = 0x4C then s.writeCalUser i val
  else s.plainWrite i pgCal off val
/-- AUDIT (R571, R610). -/
def State.writeAuditPage (s : State) (i : Iface) (off : Nat) (val : Word) : State × Nat :=
  if off < 0x48 then s.writeHeader i pgAudit off val
  else if off < 0x78 then s.writeAttest i off val
  else if off = 0xF0 then s.selectRecord pgAudit off val
  else s.plainWrite i pgAudit off val
/-- An entry of the routing shadow, committed by its fourth word (R347, R614): its reserved bits 6 and 5 of byte 15 are not kept (R6), and
an NHOPS above 24 is a reserved encoding (Table 11.9). -/
def State.writeRoute (s : State) (i : Iface) (off : Nat) (val : Word) : State × Nat :=
  let a := pgTyz 0 * 0x1000 + 0x120
  if off ≠ 0x12C then (s.holdWord (a + (off - 0x120)) val, resDone)
  else
    let k := s.fld (pgTyz 0) R.tyz0_RT_IDX_TABLE * 8192 + s.fld (pgTyz 0) R.tyz0_RT_IDX_DEV
    s.entryWrite i (pgTyz 0) off val (mapGet 0 s.tyz.routesSh k / 2 ^ 96) 0x9FFFFFFF [(28, 24, fun n => decide (n ≤ 24))] fun t w =>
      let ws := t.heldWords a 3 ++ [w]
      let v := (List.range 4).foldl (fun n j => n + (ws.getD j 0).toNat * 2 ^ (32 * j)) 0
      { t.dropHeld a 4 with tyz := { t.tyz with routesSh := mapSet 0 t.tyz.routesSh k v } }
/-- The fields with reserved encodings of word `j` of a collective entry (R358): OP 0x11 to 0x14, PARENT a port or ROOT, and at the root,
which `parent` tells, LEAVES of at least 1. -/
def collEntryFields (j parent : Nat) : List (Nat × Nat × (Nat → Bool)) :=
  if j = 0 then [(23, 16, fun v => decide (0x11 ≤ v) && decide (v ≤ 0x14))]
  else if j = 1 then [(4, 0, fun v => decide (v ≤ 15) || v == 31)]
  else if parent = 31 then [(12, 0, fun v => decide (1 ≤ v) && decide (v ≤ 8191))] else []
/-- An entry of the collective table, committed by its third word (R358, R614). -/
def State.writeColl (s : State) (i : Iface) (off : Nat) (val : Word) : State × Nat :=
  let a := pgTyz 0 * 0x1000 + 0x154
  let j := (off - 0x154) / 4
  let base := if s.tyz.collShadowed then s.tyz.collSh else s.tyz.coll
  let e := 4 * s.fld (pgTyz 0) R.tyz0_COLL_IDX
  let mask := if j = 0 then 0x83FF0FFF else if j = 1 then 0xFFFF011F else 0x1FFF
  s.entryWrite i (pgTyz 0) off val (mapGet 0 base (e + j)).toNat mask
    (collEntryFields j (bitsOf ((s.heldWords a 2).getD 1 0).toNat 4 0)) fun t w =>
      if j ≠ 2 then t.holdWord (a + 4 * j) w
      else { t.dropHeld a 3 with tyz := { t.tyz with
        collSh := mapWrite 0 base e (t.heldWords a 2 ++ [w])
        collShadowed := true } }
/-- TYZn (R333, R347, R358, R625). -/
def State.writeTyz (s : State) (i : Iface) (n off : Nat) (val : Word) : State × Nat :=
  let a := pgTyz n * 0x1000
  if off < 0x48 then s.writeHeader i (pgTyz n) off val
  else if off = 0x48 then s.writeTyzCfg i n val
  else if n ≠ 0 then s.plainWord i (pgTyz n) off val
  else if off = 0x110 then (((s.dropHeld (a + 0x120) 4).setReg (a + off) (val &&& 0x11FFF)), resDone)
  else if 0x120 ≤ off ∧ off < 0x130 then s.writeRoute i off val
  else if off = 0x134 then
    let s1 := (s.setFld64 (pgTyz 0) R.tyz0_RT_SWAP_AT (s.committed (pgTyz 0) off val)).setFld (pgTyz 0) R.tyz0_RT_CTL_PENDING 1
    ({ s1 with tyz := { s1.tyz with swapDue := true } }, resDone)
  else if off = 0x138 then
    (if bitOf val.toNat 1 then { s with tyz := { s.tyz with routesSh := s.tyz.routes } } else s, resDone)
  else if off = 0x150 then s.writeIdx i (pgTyz 0) off 256 3 val
  else if 0x154 ≤ off ∧ off < 0x160 then s.writeColl i off val
  else s.plainWord i (pgTyz 0) off val
/-- ETHk (R626). -/
def State.writeEth (s : State) (i : Iface) (k off : Nat) (val : Word) : State × Nat :=
  if off < 0x48 then s.writeHeader i (pgEth k) off val
  else if off = 0x48 then s.writeEthCfg i k val
  else s.plainWord i (pgEth k) off val
/-- CLUSTER: a heartbeat (R471). -/
def State.writeCluster (s : State) (i : Iface) (off : Nat) (val : Word) : State × Nat :=
  if off < 0x48 then s.writeHeader i pgCluster off val
  else if 0x50 ≤ off ∧ off < 0x70 then
    let k := (off - 0x50) / 4
    if s.coreState k = 2 then (s, resDone)
    else let s1 := (s.plainWrite i pgCluster off val).1; (s1.setCore k { s1.core k with hbAt := s1.tb }, resDone)
  else s.plainWrite i pgCluster off val

/-- POLICY words written wait for tick step 9 (R380). -/
def State.policyDue (s : State) (off : Nat) : State :=
  let k := if off < 0x88 then 2 else 1
  { s with work := { s.work with adapt := { s.work.adapt with due := max s.work.adapt.due k } } }
/-- POLICY (R380). -/
def State.writePolicy (s : State) (i : Iface) (off : Nat) (val : Word) : State × Nat :=
  if off < 0x48 then s.writeHeader i pgPolicy off val
  else
    let (s1, r) := s.plainWord i pgPolicy off val
    (if r = resDone then s1.policyDue off else s1, r)

/-- The body of a write of a word. `image`, `how` and `places` serve a write that starts an image update or a staged image. -/
def State.writeBody (s : State) (i : Iface) (pg off : Nat) (val : Word) (image : List Byte) (how : ReadEnd) (places : List Placement) :
    State × Nat :=
  match pageKind pg with
  | none => (s, resFailed)
  | some k => match k with
    | .top => if off < 0x48 then s.writeHeader i pg off val else if off = 0x54 then s.writeRst i val else s.plainWord i pg off val
    | .frame => s.writeFrame i off val
    | .sched => s.writeSched i off val
    | .power => s.writePower i off val
    | .energy => s.writeEnergy i off val
    | .wdt => s.writeWdtPage i off val
    | .trace => s.writeTrace i off val
    | .ras => s.writeRas i off val
    | .repair => s.writeRepair i off val
    | .nv => s.writeNv i off val image how places
    | .rind => s.writeRind i off val
    | .cal => s.writeCal i off val
    | .audit => s.writeAuditPage i off val
    | .host => if off < 0x48 then s.writeHeader i pg off val else if off = 0x4C then s.writeCxlCfg i val else s.plainWord i pg off val
    | .tyz => s.writeTyz i (pg - pageBase k) off val
    | .eth => s.writeEth i (pg - pageBase k) off val
    | .cluster => s.writeCluster i off val
    | .stream => s.writeStream i off val
    | .cell => s.writeCell i (pg - pageBase k) off val
    | .tenant => if off < 0x48 then s.writeHeader i pg off val else s.writeTenant i (pg - pageBase k) off 0 0 val
    | .policy => s.writePolicy i off val
    | .therm | .msix | .mem | .press => if off < 0x48 then s.writeHeader i pg off val else s.plainWord i pg off val

/-- A write in BAR0 of VF `v` (R309, R313, R608): a window, or the VF's MSI-X table. -/
def State.writeVf (s : State) (v off : Nat) (val : Word) : State :=
  if off < 0x8000 then s.windowWrite v (off / 0x1000) (off % 0x1000) val
  else if 0x10000 ≤ off ∧ off < 0x18000 then s.writeMsix (1 + v) (off - 0x10000) val
  else s
/-- A write of any word a requester can address. -/
def State.writeReg (s : State) (rq : Req) (addr : Nat) (val : Word) (image : List Byte) (how : ReadEnd) (places : List Placement) : State :=
  match vfOf rq addr with
  | some v =>
    let s0 := s.advance rq.at_
    if !s0.busAnswers rq.iface then s0 else if s0.vfEnabled v then s0.writeVf v (addr % 2 ^ 26) val else s0.emit .unsupported
  | none =>
  if 0x28000 ≤ addr ∧ addr < 0x30000 then
    (let s0 := s.advance rq.at_
    if !s0.busAnswers rq.iface then s0
    else match msixFn rq.iface with
    | some fn => s0.writeMsix fn (addr % 0x8000) val
    | none => s0)
  else s.busWrite rq addr val fun t => t.writeBody rq.iface (addr / 0x1000) (addr % 0x1000) val image how places

/-! ### The rows -/

/-- REG_WRITE (R11). -/
def execRegWrite (rq : Req) (addr : Nat) (val : Word) (image : List Byte) (how : ReadEnd) (places : List Placement) (s : State) :
    Host.Outcome State Fault Refusal := .next (s.writeReg rq addr val image how places)
/-- WRITE_HIGH_WORD_COMMIT (R609): both words of a 64-bit register are committed. -/
def execWriteHighWordCommit (rq : Req) (addr : Nat) (val : Word) (s : State) : Host.Outcome State Fault Refusal :=
  .next (s.writeReg rq addr val [] .failed [])
/-- RECORD_WINDOW_IDX_WRITE (R610). -/
def execRecordWindowIdxWrite (rq : Req) (addr : Nat) (val : Word) (s : State) : Host.Outcome State Fault Refusal :=
  .next (s.writeReg rq addr val [] .failed [])
/-- TABLE_WINDOW_COMMIT (R614): the last word of an entry. -/
def execTableWindowCommit (rq : Req) (addr : Nat) (val : Word) (s : State) : Host.Outcome State Fault Refusal :=
  .next (s.writeReg rq addr val [] .failed [])
/-- ERR_LOG_CLEAR (R440): 0 written to ERR_LOG0 of a page. -/
def execErrLogClear (rq : Req) (pg : Nat) (s : State) : Host.Outcome State Fault Refusal :=
  .next (s.writeReg rq (pg * 0x1000 + 0x24) 0 [] .failed [])
/-- COUNTER_CLEAR (R444): 0 written to a counter. -/
def execCounterClear (rq : Req) (addr : Nat) (s : State) : Host.Outcome State Fault Refusal :=
  .next (s.writeReg rq addr 0 [] .failed [])
/-- CTL of a page with its other bits as they are. -/
def State.ctlWith (s : State) (pg v : Nat) : Word := (s.reg (pg * 0x1000 + 8)) ||| BitVec.ofNat 32 v
/-- PAGE_CTL_RESET (R604). -/
def execPageCtlReset (rq : Req) (pg : Nat) (s : State) : Host.Outcome State Fault Refusal :=
  .next (s.writeReg rq (pg * 0x1000 + 8) (s.ctlWith pg 2) [] .failed [])
/-- PAGE_CTL_LOCK (R605). -/
def execPageCtlLock (rq : Req) (pg : Nat) (s : State) : Host.Outcome State Fault Refusal :=
  .next (s.writeReg rq (pg * 0x1000 + 8) (s.ctlWith pg 4) [] .failed [])
/-- UART_REG_ACCESS (R542): a read or a write over the UART, with its session's rights. -/
def execUartRegAccess (write : Bool) (addr : Nat) (val : Word) (at_ : Dword) (image : List Byte) (how : ReadEnd) (places : List Placement)
    (s : State) : Host.Outcome State Fault Refusal :=
  let rq : Req := ⟨.uart, at_⟩
  if write then .next (s.writeReg rq addr val image how places)
  else
    let s0 := (s.advance at_).touch .uart
    if !s0.busAlive then .next s0
    else let (s1, v) := s0.readReg .uart addr; .next (s1.emit (.uart v))
/-- PLDM_EFFECTER_WRITE (R539, Table 17.10): POWER.CAP.W, within an installer or maker session over the management bus. -/
def execPldmEffecterWrite (w : Nat) (at_ : Dword) (s : State) : Host.Outcome State Fault Refusal :=
  let s0 := s.advance at_
  if s0.roleOf .mgmt = roleInstaller ∨ s0.roleOf .mgmt = roleMaker then
    let v := BitVec.ofNat 32 (setBits (s0.reg (pgPower * 0x1000 + 0x4C)).toNat 10 0 w)
    .next ((s0.writeReg ⟨.mgmt, at_⟩ (pgPower * 0x1000 + 0x4C) v [] .failed []).emit (.mgmt 0 w))
  else .next (s0.emit (.mgmt 1 w))

/-! ### The reset of a page (R604) -/

/-- Return the RW and RWL fields of a page's words to their reset values; those with a rule of their own are left. -/
def State.resetFields (s : State) (pg : Nat) (ds : List FieldDesc) : State :=
  ds.foldl (fun (a : State) d =>
    if d.acc = .rw ∨ d.acc = .rwl then
      (List.range d.count).foldl (fun (b : State) k => b.setFld pg ⟨d.off + 4 * k, d.hi, d.lo⟩ d.rst) a
    else a) s
/-- Words that a rule of their own governs, each written with its reset value. -/
def State.resetWords (s : State) (pg : Nat) (ws : List (Nat × Word)) : State :=
  ws.foldl (fun (a : State) e => (a.writeBody .fw pg e.1 e.2 [] .failed []).1) s
/-- The reset of a page at its instant: the fields count as written with their reset values. -/
def State.resetPage (s : State) (pg : Nat) : State :=
  match pageKind pg with
  | none => s
  | some k =>
    let s0 := (s.resetFields pg ((pageFields k (pg - pageBase k)).filter fun d => d.off != 0x14)).writeEvtEn pg 0xFFFFFFFF
    match k with
    | .frame => if s0.enabled then s0 else { s0.setFld pgFrame R.hdr_CTL_ENABLE 1 with sys := { s0.sys with resumeAt := some s0.tb } }
    | .sched => s0.setProfileIdx 0
    | .power =>
      let s1 := (s0.setProfileIdx 0).setFld pgPower R.power_LP_REQ 0
      let s2 := { s1 with sys := { s1.sys with lpReq := none } }
      s2.setFld pgPower R.power_CAP0_W (s2.fld pgPower R.power_PKG_W)
    | .energy =>
      let s1 := { s0 with acct := { s0.acct with tariffDue := true } }
      let s2 := s1.setFld64 pgEnergy R.energy_WALL_OFS_NS 0
      ((if s2.wallValid then { s2 with acct := { s2.acct with wallDue := some 0 } } else s2).selectRecord pgEnergy 0x310 0).1
    | .trace => (((s0.writeTraceCtl .fw 0).1).selectRecord pgTrace 0x94 0).1
    | .ras => if s0.fld pgRas R.ras_LOG_ACK = 0 then s0 else if (s0.fld pgRas R.ras_LOG_HEAD) % 512 ≤ (s0.fld pgRas R.ras_LOG_HEAD + 512 - s0.fld pgRas R.ras_LOG_ACK) % 512 then s0.setFld pgRas R.ras_LOG_ACK 0 else s0
    | .repair => s0.showUnack
    | .host => s0.showHdm
    | .tyz =>
      let n := pg - pageBase k
      let s1 := s0.resetWords pg [(0x48, (regReset (pg * 0x1000 + 0x48)))]
      if n = 0 then (s1.setReg (pg * 0x1000 + 0x110) 0).setReg (pg * 0x1000 + 0x150) 0 else s1
    | .eth => s0.resetWords pg [(0x48, regReset (pg * 0x1000 + 0x48))]
    | .stream => s0.resetWords pg ((List.range 32).flatMap fun j => [(0x100 + 0x20 * j, regReset (pg * 0x1000 + 0x100 + 0x20 * j)), (0x104 + 0x20 * j, 0)])
    | .cell => s0.resetWords pg [(0x220, 0), (0x230, 0), (0x240, 0)]
    | .tenant => s0.resetWords pg [(0x50, 0), (0x58, 0), (0x5C, 0), (0x60, 16), (0x64, 16), (0x68, 0), (0x6C, 0), (0x84, 0), (0x90, 0)]
    | .policy => s0.policyDue 0x48
    | .top | .therm | .msix | .mem | .press | .wdt | .nv | .rind | .cal | .audit | .cluster => s0

end Sys2Proof.Machine
end

