-- ==== Sys2Proof/Machine/Cores.lean ====
section
/-! DEFINITION. The control cores' accesses, their caches and the coherent bus (R464 to R488), and the loss of a core (R456). -/
namespace Sys2Proof.Machine

/-! ### Lines of a core -/

/-- A core that runs: in service, not halted, with the cluster alive and booted. -/
def State.coreRuns (s : State) (k : Nat) : Bool :=
  decide (k < 8) && s.busAlive && (s.sys.booted || s.sys.recovery) && s.coreState k == 0 && !(s.core k).halted
/-- The entry of a line in an L1D. -/
def Core.line (c : Core) (l : Nat) : Option CLine := (c.l1d.find? fun e => e.1 == l).map (·.2)
def Core.putLine (c : Core) (l : Nat) (x : CLine) : Core := { c with l1d := mapPut c.l1d l x }
/-- A line leaves M or the cache: an LR on it is lost (R476). -/
def Core.dropLr (c : Core) (l : Nat) : Core := if c.lr = some l then { c with lr := none } else c
def Core.dropLine (c : Core) (l : Nat) : Core := { c with l1d := mapErase c.l1d l }.dropLr l
def Core.wbEntry (c : Core) (l : Nat) : Option CLine := (c.wb.find? fun e => e.1 == l).map (·.2)

/-- Table 15.3: what a snoop of a granted transaction leaves of a valid line (none: I). -/
def snoopState : Moesi → BusKind → Option Moesi
  | .m, .rd => some .o
  | .m, .rdCur => some .m
  | .m, .wb => some .m
  | .m, .rdX => none
  | .m, .wrMrg => none
  | .m, .upgr => none
  | .m, .wrInv => none
  | .o, .rd => some .o
  | .o, .rdCur => some .o
  | .o, .wb => some .o
  | .o, .rdX => none
  | .o, .wrMrg => none
  | .o, .upgr => none
  | .o, .wrInv => none
  | .e, .rd => some .s
  | .e, .rdCur => some .e
  | .e, .wb => some .e
  | .e, .rdX => none
  | .e, .wrMrg => none
  | .e, .upgr => none
  | .e, .wrInv => none
  | .s, .rd => some .s
  | .s, .rdCur => some .s
  | .s, .wb => some .s
  | .s, .rdX => none
  | .s, .wrMrg => none
  | .s, .upgr => none
  | .s, .wrInv => none

/-- A core snoops a transaction on a line. -/
def Core.snoop (c : Core) (l : Nat) (k : BusKind) : Core :=
  match c.line l with
  | none => c
  | some x =>
    match snoopState x.st k with
    | none => c.dropLine l
    | some st => let d := c.putLine l { x with st := st }; if st = .m then d else d.dropLr l

/-- Granules of a line that a range of bytes touches. -/
def granulesIn (off size : Nat) : List Nat := (List.range 8).filter fun g => decide (off < 8 * g + 8) && decide (8 * g < off + size)
/-- Upsets of an L1D line as it is read (R469): a UE flips raw bits and poisons its granule. -/
def CLine.strike (x : CLine) (hits : List Upset) : CLine :=
  hits.foldl (fun (y : CLine) u =>
    if u.cls = .ue ∧ !y.poison.contains u.granule ∧ u.granule < 8 then
      let raw := leBytes 8 (leNat ((y.data.drop (8 * u.granule)).take 8) ^^^ u.flips)
      { y with
        data := y.data.take (8 * u.granule) ++ raw ++ y.data.drop (8 * u.granule + 8)
        poison := u.granule :: y.poison }
    else y) x
/-- A store into a line: a granule written whole loses its poison. -/
def CLine.store (x : CLine) (off : Nat) (bs : List Byte) : CLine :=
  { x with
    data := x.data.take off ++ bs ++ x.data.drop (off + bs.length)
    poison := x.poison.filter fun g => !(decide (off ≤ 8 * g) && decide (8 * g + 8 ≤ off + bs.length)) }

/-- Report the upsets met in the L1D of a core (R469): a CE as CORE_CE, a UE as CORE_UE of that core. -/
def State.reportHits (s : State) (k l : Nat) (hits : List Upset) : State :=
  hits.foldl (fun (a : State) u =>
    if u.cls = .ce then a.rasReport 1 0x30 pgCluster [k] 0
    else if u.cls = .ue then
      (a.setCore k { a.core k with ueTimes := (a.core k).ueTimes ++ [a.tb] }).rasReport 2 0x31 pgCluster [k, sramAddr (64 * l + 8 * u.granule)] 0
    else a) s
/-- The upsets strike the line that a core holds, and are reported. -/
def State.strikeLine (s : State) (k l : Nat) (hits : List Upset) : State :=
  match (s.core k).line l with
  | none => s
  | some x => if hits.isEmpty then s else (s.setCore k ((s.core k).putLine l (x.strike hits))).reportHits k l hits

/-- An access fault of a core. -/
def State.coreFault (s : State) (k : Nat) : State := s.emit (.coreData k 2 [])
/-- The access that a core asked for is performed on its line (R470, R480). -/
def State.doAccess (s : State) (k l : Nat) (acc : CoreAcc) : State :=
  match (s.core k).line l with
  | none => s
  | some x =>
    match acc with
    | .none => s
    | .fetch _ => s
    | .load off size lr =>
      if (granulesIn off size).any fun g => x.poison.contains g then
        ((((s.setFld pgCluster R.cluster_MCE (k % 8 + 2 ^ 31)).setFld pgCluster (R.cluster_MCE.up 4) (sramAddr (64 * l + off))).event
          pgCluster 1)).coreFault k
      else
        let s1 := if lr then s.setCore k { s.core k with lr := some l } else s
        s1.emit (.coreData k 0 ((x.data.drop off).take size))
    | .store off bs => s.setCore k ((s.core k).putLine l (x.store off bs))

/-! ### Requests and grants -/

/-- A core waits for an access it has asked for: one access, and one instruction fetch, at a time. -/
def State.coreWaits (s : State) (k : Nat) (fetch : Bool) : Bool :=
  let same := fun (a : CoreAcc) => match a with | .none => false | .fetch _ => fetch | .load _ _ _ => !fetch | .store _ _ => !fetch
  s.cl.reqs.any (fun r => r.who == k && same r.acc) || s.cl.grants.any fun g => g.who == k && same g.acc
def State.request (s : State) (r : BusReq) : State := { s with cl := { s.cl with reqs := s.cl.reqs ++ [r] } }

/-- The requester that the arbiter grants next: the first after the last one granted, in the order K0, …, K7, AP (R477). `ap`: AP asks. -/
def Cluster.winner (c : Cluster) (ap : Bool) : Option Nat :=
  ((List.range 9).map fun i => (c.last + 1 + i) % 9).find? fun k => if k = 8 then ap else c.reqs.any fun r => r.who == k
/-- The oldest request of a requester. -/
def Cluster.oldest (c : Cluster) (k : Nat) : Option BusReq := c.reqs.find? fun r => r.who == k

/-- A transaction ends the ownership of the grantees before it. -/
def BusKind.kills : BusKind → Bool
  | .rdX | .upgr | .wrInv | .wrMrg => true
  | .rd | .rdCur | .wb => false
/-- The owner-pending grantee of a line (R480). -/
def Cluster.pendingOwner (c : Cluster) (l : Nat) : Option Nat :=
  (c.grants.find? fun g => g.line == l && (g.inst == some .m || g.inst == some .o) && !(g.after.any fun a => a.2.kills)).map (·.who)
/-- Some grantee of a line will hold a copy of it. -/
def Cluster.pendingCopy (c : Cluster) (l : Nat) : Bool :=
  c.grants.any fun g => g.line == l && g.inst.isSome && !(g.after.any fun a => a.2.kills)
/-- The core other than `who` whose L1D owns a line. -/
def State.lineOwner (s : State) (who l : Nat) : Option (Nat × CLine) :=
  (List.range 8).findSome? fun k =>
    if k = who then none
    else match (s.core k).line l with
      | some x => if x.st = .s then none else some (k, x)
      | none => none
/-- The core whose write-back buffer holds a line. -/
def State.wbOwner (s : State) (l : Nat) : Option (Nat × CLine) :=
  (List.range 8).findSome? fun k => ((s.core k).wbEntry l).map fun x => (k, x)

/-- The bytes and poisoned granules of a line of home, as home supplies it. -/
def State.homeLine (s : State) (who l : Nat) (hits : List Upset) : State × (List Byte × List Nat) :=
  let struck := s.sram.strikeAll 8 (hits.map fun (u : Upset) => { u with granule := 8 * l + u.granule })
  let (m, ns) := struck.noteRead who (8 * l) 8
  ({ s with sram := m }.addNotes ns, (m.read (64 * l) 64, (List.range 8).filter fun g => m.cls (8 * l + g) == .poison))
/-- Write bytes of a line home; `poison` names granules of the line. -/
def State.writeHome (s : State) (who off : Nat) (bs : List Byte) (poison : List Nat) : State :=
  let (m, ns) := s.sram.noteWrite who off bs (poison.map (· + 8 * (off / 64)))
  { s with sram := m }.addNotes ns

/-- The supplier of a line (R479), and its data where it holds them now: (core or home, data, from a write-back buffer). -/
def State.supplier (s : State) (who l : Nat) (hits : List Upset) : State × Option Nat × Option (List Byte × List Nat) × Bool :=
  match s.cl.pendingOwner l with
  | some k => (s, some k, none, false)
  | none =>
    match s.lineOwner who l with
    | some (k, x) =>
      if s.coreState k = 0 then
        let s1 := s.strikeLine k l hits
        let y := x.strike hits
        (s1, some k, some (y.data, y.poison), false)
      else (s, some k, none, false)
    | none =>
      match s.wbOwner l with
      | some (k, x) => (s, some k, if s.coreState k = 0 then some (x.data, x.poison) else none, true)
      | none =>
        if s.cl.grants.any fun g => g.line == l && g.kind == .wrMrg then (s, none, none, false)
        else
          let (s1, d) := s.homeLine who l hits
          (s1, none, some d, false)

/-- The write-back entry of a line is cancelled and its BusWB withdrawn (R481); `supplied`: it supplied the line. -/
def State.cancelWb (s : State) (l : Nat) (supplied : Bool) : State :=
  let asked := s.cl.reqs.any fun r => r.kind == .wb && r.line == l
  let s1 := { s with cl := { s.cl with
    cores := s.cl.cores.map fun (c : Nat × Core) => (c.1, { c.2 with wb := c.2.wb.filter fun e => e.1 != l })
    reqs := s.cl.reqs.filter fun r => !(r.kind == .wb && r.line == l) } }
  if supplied && asked then s1.bump pgCluster R.cluster_WB_CANCEL 1 1 else s1

/-- Every other cache, and every grantee of the line that waits, sees a granted transaction. -/
def State.snoopAll (s : State) (who l : Nat) (k : BusKind) : State :=
  let others := fun (c : Nat × Core) => if c.1 = who then c else (c.1, c.2.snoop l k)
  let seen := fun (g : BusGrant) => if g.line = l then { g with after := g.after ++ [(who, k)] } else g
  { s with cl := { s.cl with
    cores := s.cl.cores.map others
    grants := s.cl.grants.map seen } }

/-- Grants that wait for home after a BusWrMrg take its data, up to the next BusWrMrg that waits. -/
def fillHome (l : Nat) (d : List Byte × List Nat) : List BusGrant → List BusGrant
  | [] => []
  | g :: r =>
    if g.line = l ∧ g.from_ = none ∧ g.data = none then
      let h := { g with data := some d }
      if g.kind = .wrMrg then h :: r else h :: fillHome l d r
    else g :: fillHome l d r

/-- An L1I takes a line (4 ways): a full set drops one of its lines, which the spec does not name. -/
def State.installI (s : State) (k l off : Nat) (d : List Byte × List Nat) : State :=
  let c := s.core k
  let set := c.l1i.filter fun e => e.1 % 128 == l % 128
  let (s1, c1) := if set.length < 4 then (s, c)
    else
      let (v, t) := s.takeFree
      (t, { c with l1i := mapErase c.l1i ((set.getD (v.toNat % 4) (l, ([], []))).1) })
  let s2 := s1.setCore k { c1 with l1i := mapPut c1.l1i l d }
  if d.2.contains (off / 8) then s2.coreFault k else s2.emit (.coreData k 3 d.1)

/-- A supplied transaction is completed (R479, R480): a core installs the line, performs its access, and then supplies the grantees that
wait for it; a BusWrMrg merges and goes home. -/
def State.complete (s : State) (g : BusGrant) (d : List Byte × List Nat) : State :=
  match g.kind with
  | .wrMrg =>
    let s1 := if g.from_.isSome then s.writeHome 8 (64 * g.line) d.1 d.2 else s
    let s2 := s1.writeHome 8 (64 * g.line + g.mrg.1) g.mrg.2 []
    let (s3, h) := s2.homeLine 8 g.line []
    { s3 with cl := { s3.cl with grants := fillHome g.line h s3.cl.grants } }
  | .rdCur => if g.who = 8 then s.emit (.coreData 8 0 d.1)
    else match g.acc with
      | .fetch off => s.installI g.who g.line off d
      | .none | .load _ _ _ | .store _ _ => s
  | .rd | .rdX | .upgr | .wb | .wrInv =>
    let st := g.inst.getD .s
    let s1 := (s.setCore g.who ((s.core g.who).putLine g.line ⟨st, d.1, d.2⟩)).doAccess g.who g.line g.acc
    let held : List Byte × List Nat := match (s1.core g.who).line g.line with | some x => (x.data, x.poison) | none => d
    let fill := fun (h : BusGrant) => if h.line = g.line ∧ h.from_ = some g.who ∧ h.data = none then { h with data := some held } else h
    let s2 := { s1 with cl := { s1.cl with grants := s1.cl.grants.map fill } }
    s2.setCore g.who (g.after.foldl (fun (c : Core) a => c.snoop g.line a.2) (s2.core g.who))

/-- A granted BusRd, BusRdX, BusRdCur or BusWrMrg: its supplier is found, every copy is snooped, and it waits for its data. -/
def State.grantRead (s : State) (who : Nat) (kind : BusKind) (l : Nat) (acc : CoreAcc) (mrg : Nat × List Byte) (hits : List Upset) : State :=
  let (s1, sup, d, fromWb) := s.supplier who l hits
  let sharers := (List.range 8).any fun k => k != who && ((s1.core k).line l).isSome
  let inst := match kind with
    | .rd => if fromWb then some Moesi.o else if sup.isSome || sharers || s1.cl.pendingCopy l then some .s else some .e
    | .rdX => some .m
    | .upgr | .rdCur | .wb | .wrInv | .wrMrg => none
  let s2 := if fromWb && kind != .rdCur then s1.cancelWb l true else s1
  let s3 := s2.snoopAll who l kind
  let g : BusGrant := ⟨who, kind, l, acc, inst, sup, d, [], mrg, s3.tb⟩
  match kind, d with
  | .wrMrg, some x => s3.complete g x
  | _, _ => { s3 with cl := { s3.cl with grants := s3.cl.grants ++ [g] } }

/-- The arbiter grants the request `r` of its winner `k`. -/
def State.granted (s : State) (k : Nat) (r : BusReq) : State :=
  { s with cl := { s.cl with
    reqs := s.cl.reqs.erase r
    last := k } }
/-- The core grant of one row: the arbiter's winner has a request of the row's kind, which `f` carries out. -/
def State.grantCore (s : State) (kind : BusKind) (at_ : Dword) (f : State → BusReq → State) : Host.Outcome State Fault Refusal :=
  let s0 := (s.advance at_).flushNotes
  match s0.cl.winner false with
  | none => s.passOver "no core requests the bus"
  | some k =>
    match s0.cl.oldest k with
    | none => s.passOver "no core requests the bus"
    | some r =>
      if r.kind ≠ kind ∨ !s0.busAlive then s.passOver "the arbiter grants another request"
      else .next (f (s0.granted k r) r).flushNotes
/-- A grant of AP (R475, R477). -/
def State.grantAp (s : State) (at_ : Dword) (f : State → State) : Host.Outcome State Fault Refusal :=
  let s0 := (s.advance at_).flushNotes
  if s0.cl.winner true ≠ some 8 ∨ !s0.busAlive then s.passOver "the arbiter grants a core first"
  else .next (f { s0 with cl := { s0.cl with last := 8 } }).flushNotes

/-! ### The bus rows -/

/-- BUS_RD (R473, R481). -/
def execBusRd (hits : List Upset) (at_ : Dword) (s : State) : Host.Outcome State Fault Refusal :=
  s.grantCore .rd at_ fun t r => t.grantRead r.who .rd r.line r.acc (0, []) hits
/-- BUS_RDX (R473, R480). -/
def execBusRdx (hits : List Upset) (at_ : Dword) (s : State) : Host.Outcome State Fault Refusal :=
  s.grantCore .rdX at_ fun t r => t.grantRead r.who .rdX r.line r.acc (0, []) hits
/-- A granted BusUpgr (R474, R480): a requester that holds the line becomes its only holder and performs its access; in I it is a
BusRdX. -/
def State.grantUpgrade (t : State) (r : BusReq) (hits : List Upset) : State :=
  match (t.core r.who).line r.line with
  | none => t.grantRead r.who .rdX r.line r.acc (0, []) hits
  | some x =>
    let t1 := t.snoopAll r.who r.line .upgr
    (t1.setCore r.who ((t1.core r.who).putLine r.line { x with st := .m })).doAccess r.who r.line r.acc
/-- BUS_UPGR. -/
def execBusUpgr (hits : List Upset) (at_ : Dword) (s : State) : Host.Outcome State Fault Refusal :=
  s.grantCore .upgr at_ fun t r => t.grantUpgrade r hits
/-- BUS_RDCUR (R467, R475): of a core's L1I, or of AP. -/
def execBusRdcur (ap : Bool) (line : Nat) (hits : List Upset) (at_ : Dword) (s : State) : Host.Outcome State Fault Refusal :=
  if ap then s.grantAp at_ fun t => t.grantRead 8 .rdCur (line % 131072) .none (0, []) hits
  else s.grantCore .rdCur at_ fun t r => t.grantRead r.who .rdCur r.line r.acc (0, []) hits
/-- Upsets strike the granules of a line of control SRAM. -/
def State.strikeHome (t : State) (l : Nat) (hits : List Upset) : State :=
  { t with sram := t.sram.strikeAll 8 (hits.map fun (u : Upset) => { u with granule := 8 * l + u.granule }) }
/-- A granted BusWB (R481, R482): the line goes home, and from here no cache owns it. -/
def State.wentHome (t : State) (r : BusReq) (hits : List Upset) : State :=
  match (t.core r.who).wbEntry r.line with
  | none => t
  | some x =>
    ((t.strikeHome r.line hits).setCore r.who { t.core r.who with wb := (t.core r.who).wb.filter fun e => e.1 != r.line }).writeHome r.who
      (64 * r.line) x.data x.poison
/-- BUS_WB. -/
def execBusWb (hits : List Upset) (at_ : Dword) (s : State) : Host.Outcome State Fault Refusal :=
  s.grantCore .wb at_ fun t r => t.wentHome r hits
/-- A granted BusWrInv (R475, R481): a whole line goes home; every copy is invalidated, and no entry supplies. -/
def State.writeLine (t : State) (l : Nat) (data : List Byte) (hits : List Upset) : State :=
  (((t.cancelWb l false).snoopAll 8 l .wrInv).strikeHome l hits).writeHome 8 (64 * l) (takePad 0 64 data) []
/-- BUS_WRINV. -/
def execBusWrinv (off : Nat) (data : List Byte) (hits : List Upset) (at_ : Dword) (s : State) : Host.Outcome State Fault Refusal :=
  s.grantAp at_ fun t => t.writeLine (off / 64 % 131072) data hits
/-- BUS_WRMRG (R475, R481): bytes of one line are merged with the owner's data and go home. -/
def execBusWrmrg (off : Nat) (data : List Byte) (hits : List Upset) (at_ : Dword) (s : State) : Host.Outcome State Fault Refusal :=
  s.grantAp at_ fun t => t.grantRead 8 .wrMrg (off / 64 % 131072) .none (off % 64, data.take (64 - off % 64)) hits

/-- Room for a line in the L1D of a core: 8 ways of a set (R464). -/
def State.wayFree (s : State) (g : BusGrant) : Bool :=
  g.kind == .rdCur || g.kind == .wrMrg || ((s.core g.who).line g.line).isSome
    || decide (((s.core g.who).l1d.filter fun e => e.1 % 64 == g.line % 64).length < 8)
/-- The timeout of a grant has come (R484): home is never late. -/
def State.grantLate (s : State) (g : BusGrant) : Bool := g.from_.isSome && s.homeLate g.at_
def State.dropGrant (s : State) (g : BusGrant) : State := { s with cl := { s.cl with grants := s.cl.grants.erase g } }
/-- DATA_SUPPLY (R479): the first grant in grant order whose supplier holds the data is supplied. -/
def execDataSupply (at_ : Dword) (s : State) : Host.Outcome State Fault Refusal :=
  let s0 := (s.advance at_).flushNotes
  match s0.cl.grants.find? fun g => g.data.isSome with
  | none => s.passOver "no supplier holds data"
  | some g =>
    if s0.grantLate g then s.passOver "the home timeout has come"
    else if !s0.wayFree g then s.passOver "no way of the set is free"
    else .next ((s0.dropGrant g).complete g (g.data.getD ([], []))).flushNotes
/-- Home supplies a late grant with the line poisoned, and the owner's tags of it become I (R484). -/
def State.homeSupplies (s : State) (g : BusGrant) : State :=
  let owner := g.from_.getD 0
  let old := s.sram.read (64 * g.line) 64
  let s1 := (s.dropGrant g).writeHome 8 (64 * g.line) old (List.range 8)
  let c := (s1.core owner).dropLine g.line
  let s2 := (s1.setCore owner { c with wb := c.wb.filter fun e => e.1 != g.line }).homeTimedOut owner g.line
  (s2.complete g (old, List.range 8)).flushNotes
/-- HOME_TIMEOUT (R484). -/
def execHomeTimeout (at_ : Dword) (s : State) : Host.Outcome State Fault Refusal :=
  let s0 := (s.advance at_).flushNotes
  match s0.cl.grants.find? fun g => s0.grantLate g with
  | none => s.passOver "no supply is late"
  | some g =>
    if !s0.wayFree g then s.passOver "no way of the set is free" else .next (s0.homeSupplies g)

/-! ### Accesses of the cores -/

/-- The regions of Table 15.1. -/
inductive CoreRegion where
  | rom | regs | sram | outside
deriving DecidableEq, Repr
/-- The region of an access, which may not cross its own size. -/
def coreRegion (addr size : Nat) : CoreRegion :=
  if [1, 2, 4, 8].contains size = false ∨ addr % size ≠ 0 then .outside
  else if addr < 0x10000 then .rom
  else if 0x4000000 ≤ addr ∧ addr < 0x8000000 then .regs
  else if 0x10000000 ≤ addr ∧ addr < 0x10800000 then .sram
  else .outside
/-- A load or an LR in control SRAM. -/
def State.sramLoad (s : State) (k a size : Nat) (lr : Bool) (hits : List Upset) : State :=
  let l := a / 64
  let acc := CoreAcc.load (a % 64) size lr
  match (s.core k).line l with
  | none => s.request ⟨k, if lr then .rdX else .rd, l, acc⟩
  | some x =>
    let s1 := s.strikeLine k l hits
    if !lr || x.st == .m then s1.doAccess k l acc
    else if x.st = .e then
      (s1.setCore k ((s1.core k).putLine l { x.strike hits with st := .m })).doAccess k l acc
    else s1.request ⟨k, .upgr, l, acc⟩
/-- A store in control SRAM (Table 15.3). -/
def State.sramStore (s : State) (k a : Nat) (data : List Byte) (hits : List Upset) : State :=
  let l := a / 64
  let acc := CoreAcc.store (a % 64) data
  match (s.core k).line l with
  | none => s.request ⟨k, .rdX, l, acc⟩
  | some x =>
    let s1 := s.strikeLine k l hits
    match x.st with
    | .m => s1.doAccess k l acc
    | .e => (s1.setCore k ((s1.core k).putLine l { x.strike hits with st := .m })).doAccess k l acc
    | .o | .s => s1.request ⟨k, .upgr, l, acc⟩

/-- A load of a register page: a word, or the two words of a 64-bit register, low word first. -/
def State.regLoad (s : State) (k a size : Nat) : State :=
  let (s1, v) := s.readReg .fw (a / 4 * 4)
  if size = 8 then
    let (s2, w) := s1.readReg .fw (a + 4)
    s2.emit (.coreData k 0 (leBytes 4 v.toNat ++ leBytes 4 w.toNat))
  else s1.emit (.coreData k 0 (((leBytes 4 v.toNat).drop (a % 4)).take size))
/-- A load of a core (R465, R466, R473). -/
def State.coreLoads (t : State) (k addr size : Nat) (hits : List Upset) : State :=
  match coreRegion addr size with
  | .outside => t.coreFault k
  | .rom => t.emit (.coreData k 0 ((List.range size).map fun i => Config.bootRom (addr + i)))
  | .regs => t.regLoad k (addr % 0x4000000) size
  | .sram => t.sramLoad k (addr % 0x10000000) size false hits
/-- A store of a core (R465, R466, R473): a store to a register page is a register write of firmware, word by word; the boot ROM takes
none. -/
def State.coreStores (t : State) (k addr : Nat) (data : List Byte) (hits : List Upset) (image : List Byte) (how : ReadEnd)
    (places : List Placement) : State :=
  match coreRegion addr data.length with
  | .outside => t.coreFault k
  | .rom => t
  | .regs =>
    let a := addr % 0x4000000
    let rq : Req := ⟨.fw, t.tb⟩
    if data.length < 4 then t.coreFault k
    else
      let t1 := t.writeReg rq a (BitVec.ofNat 32 (leNat (data.take 4))) image how places
      if data.length = 8 then t1.writeReg rq (a + 4) (BitVec.ofNat 32 (leNat (data.drop 4))) image how places else t1
  | .sram => t.sramStore k (addr % 0x10000000) data hits
/-- A load-reserve of a core (R466, R476). -/
def State.coreReserves (t : State) (k addr size : Nat) (hits : List Upset) : State :=
  match coreRegion addr size with
  | .sram => t.sramLoad k (addr % 0x10000000) size true hits
  | .outside | .rom | .regs => t.coreFault k
/-- A store-conditional of a core (R466, R476): it stores and answers 0 where the line has stayed in M since the LR, and answers 1
otherwise. -/
def State.coreConditional (t : State) (k addr : Nat) (data : List Byte) (hits : List Upset) : State :=
  match coreRegion addr data.length with
  | .sram =>
    let a := addr % 0x10000000
    let done := t.setCore k { t.core k with lr := none }
    if (t.core k).lr = some (a / 64) then (done.sramStore k a data hits).emit (.coreData k 1 [0]) else done.emit (.coreData k 1 [1])
  | .outside | .rom | .regs => t.coreFault k
/-- The instant of an access, and the core that makes it runs and waits for nothing. -/
def State.coreAccess (s : State) (k : Nat) (at_ : Dword) (f : State → State) : Host.Outcome State Fault Refusal :=
  let s0 := (s.advance at_).flushNotes
  if !s0.coreRuns k then s.passOver "the core does not run"
  else if s0.coreWaits k false then s.passOver "the core waits for an earlier access"
  else .next (f s0)

/-- CORE_LOAD. -/
def execCoreLoad (k addr size : Nat) (hits : List Upset) (at_ : Dword) (s : State) : Host.Outcome State Fault Refusal :=
  s.coreAccess k at_ fun t => t.coreLoads k addr size hits
/-- CORE_STORE. -/
def execCoreStore (k addr : Nat) (data : List Byte) (hits : List Upset) (image : List Byte) (how : ReadEnd) (places : List Placement)
    (at_ : Dword) (s : State) : Host.Outcome State Fault Refusal :=
  s.coreAccess k at_ fun t => t.coreStores k addr data hits image how places
/-- CORE_LR. -/
def execCoreLr (k addr size : Nat) (hits : List Upset) (at_ : Dword) (s : State) : Host.Outcome State Fault Refusal :=
  s.coreAccess k at_ fun t => t.coreReserves k addr size hits
/-- CORE_SC. -/
def execCoreSc (k addr : Nat) (data : List Byte) (hits : List Upset) (at_ : Dword) (s : State) : Host.Outcome State Fault Refusal :=
  s.coreAccess k at_ fun t => t.coreConditional k addr data hits
/-- An M or O line moves to the write-back buffer and asks for BusWB (R481). -/
def State.evictOwned (s0 : State) (k line : Nat) (x : CLine) (hits : List Upset) : State :=
  let s1 := s0.reportHits k line hits
  let c := (s1.core k).dropLine line
  (s1.setCore k { c with wb := c.wb ++ [(line, x.strike hits)] }).request ⟨k, .wb, line, .none⟩
/-- L1D_EVICT (R473, R481): a clean line is dropped. -/
def execL1dEvict (k line : Nat) (hits : List Upset) (at_ : Dword) (s : State) : Host.Outcome State Fault Refusal :=
  let s0 := (s.advance at_).flushNotes
  if !decide (k < 8) ∨ s0.coreState k ≠ 0 ∨ !s0.busAlive then s.passOver "the core is not in service"
  else
    match (s0.core k).line line with
    | none => s.passOver "the line is not in the cache"
    | some x =>
      if x.st = .e ∨ x.st = .s then .next (s0.setCore k ((s0.core k).dropLine line))
      else if 4 ≤ (s0.core k).wb.length then s.passOver "the write-back buffer is full"
      else .next (s0.evictOwned k line x hits)
/-- A parity error drops a line of the instruction cache (R469). -/
def State.dropParity (s0 : State) (k l : Nat) : State :=
  (s0.setCore k { s0.core k with l1i := mapErase (s0.core k).l1i l }).rasReport 1 0x30 pgCluster [k] 0
/-- L1I_MISS (R467, R469): the line is read by BusRdCur; `parity`: a parity error has dropped it. -/
def execL1iMiss (k addr : Nat) (parity : Bool) (at_ : Dword) (s : State) : Host.Outcome State Fault Refusal :=
  let s0 := (s.advance at_).flushNotes
  let l := (addr % 0x10000000) / 64
  let held := (s0.core k).l1i.any fun e => e.1 == l
  if !s0.coreRuns k then s.passOver "the core does not run"
  else if s0.coreWaits k true then s.passOver "the core waits for an earlier fetch"
  else if coreRegion (addr / 2 * 2) 2 ≠ .sram then .next (s0.coreFault k)
  else if held && !parity then s.passOver "the line is in the instruction cache"
  else .next ((if held then s0.dropParity k l else s0).request ⟨k, .rdCur, l, .fetch (addr % 64)⟩)

/-! ### The loss of a core -/

/-- A core is held in CLUSTER reset (R485): its E and S lines become I, its requests are withdrawn, and its M and O lines, with those it
was to own, keep their tags. -/
def State.holdCore (s : State) (k : Nat) : State :=
  let c := s.core k
  let c1 := { c with
    l1d := c.l1d.filter fun e => e.2.st == .m || e.2.st == .o
    l1i := []
    lr := none
    halted := false }
  let mine := s.cl.grants.filter fun g => g.who == k
  let c2 := mine.foldl (fun (a : Core) g =>
    if g.inst = some .m ∨ g.inst = some .o then
      g.after.foldl (fun (b : Core) x => b.snoop g.line x.2) (a.putLine g.line ⟨g.inst.getD .m, List.replicate 64 0, []⟩)
    else a) c1
  let cut := fun (g : BusGrant) => if g.from_ = some k then { g with data := none } else g
  ({ s with cl := { s.cl with
    reqs := s.cl.reqs.filter fun r => r.who != k
    grants := (s.cl.grants.filter fun (g : BusGrant) => g.who != k).map cut } }.setCore k c2).wdtFreeze
/-- CORE_UE reports of a core within one hour. -/
def State.coreUes (s : State) (k : Nat) : Nat :=
  (recent s.tb 3600000000000 (s.core k).ueTimes).length
/-- A core is lost (R456, R486). -/
def State.loseCore (s : State) (k : Nat) : State :=
  let s1 := (s.setFld pgCluster R.cluster_CORE_STS (setBits (s.fld pgCluster R.cluster_CORE_STS) (2 * k + 1) (2 * k) 2)).holdCore k
  let s2 := ((s1.rasReport 2 0x32 pgCluster [k] 0).setCause 5 true).event pgCluster 2
  { s2 with sys := { s2.sys with mapDue := true } }
/-- CORE_HEARTBEAT_MISS (R456). -/
def execCoreHeartbeatMiss (k : Nat) (at_ : Dword) (s : State) : Host.Outcome State Fault Refusal :=
  let s0 := (s.advance at_).flushNotes
  let missed := !before s0.tb ((s0.core k).hbAt + BitVec.ofNat 64 (s0.fld pgRepair R.repair_CORE_HB_US * 1000))
  let ues := decide (s0.fld pgRepair R.repair_CORE_UE_THR ≤ s0.coreUes k)
  if !decide (k < 8) ∨ !s0.busAlive ∨ !(s0.sys.booted || s0.sys.recovery) ∨ s0.coreState k ≠ 0 then
    s.passOver "the core is not in service"
  else if !(missed || ues) then s.passOver "neither limit of R456 is reached"
  else .next (s0.loseCore k)

end Sys2Proof.Machine
end

