-- ==== Sys2Proof/Machine/Frame.lean ====
section
/-! DEFINITION. The tick (R30 to R34, R43, R45 to R48, R53, R55, R216, R300, R315, R374, R380, R381, R399, R400, R471, R506, R566, R581,
R584 to R601): its nine steps in order, and what waits for it. -/
namespace Sys2Proof.Machine

/-! ### Before the steps -/

/-- What is left of the ending frame: its guard and its idle runs, where their own commands have not come. -/
def State.endFrame (s : State) : State :=
  let s1 := if s.work.runs.any fun r => r.phase == .scheduled || r.phase == .active then s.beginGuard else s
  (s1.work.runs.filter s1.idleOut).foldl (fun (a : State) r => a.idleTimeout r) s1
/-- Outcomes that arose at or after the tick instant wait for the next tick (R322c). -/
def State.lateOf (s : State) (t : Dword) : List Nat :=
  (s.work.descs.filter fun d => match d.post with | some p => !before p.at_ t | none => false).map (·.id)

/-- The status of a run that ended in the frame (Table 17.6). -/
def State.runStatus (s : State) (r : Run) : Nat :=
  match r.fault with
  | some e => e.code
  | none =>
    if r.poison then 0x30
    else if r.cut = 0 then 0
    else
      let held : Bool := match s.sectById r.sid with
        | some t => (s.sectPositions t).any fun pos => (s.ctx pos t.ctx).state == .held
        | none => false
      if held then 0x33 else 1
/-- The runs of the ending frame leave: RUN records, FRAMES of their items; the reduction operands of cut regions that wait in the mesh are
saved with the section (Tables 3.8, 17.6). -/
def State.closeRuns (s : State) : State :=
  let ended := s.work.runs.filter fun r => r.phase == .ended
  let s1 := ended.foldl (fun (a : State) r =>
    let (v, b) := a.takeFree
    b.traceRec 2 (v.toNat % 8) (leBytes 8 r.sid ++ leBytes 1 (b.runStatus r) ++ leBytes 3 0 ++ leBytes 4 r.usedFc)) s
  let cut := (ended.filter fun r => r.cut != 0).filterMap fun r => (s.sectById r.sid).map (·.region)
  let frame := fun (d : Desc) => { d with
    frames := if ended.any fun r => r.item == d.id then d.frames + 1 else d.frames
    served := false }
  let ofCut := fun (w : Nat × MeshPacket) => decide (waitReduction ≤ w.1) && cut.contains (hRegion w.2.hdr)
  let clear := fun (e : Nat × Router) => (e.1, { e.2 with
    pend := e.2.pend.filter fun p => !cut.contains (p.key / 4096)
    waiting := e.2.waiting.filter fun w => !ofCut w })
  let left := s1.grid.routers.flatMap fun e => (e.2.pend ++ (e.2.waiting.filter ofCut).map fun w =>
    (⟨redKey (hRegion w.2.hdr) (hTag w.2.hdr), hSeq w.2.hdr, [(w.1 - waitReduction, w.2)]⟩ : RedPend)).map fun p => (e.1, p)
  let save := fun (t : Sect) => if cut.contains t.region then { t with redSaved := left.filter fun p => p.2.key / 4096 == t.region } else t
  { s1 with
    work := { s1.work with
      runs := []
      sects := s1.work.sects.map save
      descs := s1.work.descs.map frame }
    grid := { s1.grid with routers := if cut.isEmpty then s1.grid.routers else s1.grid.routers.map clear } }

/-- Page resets that wait (R604). -/
def State.applyPageResets (s : State) (due : Nat × Dword → Bool) : State :=
  (s.bus.pageResets.filter due).foldl (fun (a : State) e => a.resetPage e.1)
    { s with bus := { s.bus with pageResets := s.bus.pageResets.filter fun (e : Nat × Dword) => !due e } }

/-- The reachability bitmap and the cause REACH (R374): with no port in service no other device is reachable; a device whose ports have
never trained is a domain of one (Table 1.4; log entry 84). -/
def State.updateReach (s : State) : State :=
  let s1 := s.tyz.reachDue.foldl (fun (a : State) e => a.setRegBit (pgTyz 0 * 0x1000 + 0x200 + e.1 / 32 * 4) (e.1 % 32) e.2)
    { s with tyz := { s.tyz with reachDue := [] } }
  let bits := fun (e : Nat × Word) => decide (pgTyz 0 * 0x1000 + 0x200 ≤ e.1) && decide (e.1 < pgTyz 0 * 0x1000 + 0x600)
  let s2 := if (List.range 16).any s1.portServes then s1 else { s1 with regs := s1.regs.filter fun e => !bits e }
  let size := s2.fld (pgTyz 0) R.tyz0_DOM_SIZE
  (s2.setCause 7 (s2.portTrained && decide (((List.range size).filter s2.reachable).length < size))).peerFallback s2.reachable
/-- Ports that trained enter service (R348). -/
def State.portsUp (s : State) : State :=
  { s with tyz := { s.tyz with ports := s.tyz.ports.map fun (e : Nat × TyzPort) => (e.1, { e.2 with due := false }) } }.portCounts

/-- The tests of R55 and R363 at a tick, what the rate adjustment removed in the frame (R20), and the count of R52; after a stop,
FRAME_SYNC_IN's loss timer starts anew (R54). -/
def State.alignTick (s : State) (resumed : Bool) : State :=
  let was := s.discSource
  let s0 := if s.leads = s.selfRoot then s else s.chooseParent
  let sel := s0.fld pgFrame R.frame_TB_SRC
  let free := sel == 0 || (sel == 2 && s0.selfRoot)
  let s1 := { s0 with disc := { s0.disc with
    pinAligns := free
    ownRoot := s0.selfRoot } }.setRegBit frameSts 3 (!free && s0.fld pgFrame R.frame_SYNC_MODE == 2)
  let s2 := s1.sourceChanged was
  let s3 := if resumed ∧ s2.discSource = 3 then { s2 with disc := { s2.disc with lastValid := s2.tb } } else s2
  s3.slewTick.countOkTick

/-! ### Step 2: period and guard (R26, R27, R32, R33, R599) -/

/-- A register's value comes into force (R47). -/
def State.setEff (s : State) (pg off : Nat) : State :=
  let a := pg * 0x1000 + off
  { s with eff := mapSet (regReset a) s.eff a (s.reg a) }
/-- The generation in force is Gen1. -/
def State.gen1 (s : State) : Bool := bitsOf (s.fld (pgMem 0) R.mem_ILV) 17 16 == 1
/-- The period and guard of frame `n`. -/
def State.applyPeriod (s : State) (n : Nat) : State :=
  let s0 := if s.fld64 pgFrame R.frame_PERIOD_AT ≤ n then (s.setEff pgFrame 0x58).setEff pgFrame 0x5C else s
  let pw := s0.inForce pgFrame R.frame_PERIOD
  let gw := s0.inForce pgFrame R.frame_GUARD
  let clamped := s0.gen1 && decide (pw < 80)
  let p := if clamped then 80 else pw
  let g := if p < gw + 22 then p - 22 else gw
  let e := (s0.tickAt n) - BitVec.ofNat 64 (n * (p * 1000))
  let s1 := if p = s0.fld pgFrame R.frame_PERIOD_EFF then s0 else s0.setFld64 pgFrame R.frame_EPOCH e.toNat
  let s2 := ((s1.setFld pgFrame R.frame_PERIOD_EFF p).setFld pgFrame R.frame_GUARD_EFF g).setRegBit frameSts 0 (decide (p < gw + 22))
  let s3 := s2.setRegBit frameSts 1 clamped
  if clamped && !s2.regBit frameSts 1 then s3.event pgFrame 2 else s3

/-! ### Step 7: press windows (R300, R301) -/

def State.step7 (s : State) (temps : List (Nat × Int)) : State :=
  let s1 := temps.foldl (fun (a : State) e => if e.1 < 16 then a.setModule e.1 { a.module e.1 with temp := e.2 } else a) s
  s1.servedChannels.foldl (fun (a : State) c =>
    if !a.pressAvail c then a
    else
      let p := a.pressOf c
      let l := if p.hot then 0 else pawNext p.pawLimit (a.module c).temp
      (a.setPress c { p with
        pawLimit := l
        hot := false }).setFld (pgPress c) R.press_PAW_EFF l) s1.hdmTick

/-! ### Step 9: settings (R380, R381, R399) -/

/-- The written POLICY set may be applied (R380). -/
def State.policyOk (s : State) : Bool :=
  let f := fun (x : Fld) (c : Nat) => s.fld pgPolicy (x.up (0x10 * c))
  decide ((List.range 4).foldl (fun a c => a + f R.policy_CLASS0_0_RSV c) 0 ≤ 256) && (List.range 4).all fun c =>
    decide (f R.policy_CLASS0_1_RSV_MIN c ≤ f R.policy_CLASS0_0_RSV c) && decide (f R.policy_CLASS0_0_RSV c ≤ f R.policy_CLASS0_1_RSV_MAX c)
      && decide (f R.policy_CLASS0_0_RSV c ≤ f R.policy_CLASS0_0_LIM c)
/-- The words of POLICY that are settings. -/
def policyWords : List Nat := (List.range 16).map (fun i => 0x48 + 4 * i) ++ [0x98, 0x9C, 0xA0, 0xA4, 0xA8]
/-- RSV_EFF returns to RSV, and a new adaptation window begins. -/
def State.rsvAsWritten (s : State) : State :=
  (List.range 4).foldl (fun (a : State) c => a.setFld pgPolicy (clsRsv c) (a.inForce pgPolicy (R.policy_CLASS0_0_RSV.up (0x10 * c))))
    { s with work := { s.work with adapt := { Adapt.zero with hit := s.work.adapt.hit } } }
def policySts : Nat := pgPolicy * 0x1000 + 0xC
def State.applyPolicy (s : State) : State :=
  let due := s.work.adapt.due
  let s0 := { s with work := { s.work with adapt := { s.work.adapt with due := 0 } } }
  let s1 :=
    if due = 0 then s0
    else if s0.policyOk then
      let was := s0.inForce pgPolicy R.policy_ADAPT_EN
      let a := (policyWords.foldl (fun (b : State) off => b.setEff pgPolicy off) s0).setRegBit policySts 8 false
      if due = 2 ∨ was ≠ a.inForce pgPolicy R.policy_ADAPT_EN then a.rsvAsWritten else a
    else (s0.setRegBit policySts 8 true).event pgPolicy 0
  if s1.inForce pgPolicy R.policy_ADAPT_EN = 0 then s1.rsvAsWritten else s1
/-- QUOTA_EFF of a tenant (R381): the written values under their caps; CLASS_MASK under its cap is the classes both allow. -/
def State.applyQuota (s : State) (t : Nat) : State :=
  let pg := pgTenant t
  let m := s.fld pg R.tenant_QUOTA0_CLASS_MASK
  let sh := s.fld pg R.tenant_QUOTA0_SHARE
  let inf := s.fld pg R.tenant_QUOTA1_INFLIGHT
  let m1 := m &&& s.inForce pgPolicy R.policy_TQ_MAX0_CLASS_MASK
  let sh1 := min sh (s.inForce pgPolicy R.policy_TQ_MAX0_SHARE_MAX)
  let inf1 := min inf (s.inForce pgPolicy R.policy_TQ_MAX1)
  let clamped := decide (m1 ≠ m) || decide (sh1 ≠ sh) || decide (inf1 ≠ inf)
  (((s.setFld pg R.tenant_QUOTA_EFF (m1 + sh1 * 2 ^ 16 + b2n clamped * 2 ^ 31)).setFld pg R.tenant_QUOTA_EFF1
    (inf1 + s.fld pg R.tenant_QUOTA1_WARN_PCT * 2 ^ 24)).setFld pg R.tenant_QUOTA_EFF2 (s.fld pg R.tenant_QUOTA2)).setFld pg R.tenant_QUOTA_EFF3
    (s.fld pg R.tenant_QUOTA3)
/-- The tenants whose quotas may differ from their reset values: all, once a cap has been written. -/
def State.quotaTenants (s : State) : List Nat :=
  if s.eff.any fun e => e.1 == pgPolicy * 0x1000 + 0x98 || e.1 == pgPolicy * 0x1000 + 0x9C then List.range 1024 else s.tenantsTouched
def State.applySettings (s : State) : State :=
  let s1 := (s.applyPolicy.setEff pgSched 0x48).setEff pgSched 0x4C
  s1.quotaTenants.foldl (fun (a : State) t => (a.applyQuota t).setEff (pgTenant t) 0xE0) s1

/-- No placement exists for a section that lost cells (R400). -/
def State.withoutCells (s : State) (sid : Nat) : State :=
  { s with work := { s.work with
    replacing := s.work.replacing.filter fun x => x != sid
    noCells := s.work.noCells ++ [sid] } }
/-- The policy engine re-places the sections that lost cells, or finds no placement for them (R400). -/
def State.replaceSects (s : State) (places : List (Nat × Option (Placement × List Byte))) : State :=
  places.foldl (fun (a : State) e =>
    if !a.work.replacing.contains e.1 || a.work.loads.any (fun l => l.desc.isNone && l.sid == e.1) then a
    else
      match e.2 with
      | some x => a.beginLoad none x.1 x.2
      | none => a.withoutCells e.1) s
/-- A power-state request written before this tick is examined (R589). -/
def State.lpTick (s : State) : State :=
  match s.sys.lpReq with
  | some r => if before r.2 s.tb then s.examineLp else s
  | none => s
/-- KV records of idle items become non-resident (R402). -/
def State.kvTick (s : State) : State := (s.work.descs.filter s.kvIdle).foldl (fun (a : State) d => a.evictKv d false) s
def State.adaptTick (s : State) : State := if s.inForce pgPolicy R.policy_ADAPT_EN == 1 then s.adaptFrame else s
/-- Tick step 9. -/
def State.step9 (s : State) (places : List (Nat × Option (Placement × List Byte))) : State :=
  let s1 := (if s.adaptDue then s.adaptChoose else s).adaptMove.applySettings.tenantStates.lpTick
  let s2 := (s1.replaceSects places).kvTick
  if s2.sys.lpPhase == .accepted then s2 else s2.admitPhase.adaptTick

/-! ### The tick -/

/-- What the tick instant itself does, before step 1: FRAME_SYNC_OUT, the cores' interrupt, the clocks out of NAP. -/
def State.tickInstant (s : State) : State :=
  let s1 := if s.flag pgFrame R.frame_SYNC_OUT_EN then (s.emit (.pin pinFrameSync 1 s.tb)).emit (.pin pinFrameSync 0 (s.tb + 100)) else s
  let s2 := (List.range 8).foldl (fun (a : State) k => if a.coreState k = 0 then a.emit (.coreIrq k 0) else a) s1
  { s2.endNap with grid := { s2.endNap.grid with stayAwake := false } }

/-- Step 3: removals and swaps. A swap that is due while the mesh is not empty keeps the tick waiting: `rest` says how it goes on (R100). -/
def State.step3 (s : State) (rest : TickRest) : State :=
  let changed := !s.grid.removals.isEmpty || !s.grid.spareBads.isEmpty
  let s1 := s.repairHead
  if !s1.swapDue then s1.repairTail changed
  else if s1.meshEmpty then s1.swapAll.repairTail true
  else { s1 with sys := { s1.sys with tickRest := some { rest with changed := changed } } }
/-- Steps 4 to 9 of Table 2.8 in order, what changes between them standing with the step it follows. -/
def lateSteps (r : TickRest) : List (State → State) :=
  [fun s => s.takeReady.releaseHeld.step4.settleDisplaced,
   fun s => s.step5 r.sensors,
   fun s => s.step6,
   fun s => s.step7 r.temps,
   fun s => s.step8 r.late,
   fun s => s.step9 r.places]
/-- Steps 1 to 9. -/
def tickList (resumed : Bool) (n us : Nat) (r : TickRest) : List (State → State) :=
  [fun s => s.closeRuns.step1 us,
   fun s => (s.applyPeriod n).alignTick resumed,
   fun s => s.step3 r] ++ lateSteps r
/-- Steps run one after the other, unless the tick waits for the mesh to empty. -/
def State.runSteps (s : State) (l : List (State → State)) : State :=
  l.foldl (fun a f => if a.sys.tickRest.isSome then a else f a) s
/-- The first `k` steps of a tick; the others never complete where a reset ends them (R647). -/
def State.tickSteps (s : State) (k n us : Nat) (r : TickRest) : State :=
  s.calTick.reformIlv.updateReach.portsUp.runSteps ((tickList s.sys.resumeAt.isSome n us r).take k)

/-- What firmware does at a tick after its steps: RESUME is written after SLEEP (R592), GRID_BASE is applied once the grid is out of its
reset (R500), BOOT_OK and the BOOT record are written (R506, R566). `done`: GRID_BASE was applied before this tick. -/
def State.tickEnd (s : State) (done : Bool) : State :=
  let s1 := if s.sys.lpPhase = .leaving then { s with sys := { s.sys with
      lpPhase := .none
      lpTarget := 0 } } else s
  let s2 := { s1 with sys := { s1.sys with resumeAt := none } }
  let s3 := if s2.sys.gridDue && !s2.grid.heldReset && s2.grid.on_ then s2.applyGridBase else s2
  let s4 := if s3.sys.bootOkDue && done then
      { s3 with sys := { s3.sys with bootOkDue := false } }.jWrite ⟨0x13, 0, s3.sys.slot, 0, .nothing⟩
    else s3
  if s4.sys.bootRecordDue then
    let (v, a) := s4.takeFree
    { a with sys := { a.sys with bootRecordDue := false } }.audit 0x40 0 0xFF 0 (v.toNat % 2 ^ 32) (v.toNat / 2 ^ 32 % 65536) (v.toNat / 2 ^ 48) 0 0 0
  else s4

/-- A tick ends, unless it waits for the mesh to empty. -/
def State.tickDone (s : State) (done : Bool) : State := if s.sys.tickRest.isSome then s else s.tickEnd done

/-- Out of SLEEP nothing is attributed to the frame, and the RESUME record is written (R535, R592). -/
def State.tickLeave (s : State) : State :=
  if s.sys.lpPhase = .leaving then
    { s with meter := { s.meter with
      act := []
      items := [] } }.resumeRec 2
  else s
/-- The nine steps, after a TOP.RST written before the instant `t`: a GRID reset goes before them, a wider one ends the tick (R581, R585). -/
def State.tickReset (s : State) (t : Dword) (steps : State → State) : State :=
  match s.sys.rst with
  | none => steps s
  | some r => if !before r.2 t then steps s else if r.1 = 0 then steps (s.applyReset 0) else s.applyReset r.1
/-- The tick at its instant `t`, of number `n`. -/
def State.tickAtInstant (s : State) (n : Nat) (t : Dword) (sensors : List Int) (temps : List (Nat × Int)) (given : TickGiven) : State :=
  let us := if s.sys.resumeAt.isSome then 0 else s.periodNs / 1000
  let s0 := (s.advance t).flushNotes
  let late := s0.lateOf t
  let s1 := (s0.drainTimeouts.setFld64 pgFrame R.frame_COUNT n).tickInstant
  let s2 := (s1.releaseGrid.applyPageResets fun e => before e.2 t).tickLeave
  let done := !s2.sys.gridDue
  let r : TickRest := ⟨late, sensors, temps, given.places, done, false⟩
  match given.ended with
  | none => s2.tickReset t fun a => (a.tickSteps 9 n us r).tickDone done
  | some k => (s2.tickReset t fun a => a.tickSteps k n us r).boardReset
/-- A tick instant passes in SLEEP: no tick fires, and a reset asked for before takes effect (R581, R604, Table 19.4). -/
def State.sleepInstant (s : State) : State :=
  let t := s.tickAt { s with sys := { s.sys with resumeAt := some s.tb } }.nextTick
  let s1 := (s.advance t).flushNotes.applyPageResets fun e => before e.2 t
  s1.tickReset t id
/-- SLEEP, with the frame engine enabled and a reset that waits for a tick instant. -/
def State.resetInSleep (s : State) : Bool :=
  s.alive && s.enabled && s.fld pgPower R.power_LP_STATE == 3 && (s.sys.rst.isSome || !s.bus.pageResets.isEmpty)
/-- TICK (R45): `sensors` are the raw readings of the temperature sensors in 1/256 °C, `temps` those of the modules. -/
def execTick (sensors : List Int) (temps : List (Nat × Int)) (given : TickGiven) (s : State) : Host.Outcome State Fault Refusal :=
  if s.resetInSleep then .next s.sleepInstant
  else if !s.frameOn || !(s.sys.booted || s.sys.recovery) then s.passOver "the frame engine does not run"
  else if s.sys.lpPhase = .accepted then s.passOver "the entry to a power state comes before the next tick"
  else if s.sys.tickRest.isSome then s.passOver "a tick waits for the mesh to empty"
  else
    let n := s.nextTick
    let t := s.tickAt n
    .next ((if s.sys.resumeAt.isSome then s else s.endFrame).tickAtInstant n t sensors temps given)

/-! ### A swap that waited (R100, R449, R451) -/

/-- The tick goes on after its wait, the swaps made or put off; what was held at its source enters the mesh. -/
def State.resumeTick (s : State) (r : TickRest) (swap : Bool) : State :=
  let s1 := { s with sys := { s.sys with tickRest := none } }
  let s2 := if swap then s1.swapAll.repairTail true else s1.deferSwaps.repairTail r.changed
  ((s2.runSteps (lateSteps r)).tickEnd r.done).releaseHeldInj.releaseBar4
/-- When the wait of a tick ends. -/
def State.swapLimit (s : State) : Dword := s.tickAt s.frameNo + BitVec.ofNat 64 (s.nsOfFc 512)
/-- REPAIR_SWAP (R100, R449): the mesh is empty at `at_`, within 512 fc of the tick instant; the map is applied. -/
def execRepairSwap (at_ : Dword) (s : State) : Host.Outcome State Fault Refusal := s.onClock <|
  match s.sys.tickRest with
  | none => s.passOver "no tick waits to apply a swap"
  | some r =>
    let s1 := s.advance at_
    if !s1.meshEmpty then s.passOver "the mesh is not empty"
    else if before s1.swapLimit s1.tb then s.passOver "512 fc have passed"
    else .next (s1.resumeTick r true)
/-- SWAP_WAIT_EXPIRE (R100, R451): the mesh is not empty 512 fc after the tick instant; the swap waits for the next tick. -/
def execSwapWaitExpire (at_ : Dword) (s : State) : Host.Outcome State Fault Refusal := s.onClock <|
  match s.sys.tickRest with
  | none => s.passOver "no tick waits to apply a swap"
  | some r =>
    let s1 := s.advance at_
    if s1.meshEmpty then s.passOver "the mesh is empty"
    else if before s1.tb s1.swapLimit then s.passOver "512 fc have not passed"
    else .next (s1.resumeTick r false)

/-- A SLEEP or STANDBY request that is due is examined (R601). -/
def State.delayedLp (s : State) (due : Dword → Bool) : State :=
  match s.sys.lpReq with
  | some (_, w) => if due w then s.examineLp else s
  | none => s
/-- What a disabled frame engine does for requests written 10 µs ago (R601): page resets, then a TOP.RST, else a power-state request. -/
def State.disabledDue (s0 : State) : State :=
  let due := fun (w : Dword) => !before s0.tb (w + 10000)
  let s1 := s0.applyPageResets fun e => due e.2
  match s1.sys.rst with
  | some (k, w) => if due w then s1.applyReset k else s1.delayedLp due
  | none => s1.delayedLp due
/-- DISABLED_DELAY_EXPIRE (R601): with the frame engine disabled, what was written 10 µs ago takes effect. -/
def execDisabledDelayExpire (at_ : Dword) (s : State) : Host.Outcome State Fault Refusal :=
  let s0 := (s.advance at_).flushNotes
  let due := fun (w : Dword) => !before s0.tb (w + 10000)
  let pages := s0.bus.pageResets.any fun e => due e.2
  let rst := match s0.sys.rst with | some (_, w) => due w | none => false
  let lp := match s0.sys.lpReq with | some (_, w) => due w | none => false
  if !s0.alive || s0.enabled then s.passOver "the frame engine is enabled"
  else if !(pages || rst || lp) then s.passOver "no request has waited 10 us"
  else .next s0.disabledDue

end Sys2Proof.Machine
end

