-- ==== Sys2Proof/Machine/Vector.lean ====
section
/-! DEFINITION. The vector engine's operations (R163 to R196). -/
namespace Sys2Proof.Machine

def allSlots : List Nat := List.range 256

/-- An operation the engine cannot perform (R235): the run is cut with FAULT_FORMAT. -/
def State.vxFormat (s : State) (pos n : Nat) (op : OpFields) : State := (s.issuerFormat pos n).vxRetire pos n op

/-- Read the source tiles of an operation in the lanes its mask enables; a consuming operation tells the run of poison
(R124, R166). A tile named twice is read once. Answers the state and whether lane `i` has a poisoned operand. -/
def State.vxOperands (s : State) (pos n : Nat) (op : OpFields) (u : EngineUpset) (srcs : List Nat) (consume : Bool) :
    State × (Nat → Bool) :=
  let lanes := allSlots.filter ((s.ctx pos n).enabled op)
  let s1 := (srcs.map (· % 32)).eraseDups.foldl (fun t r => t.tileRead pos n r u.bad lanes) s
  let c := s1.ctx pos n
  let p := fun i => srcs.any fun r => (c.slot r i).poison
  (if consume && lanes.any p then s1.poisonRunAt pos n else s1, p)

/-- An element-wise operation writing a tile: `f` gives lane `i` its result in format `d` (R170, R178, R181). -/
def State.vxTile (s : State) (pos n : Nat) (op : OpFields) (u : EngineUpset) (srcs : List Nat) (consume : Bool) (d : VFmt)
    (f : Ctx → Nat → FRes) : State :=
  let (s1, p) := s.vxOperands pos n op u srcs consume
  let c := s1.ctx pos n
  let res := allSlots.map (f c)
  let fl := allSlots.foldl (fun a i => if c.enabled op i then a ||| (res.getD i ⟨0, 0⟩).flags else a) 0
  ((s1.tileWrite pos n op allSlots fun i => ⟨d.put (res.getD i ⟨0, 0⟩).bits, p i, false⟩).vxFlag pos n fl).vxRetire pos n op

/-- Operations of one, two and three tiles on the formats `ok` admits. -/
def State.vx1 (s : State) (pos n : Nat) (op : OpFields) (u : EngineUpset) (ok : VFmt → Bool) (consume : Bool)
    (f : VFmt → Nat → FRes) : Host.Outcome State Fault Refusal :=
  let s0 := s.strikeSlice pos u.hits
  match vfmt op.fmt with
  | none => .next (s0.vxFormat pos n op)
  | some v =>
    if ok v then .next (s0.vxTile pos n op u [op.srcA] consume v fun c i => f v (v.get (c.slot op.srcA i).v))
    else .next (s0.vxFormat pos n op)
def State.vx2 (s : State) (pos n : Nat) (op : OpFields) (u : EngineUpset) (ok : VFmt → Bool)
    (f : VFmt → Nat → Nat → FRes) : Host.Outcome State Fault Refusal :=
  let s0 := s.strikeSlice pos u.hits
  match vfmt op.fmt with
  | none => .next (s0.vxFormat pos n op)
  | some v =>
    if ok v then .next (s0.vxTile pos n op u [op.srcA, op.srcB] true v fun c i =>
      f v (v.get (c.slot op.srcA i).v) (v.get (c.slot op.srcB i).v))
    else .next (s0.vxFormat pos n op)
/-- A special function: each lane takes a free value for its error within the bound (R175). -/
def State.vxSpecial (s : State) (pos n : Nat) (op : OpFields) (u : EngineUpset) (fn32 fn16 : Nat → BitVec 64 → FRes) :
    Host.Outcome State Fault Refusal :=
  let s0 := s.strikeSlice pos u.hits
  match vfmt op.fmt with
  | none => .next (s0.vxFormat pos n op)
  | some v =>
    if v.isInt then .next (s0.vxFormat pos n op)
    else
      let s1 := { s0 with free := s0.free + 256 }
      .next (s1.vxTile pos n op u [op.srcA] true v fun c i =>
        laneSpecial (if v = .f32 then fn32 else fn16) v (v.get (c.slot op.srcA i).v) (Config.freeValue (s0.free + i)))

def anyFmt (_ : VFmt) : Bool := true
def floatFmt (v : VFmt) : Bool := !v.isInt
def intFmt (v : VFmt) : Bool := v.isInt

/-- VX_ADD (R170 to R172). -/
def execVxAdd (pos n : Nat) (op : OpFields) (u : EngineUpset) (s : State) : Host.Outcome State Fault Refusal := s.onGrid <|
  s.vx2 pos n op u anyFmt fun v => laneAdd v op.sat
/-- VX_SUB. -/
def execVxSub (pos n : Nat) (op : OpFields) (u : EngineUpset) (s : State) : Host.Outcome State Fault Refusal := s.onGrid <|
  s.vx2 pos n op u anyFmt fun v => laneSub v op.sat
/-- VX_MUL. -/
def execVxMul (pos n : Nat) (op : OpFields) (u : EngineUpset) (s : State) : Host.Outcome State Fault Refusal := s.onGrid <|
  s.vx2 pos n op u anyFmt fun v => laneMul v op.sat
/-- VX_FMA: a × b + c, rounded once. -/
def execVxFma (pos n : Nat) (op : OpFields) (u : EngineUpset) (s : State) : Host.Outcome State Fault Refusal := s.onGrid <|
  let s0 := s.strikeSlice pos u.hits
  match vfmt op.fmt with
  | none => .next (s0.vxFormat pos n op)
  | some v =>
    if v.isInt then .next (s0.vxFormat pos n op)
    else .next (s0.vxTile pos n op u [op.srcA, op.srcB, op.srcC] true v fun c i =>
      laneFma v (v.get (c.slot op.srcA i).v) (v.get (c.slot op.srcB i).v) (v.get (c.slot op.srcC i).v))
/-- VX_MIN (R171). -/
def execVxMin (pos n : Nat) (op : OpFields) (u : EngineUpset) (s : State) : Host.Outcome State Fault Refusal := s.onGrid <|
  s.vx2 pos n op u anyFmt laneMin
/-- VX_MAX (R171). -/
def execVxMax (pos n : Nat) (op : OpFields) (u : EngineUpset) (s : State) : Host.Outcome State Fault Refusal := s.onGrid <|
  s.vx2 pos n op u anyFmt laneMax
/-- VX_ABS (R172). -/
def execVxAbs (pos n : Nat) (op : OpFields) (u : EngineUpset) (s : State) : Host.Outcome State Fault Refusal := s.onGrid <|
  s.vx1 pos n op u anyFmt true fun v => laneAbs v op.sat
/-- VX_NEG (R172). -/
def execVxNeg (pos n : Nat) (op : OpFields) (u : EngineUpset) (s : State) : Host.Outcome State Fault Refusal := s.onGrid <|
  s.vx1 pos n op u anyFmt true fun v => laneNeg v op.sat
/-- VX_AND. -/
def execVxAnd (pos n : Nat) (op : OpFields) (u : EngineUpset) (s : State) : Host.Outcome State Fault Refusal := s.onGrid <|
  s.vx2 pos n op u intFmt fun _ => laneAnd
/-- VX_OR. -/
def execVxOr (pos n : Nat) (op : OpFields) (u : EngineUpset) (s : State) : Host.Outcome State Fault Refusal := s.onGrid <|
  s.vx2 pos n op u intFmt fun _ => laneOr
/-- VX_XOR. -/
def execVxXor (pos n : Nat) (op : OpFields) (u : EngineUpset) (s : State) : Host.Outcome State Fault Refusal := s.onGrid <|
  s.vx2 pos n op u intFmt fun _ => laneXor
/-- VX_SHL (R172). -/
def execVxShl (pos n : Nat) (op : OpFields) (u : EngineUpset) (s : State) : Host.Outcome State Fault Refusal := s.onGrid <|
  s.vx2 pos n op u intFmt fun v => laneShl v op.sat
/-- VX_SHRA. -/
def execVxShra (pos n : Nat) (op : OpFields) (u : EngineUpset) (s : State) : Host.Outcome State Fault Refusal := s.onGrid <|
  s.vx2 pos n op u intFmt laneShra
/-- VX_SHRL. -/
def execVxShrl (pos n : Nat) (op : OpFields) (u : EngineUpset) (s : State) : Host.Outcome State Fault Refusal := s.onGrid <|
  s.vx2 pos n op u intFmt laneShrl

/-- A comparison of two tiles in the lanes the mask enables, into mask register DST (R173, R182). -/
def State.compareTiles (s0 : State) (pos n : Nat) (op : OpFields) (u : EngineUpset) (v : VFmt) (f : Nat → Nat → FRes) : State :=
  let s1 := (s0.vxOperands pos n op u [op.srcA, op.srcB] true).1
  let c := s1.ctx pos n
  let old := c.mask op.dst
  let res := allSlots.map fun i => f (v.get (c.slot op.srcA i).v) (v.get (c.slot op.srcB i).v)
  let fl := allSlots.foldl (fun a i => if c.enabled op i then a ||| (res.getD i ⟨0, 0⟩).flags else a) 0
  let bits := allSlots.foldl (fun a i =>
    let b := if c.enabled op i then (res.getD i ⟨0, 0⟩).bits == 1 else !op.zeroMode && old.getLsbD i
    if b then a + 2 ^ i else a) 0
  (s1.setCtx pos n (c.setMask op.dst (BitVec.ofNat 256 bits))).vxFlag pos n fl
/-- A comparison into a mask register (R173, R182). -/
def State.vxCompare (s : State) (pos n : Nat) (op : OpFields) (u : EngineUpset) (f : VFmt → Nat → Nat → FRes) :
    Host.Outcome State Fault Refusal :=
  let s0 := s.strikeSlice pos u.hits
  match vfmt op.fmt with
  | none => .next (s0.vxFormat pos n op)
  | some v => .next ((s0.compareTiles pos n op u v (f v)).vxRetire pos n op)
/-- VX_CMP_EQ. -/
def execVxCmpEq (pos n : Nat) (op : OpFields) (u : EngineUpset) (s : State) : Host.Outcome State Fault Refusal := s.onGrid <|
  s.vxCompare pos n op u laneEq
/-- VX_CMP_NE. -/
def execVxCmpNe (pos n : Nat) (op : OpFields) (u : EngineUpset) (s : State) : Host.Outcome State Fault Refusal := s.onGrid <|
  s.vxCompare pos n op u laneNe
/-- VX_CMP_LT. -/
def execVxCmpLt (pos n : Nat) (op : OpFields) (u : EngineUpset) (s : State) : Host.Outcome State Fault Refusal := s.onGrid <|
  s.vxCompare pos n op u laneLt
/-- VX_CMP_LE. -/
def execVxCmpLe (pos n : Nat) (op : OpFields) (u : EngineUpset) (s : State) : Host.Outcome State Fault Refusal := s.onGrid <|
  s.vxCompare pos n op u laneLe

/-- VX_SEL: the mask register SRCC selects a where 1 and b where 0 (assumption 20). -/
def execVxSel (pos n : Nat) (op : OpFields) (u : EngineUpset) (s : State) : Host.Outcome State Fault Refusal := s.onGrid <|
  let s0 := s.strikeSlice pos u.hits
  match vfmt op.fmt with
  | none => .next (s0.vxFormat pos n op)
  | some v => .next (s0.vxTile pos n op u [op.srcA, op.srcB] true v fun c i =>
      ⟨v.get (c.slot (if (c.mask op.srcC).getLsbD i then op.srcA else op.srcB) i).v, 0⟩)

/-- VX_CVT (R174): from FMT to the format SUBOP names. -/
def execVxCvt (pos n : Nat) (op : OpFields) (u : EngineUpset) (s : State) : Host.Outcome State Fault Refusal := s.onGrid <|
  let s0 := s.strikeSlice pos u.hits
  match vfmt op.fmt, vfmt op.subop with
  | some v, some d => .next (s0.vxTile pos n op u [op.srcA] true d fun c i => laneCvt v d (v.get (c.slot op.srcA i).v))
  | _, _ => .next (s0.vxFormat pos n op)

/-- VX_EXP (R175). -/
def execVxExp (pos n : Nat) (op : OpFields) (u : EngineUpset) (s : State) : Host.Outcome State Fault Refusal := s.onGrid <|
  s.vxSpecial pos n op u (f32Exp 2) (f32Exp 2)
/-- VX_RCP (R175). -/
def execVxRcp (pos n : Nat) (op : OpFields) (u : EngineUpset) (s : State) : Host.Outcome State Fault Refusal := s.onGrid <|
  s.vxSpecial pos n op u f32Rcp f32Rcp
/-- VX_RSQRT (R175). -/
def execVxRsqrt (pos n : Nat) (op : OpFields) (u : EngineUpset) (s : State) : Host.Outcome State Fault Refusal := s.onGrid <|
  s.vxSpecial pos n op u f32Rsqrt f32Rsqrt
/-- VX_TANH (R175). -/
def execVxTanh (pos n : Nat) (op : OpFields) (u : EngineUpset) (s : State) : Host.Outcome State Fault Refusal := s.onGrid <|
  s.vxSpecial pos n op u f32Tanh f32Tanh
/-- VX_ERF (R175). -/
def execVxErf (pos n : Nat) (op : OpFields) (u : EngineUpset) (s : State) : Host.Outcome State Fault Refusal := s.onGrid <|
  s.vxSpecial pos n op u f32Erf f32Erf

/-- VX_MOV: a copy; it moves elements without consuming them (assumption 21). -/
def execVxMov (pos n : Nat) (op : OpFields) (u : EngineUpset) (s : State) : Host.Outcome State Fault Refusal := s.onGrid <|
  s.vx1 pos n op u anyFmt false fun _ a => ⟨a, 0⟩

/-- Copy elements of SRCA to DST by a map of positions. -/
def State.vxPermute (s : State) (pos n : Nat) (op : OpFields) (u : EngineUpset) (v : VFmt) (from_ : Nat → Nat) : State :=
  let c0 := s.ctx pos n
  let need := ((allSlots.filter (c0.enabled op)).map from_).eraseDups
  let s1 := s.tileRead pos n op.srcA u.bad need
  let c := s1.ctx pos n
  (s1.tileWrite pos n op allSlots fun i =>
    let e := c.slot op.srcA (from_ i)
    ⟨v.put (v.get e.v), e.poison, false⟩).vxRetire pos n op

/-- VX_BCAST: one element of SRCA to every lane; which element the spec does not say, so a free value picks it (assumption 22). -/
def execVxBcast (pos n : Nat) (op : OpFields) (u : EngineUpset) (s : State) : Host.Outcome State Fault Refusal := s.onGrid <|
  let (d, s0) := (s.strikeSlice pos u.hits).takeFree
  match vfmt op.fmt with
  | none => .next (s0.vxFormat pos n op)
  | some v => .next (s0.vxPermute pos n op u v fun _ => d.toNat % 256)

/-- VX_TRN: element (i, j) of DST is element (j, i) of SRCA. -/
def execVxTrn (pos n : Nat) (op : OpFields) (u : EngineUpset) (s : State) : Host.Outcome State Fault Refusal := s.onGrid <|
  let s0 := s.strikeSlice pos u.hits
  match vfmt op.fmt with
  | none => .next (s0.vxFormat pos n op)
  | some v => .next (s0.vxPermute pos n op u v fun i => i % 16 * 16 + i / 16)

/-- VX_LD (R166, R168): ROWS rows from scratchpad into DST. -/
def execVxLd (pos n : Nat) (op : OpFields) (u : EngineUpset) (s : State) : Host.Outcome State Fault Refusal := s.onGrid <|
  let s0 := s.strikeSlice pos u.hits
  match vfmt op.fmt with
  | none => .next (s0.vxFormat pos n op)
  | some v =>
    if op.n = 0 ∨ 16 < op.n ∨ op.addr % v.bytes ≠ 0 then .next (s0.vxFormat pos n op)
    else
      match s0.engRead pos n op.addr (op.n * 16 * v.bytes) with
      | .waits => .next (s0.vxWait pos n op)
      | .ended t => .next (t.vxRetire pos n op)
      | .got t (bs, ps) => .next ((t.tileWrite pos n op (List.range (op.n * 16)) fun i =>
          ⟨v.put (leNat ((bs.drop (i * v.bytes)).take v.bytes)), anyPoison op.addr ps (i * v.bytes) v.bytes, false⟩).vxRetire pos n op)

/-- The bytes and the poisoned granules of `k` elements of a tile. -/
def Ctx.tileBytes (c : Ctx) (r k : Nat) (v : VFmt) : List Byte :=
  (List.range k).flatMap fun i => leBytes v.bytes (v.get (c.slot r i).v)

/-- The poisoned granules of `k` elements of a tile written at an address. -/
def Ctx.tilePoison (c : Ctx) (addr r k : Nat) (v : VFmt) : List Nat :=
  poisonGranules addr v.bytes ((List.range k).map fun i => (c.slot r i).poison)
/-- VX_ST (R166, R168): ROWS rows of SRCA to scratchpad; poison moves with the elements. -/
def execVxSt (pos n : Nat) (op : OpFields) (u : EngineUpset) (s : State) : Host.Outcome State Fault Refusal := s.onGrid <|
  let s0 := s.strikeSlice pos u.hits
  match vfmt op.fmt with
  | none => .next (s0.vxFormat pos n op)
  | some v =>
    if op.n = 0 ∨ 16 < op.n ∨ op.addr % v.bytes ≠ 0 then .next (s0.vxFormat pos n op)
    else
      let k := op.n * 16
      let s1 := s0.tileRead pos n op.srcA u.bad (List.range k)
      let c := s1.ctx pos n
      match s1.engWrite pos n op.addr (c.tileBytes op.srcA k v) (c.tilePoison op.addr op.srcA k v) with
      | .waits => .next (s1.vxWait pos n op)
      | .ended t => .next (t.vxRetire pos n op)
      | .got t _ => .next (t.vxRetire pos n op)

/-- A quantized block (R177): exponent byte, payload integers, flags. -/
structure QBlock where
  e : Nat
  q : List Int
  flags : Nat
deriving DecidableEq, Repr

/-- VX.QST of one block of binary32 values, `b` bits of magnitude (7 for KB8, 3 for KB4) (R177). -/
def quantBlock (b : Nat) (xs : List Nat) : QBlock :=
  let zeros := List.replicate 32 (0 : Int)
  if xs.any fun x => fp32.isNan x || fp32.isInf x then ⟨0xFF, zeros, flagINV⟩
  else
    let amax := xs.foldl (fun a x => max a (fp32.abs x)) 0
    if amax = 0 then ⟨0, zeros, 0⟩
    else
      let qmax : Nat := 2 ^ b - 1
      let parts := fun x => match fp32.decode x with | .fin g m e => (g, m, e) | _ => (false, 0, (0 : Int))
      let (_, m, e) := parts amax
      let l := bitLen m
      let s1 : Int := e + (l : Int) - (b : Int)
      let fits := if l ≤ b then true else decide (m ≤ qmax * 2 ^ (l - b))
      let s2 : Int := if fits then s1 else s1 + 1
      let (s3, ovf) := if 127 < s2 then ((127 : Int), flagOVF) else if s2 < -127 then (-127, 0) else (s2, 0)
      let quant := fun x =>
        let (g, mx, ex) := parts x
        let r := min (roundEven mx (ex - s3)) qmax
        if g then -((r : Nat) : Int) else ((r : Nat) : Int)
      let q := xs.map quant
      let unf := xs.any fun x => fp32.abs x ≠ 0 && quant x == 0
      ⟨(s3 + 127).toNat, q, ovf ||| (if unf then flagUNF else 0)⟩

/-- The payload bytes of a block: KB8 one byte an element, KB4 two elements a byte (R137). -/
def packBlock (narrow : Bool) (q : List Int) : List Byte :=
  if narrow then (List.range 16).map fun j =>
    BitVec.ofNat 8 (wrapInt 4 (q.getD (2 * j) 0) + 16 * wrapInt 4 (q.getD (2 * j + 1) 0))
  else q.map fun x => BitVec.ofNat 8 (wrapInt 8 x)

/-- The blocks of the first `nb` rows pairs of a tile, quantized (R177), and whether each holds a poisoned element. -/
def Ctx.quantized (c : Ctx) (narrow : Bool) (r nb : Nat) : List (QBlock × Bool) :=
  (List.range nb).map fun b =>
    (quantBlock (if narrow then 3 else 7) ((List.range 32).map fun k => (c.slot r (32 * b + k)).v.toNat),
      (List.range 32).any fun k => (c.slot r (32 * b + k)).poison)
/-- The bytes of quantized blocks: the payloads, then the exponents (R177); and which bytes are poisoned. -/
def quantBytes (narrow : Bool) (bs : List (QBlock × Bool)) : List Byte :=
  (bs.flatMap fun b => packBlock narrow b.1.q) ++ bs.map fun b => BitVec.ofNat 8 b.1.e
def quantPoison (narrow : Bool) (bs : List (QBlock × Bool)) : List Bool :=
  bs.flatMap (fun b => List.replicate (if narrow then 16 else 32) b.2) ++ bs.map (·.2)
/-- A quantized store has been made: poison is consumed, the blocks' flags are raised. -/
def State.quantDone (t : State) (pos n : Nat) (bs : List (QBlock × Bool)) : State :=
  (if bs.any (·.2) then t.poisonRunAt pos n else t).vxFlag pos n (bs.foldl (fun a b => a ||| b.1.flags) 0)
/-- VX_QST (R176, R177): FMT names KB8 or KB4. A block with a poisoned element is poisoned whole, as every result depends on the
block's largest element. -/
def execVxQst (pos n : Nat) (op : OpFields) (u : EngineUpset) (s : State) : Host.Outcome State Fault Refusal := s.onGrid <|
  let s0 := s.strikeSlice pos u.hits
  if (op.fmt ≠ 2 ∧ op.fmt ≠ 3) ∨ op.n % 2 ≠ 0 ∨ op.n = 0 ∨ 16 < op.n then .next (s0.vxFormat pos n op)
  else
    let narrow := op.fmt == 3
    let s1 := s0.tileRead pos n op.srcA u.bad (List.range (32 * (op.n / 2)))
    let bs := (s1.ctx pos n).quantized narrow op.srcA (op.n / 2)
    match s1.engWrite pos n op.addr (quantBytes narrow bs) (poisonGranules op.addr 1 (quantPoison narrow bs)) with
    | .waits => .next (s1.vxWait pos n op)
    | .ended t => .next (t.vxRetire pos n op)
    | .got t _ => .next ((t.quantDone pos n bs).vxRetire pos n op)

/-- VX_MKRANGE: bits 0 to N − 1 of MKd. -/
def execVxMkrange (pos n : Nat) (op : OpFields) (u : EngineUpset) (s : State) : Host.Outcome State Fault Refusal := s.onGrid <|
  let s0 := s.strikeSlice pos u.hits
  if 256 < op.n then .next (s0.vxFormat pos n op)
  else .next ((s0.setCtx pos n ((s0.ctx pos n).setMask op.dst (BitVec.ofNat 256 (2 ^ op.n - 1)))).vxRetire pos n op)

/-- Mask logic. -/
def State.vxMaskOp (s : State) (pos n : Nat) (op : OpFields) (u : EngineUpset) (f : BitVec 256 → BitVec 256 → BitVec 256) :
    Host.Outcome State Fault Refusal :=
  let s0 := s.strikeSlice pos u.hits
  let c := s0.ctx pos n
  .next ((s0.setCtx pos n (c.setMask op.dst (f (c.mask op.srcA) (c.mask op.srcB)))).vxRetire pos n op)
/-- VX_MKAND. -/
def execVxMkand (pos n : Nat) (op : OpFields) (u : EngineUpset) (s : State) : Host.Outcome State Fault Refusal := s.onGrid <|
  s.vxMaskOp pos n op u fun a b => a &&& b
/-- VX_MKOR. -/
def execVxMkor (pos n : Nat) (op : OpFields) (u : EngineUpset) (s : State) : Host.Outcome State Fault Refusal := s.onGrid <|
  s.vxMaskOp pos n op u fun a b => a ||| b
/-- VX_MKNOT. -/
def execVxMknot (pos n : Nat) (op : OpFields) (u : EngineUpset) (s : State) : Host.Outcome State Fault Refusal := s.onGrid <|
  s.vxMaskOp pos n op u fun a _ => ~~~a

/-! ### The reduction unit (R183 to R189) -/

/-- A reduction's result: value and index words, flags. -/
structure RedRes where
  v : Nat
  idx : Nat
  flags : Nat
deriving DecidableEq, Repr

/-- One rounded addition, with INV for a signalling operand. -/
def redAdd (a b : FRes) : FRes :=
  let r := fp32.withSnan [a.bits, b.bits] (fp32.add a.bits b.bits)
  ⟨r.bits, a.flags ||| b.flags ||| r.flags⟩
/-- One level of the balanced tree. -/
def treeLevel : List FRes → List FRes
  | a :: b :: r => redAdd a b :: treeLevel r
  | r => r
/-- The balanced tree over 16 elements (R185). -/
def tree16 (xs : List FRes) : FRes := (treeLevel (treeLevel (treeLevel (treeLevel xs)))).headD ⟨0, 0⟩

/-- SUM over the elements of a group: `none` for a disabled one. -/
def redSum (v : VFmt) (xs : List (Option Nat)) : RedRes :=
  if v.isInt then
    let x := xs.foldl (fun (a : Int) e => match e with | some b => a + signed 32 b | none => a) 0
    let r := fitInt 32 true x
    ⟨r.bits, 0, r.flags⟩
  else
    let leaf := fun (e : Option Nat) => (⟨e.getD 0, 0⟩ : FRes)
    let rows := (List.range ((xs.length + 15) / 16)).map fun i => tree16 (((xs.drop (16 * i)).take 16).map leaf)
    let r := if rows.length = 1 then rows.headD ⟨0, 0⟩ else tree16 rows
    ⟨r.bits, 0, r.flags⟩
/-- MAX or MIN (R186). -/
def redMaxMin (v : VFmt) (big : Bool) (xs : List (Option Nat)) : RedRes :=
  let ys := xs.filterMap id
  if v.isInt then
    match ys with
    | [] => ⟨if big then 0x80000000 else 0x7FFFFFFF, 0, 0⟩
    | y :: r => ⟨r.foldl (fun a b => if (if big then signed 32 a < signed 32 b else signed 32 b < signed 32 a) then b else a) y, 0, 0⟩
  else if ys.any fp32.isNan then ⟨fp32.qnan, 0, flagINV⟩
  else
    match ys with
    | [] => ⟨fp32.infBits big, 0, 0⟩
    | y :: r => ⟨r.foldl (fun a b => (if big then fp32.maxi a b else fp32.mini a b).bits) y, 0, 0⟩
/-- Is `b` strictly greater than `a`? -/
def redGreater (v : VFmt) (b a : Nat) : Bool :=
  if v.isInt then decide (signed 32 a < signed 32 b) else !fp32.isNan a && !fp32.isNan b && fp32.lt a b
/-- ARGMAX with indices from `base` (R187). -/
def redArgmax (v : VFmt) (base : Nat) (xs : List (Option Nat)) : RedRes :=
  let cand := (List.range xs.length).filterMap fun p => match xs.getD p none with
    | some x => if !v.isInt && fp32.isNan x then none else some (p, x)
    | none => none
  let inv := !v.isInt && xs.any fun e => match e with | some x => fp32.isNan x | none => false
  let fl := if inv then flagINV else 0
  match cand with
  | [] => ⟨if v.isInt then 0x80000000 else fp32.infBits true, 0xFFFFFFFF, fl⟩
  | (p, x) :: r =>
    let (q, y) := r.foldl (fun a b => if redGreater v b.2 a.2 then b else a) (p, x)
    ⟨y, (base + q) % 2 ^ 32, fl⟩

/-- Combine with the previous contents of the place (R188). -/
def redCombine (v : VFmt) (o : Nat) (oldV oldI : Nat) (r : RedRes) : RedRes :=
  if o = 0 then
    (if v.isInt then let x := fitInt 32 true (signed 32 oldV + signed 32 r.v); ⟨x.bits, 0, r.flags ||| x.flags⟩
     else let x := redAdd ⟨oldV, 0⟩ ⟨r.v, r.flags⟩; ⟨x.bits, 0, x.flags⟩)
  else if o = 3 then (if redGreater v r.v oldV then r else ⟨oldV, oldI, r.flags⟩)
  else let x := redMaxMin v (o == 1) [some oldV, some r.v]; ⟨x.v, 0, r.flags ||| x.flags⟩

/-- The groups of a scope: source slots, and the slots of the result and of the index (Table 6.7). -/
def redGroups (sc r : Nat) : List (List Nat × Nat × Nat) :=
  if sc = 0 then (List.range 16).map fun i => ((List.range 16).map fun j => 16 * i + j, 16 * r + i, 16 * (r + 1) + i)
  else if sc = 1 then (List.range 16).map fun j => ((List.range 16).map fun i => 16 * i + j, 16 * r + j, 16 * (r + 1) + j)
  else [(allSlots, 16 * r, 16 * r + 1)]

/-- The source tile, and with ACCUM the places of the result, are read. -/
def State.redOperands (s0 : State) (pos n : Nat) (op : OpFields) (u : EngineUpset) : State :=
  let o := bitsOf op.subop 1 0
  let s1 := s0.tileRead pos n op.srcA u.bad (allSlots.filter ((s0.ctx pos n).enabled op))
  let places := (redGroups (bitsOf op.subop 3 2) (bitsOf op.subop 7 4)).flatMap fun g => if o = 3 then [g.2.1, g.2.2] else [g.2.1]
  if op.accum then s1.tileRead pos n op.dst u.bad places else s1
/-- An element of the source as the reduction takes it: binary32, or 32-bit two's complement (R184). -/
def redElem (v : VFmt) (x : Nat) : Nat :=
  match v with | .f32 => x | .f16 => (fpConvert fp16 fp32 x).bits | .i32 => x | _ => wrapInt 32 (signed v.width x)
/-- The result of one group of a scope, combined with what stands at its place where ACCUM asks (R185 to R188), and its poison (R189). -/
def Ctx.redGroup (c : Ctx) (op : OpFields) (v : VFmt) (g : List Nat × Nat × Nat) : RedRes × Bool :=
  let o := bitsOf op.subop 1 0
  let xs := g.1.map fun i => if c.enabled op i then some (redElem v (v.get (c.slot op.srcA i).v)) else none
  let old := c.slot op.dst g.2.1
  let oldI := c.slot op.dst g.2.2
  let r := if o = 0 then redSum v xs else if o = 3 then redArgmax v op.addr2 xs else redMaxMin v (o == 1) xs
  (if op.accum then redCombine v o old.v.toNat oldI.v.toNat r else r,
    (g.1.any fun i => c.enabled op i && (c.slot op.srcA i).poison) || (op.accum && (old.poison || (o == 3 && oldI.poison))))
/-- A reduction (R183 to R189): each group's result goes to its place of Td, the last one to the scalar registers; flags are raised and
poison is consumed. -/
def State.reduceTile (s0 : State) (pos n : Nat) (op : OpFields) (u : EngineUpset) (v : VFmt) : State :=
  let o := bitsOf op.subop 1 0
  let groups := redGroups (bitsOf op.subop 3 2) (bitsOf op.subop 7 4)
  let s2 := s0.redOperands pos n op u
  let c := s2.ctx pos n
  let done := groups.map fun g => (g, c.redGroup op v g)
  let puts := done.flatMap fun d =>
    (d.1.2.1, (⟨BitVec.ofNat 32 d.2.1.v, d.2.2, false⟩ : Slot))
      :: (if o = 3 then [(d.1.2.2, (⟨BitVec.ofNat 32 d.2.1.idx, d.2.2, false⟩ : Slot))] else [])
  let snan := v == .f16 && o == 0 && groups.any fun g => g.1.any fun i => c.enabled op i && fp16.isSnan (v.get (c.slot op.srcA i).v)
  let fl := done.foldl (fun a d => a ||| d.2.1.flags) (if snan then flagINV else 0)
  let s3 := (s2.setCtx pos n (c.setSlots op.dst puts)).vxFlag pos n fl
  let s4 := if done.any fun d => d.2.2 then s3.poisonRunAt pos n else s3
  let last := (done.getLastD (([], 0, 0), ⟨0, 0, 0⟩, false)).2.1
  s4.setMatrix pos { (s4.cell pos).mx with redVal := BitVec.ofNat 32 last.v, redIdx := BitVec.ofNat 32 last.idx }
/-- VX_RED (R183 to R189): Ta is SRCA, Td is DST, BASE is ADDR2 as its counter supplied it. -/
def execVxRed (pos n : Nat) (op : OpFields) (u : EngineUpset) (s : State) : Host.Outcome State Fault Refusal := s.onGrid <|
  let s0 := s.strikeSlice pos u.hits
  let o := bitsOf op.subop 1 0
  let sc := bitsOf op.subop 3 2
  let rr := bitsOf op.subop 7 4
  match vfmt op.fmt with
  | none => .next (s0.vxFormat pos n op)
  | some v =>
    if sc = 3 ∨ (o = 3 ∧ rr = 15) then .next (s0.vxFormat pos n op)
    else .next ((s0.reduceTile pos n op u v).vxRetire pos n op)

/-! ### Coupling to the matrix engine, and regrouping -/

/-- An entry of the curd queue is freed: the oldest stalled sub-tile takes it, and an emission whose last sub-tile it was ends (R191). -/
def State.curdFreed (s : State) (pos n : Nat) : State :=
  let c := s.ctx pos n
  match c.curdLate with
  | [] => s
  | t :: r =>
    let s1 := s.setCtx pos n { c with
      curd := c.curd ++ [t]
      curdLate := r }
    match (s1.cell pos).mxq.find? fun o => o.1 == n && o.2.opcode == 4 with
    | some o => if r.isEmpty then s1.mxRetire pos n o.2 else s1
    | none => s1

/-- VX_POP (R191): the oldest entry of the curd queue; an empty queue is waited for. -/
def execVxPop (pos n : Nat) (op : OpFields) (u : EngineUpset) (s : State) : Host.Outcome State Fault Refusal := s.onGrid <|
  let s0 := s.strikeSlice pos u.hits
  let c := s0.ctx pos n
  match c.curd with
  | [] => .next (s0.vxWait pos n op)
  | t :: r =>
    .next ((((s0.setCtx pos n { c with curd := r }).curdFreed pos n).tileWrite pos n op allSlots fun i => t.getD i Slot.zero).vxRetire pos n op)

/-- A sub-tile of a bank goes to DST as raw INT32 (R192); the bank is taken (R193), and its flags are raised. -/
def State.readSubTile (s0 : State) (pos n : Nat) (op : OpFields) (u : EngineUpset) : State :=
  let s1 := s0.bankRead pos n op.bank u.bad (allSlots.map (subTileIndex op.subop))
  let m := (s1.cell pos).mx
  let k := m.bank op.bank
  let inv := fmtKb (s1.ctx pos n).fmt && (k.rowExp.any (fun e => e.2 == 255) || k.wExp.any (fun e => e.2 == 255))
  let s2 := s1.setMatrix pos (m.setBank op.bank { k with taken := true })
  let s3 := s2.tileWrite pos n op allSlots fun i => let e := k.at_ (subTileIndex op.subop i); ⟨e.v, e.poison, false⟩
  s3.vxFlag pos n ((if k.aovf then flagOVF else 0) ||| (if inv then flagINV else 0))
/-- VX_ACCRD (R156, R192): sub-tile SUBOP of a bank as raw INT32. -/
def execVxAccrd (pos n : Nat) (op : OpFields) (u : EngineUpset) (s : State) : Host.Outcome State Fault Refusal := s.onGrid <|
  let s0 := s.strikeSlice pos u.hits
  if 3 < op.subop then .next (s0.vxFormat pos n op)
  else .next ((s0.readSubTile pos n op u).vxRetire pos n op)

/-- VX_ACCREL (R193): the bank is released. -/
def execVxAccrel (pos n : Nat) (op : OpFields) (u : EngineUpset) (s : State) : Host.Outcome State Fault Refusal := s.onGrid <|
  let s0 := s.strikeSlice pos u.hits
  let m := (s0.cell pos).mx
  .next ((s0.setMatrix pos (m.setBank op.bank { m.bank op.bank with taken := false })).vxRetire pos n op)

/-- Parameters of R194. -/
def s2cOk (r h w c : Nat) : Bool :=
  (r == 2 || r == 4) && decide (1 ≤ h) && decide (h ≤ 4096) && h % r == 0 && decide (1 ≤ w) && decide (w ≤ 4096) && w % r == 0
    && decide (1 ≤ c) && decide (c ≤ 64)

/-- The input element that output element number `o` of a regrouped image equals (R194). -/
def s2cSource (r w c o : Nat) : Nat :=
  let cr := c * (r * r)
  let k := o % cr
  let ij := o / cr
  let i := ij / (w / r)
  let j := ij % (w / r)
  let d := k / c
  ((i * r + d / r) * w + (j * r + d % r)) * c + k % c

/-- Bytes of an element of VX_S2C's FMT. -/
def s2cBytes (fmt : Nat) : Nat := if fmt = 4 then 4 else if fmt = 5 then 2 else 1
/-- The regrouped image: each output element is the input element that R194 names; and which output elements are poisoned. -/
def s2cImage (op : OpFields) (bs : List Byte) : List Byte :=
  (List.range (op.n * op.ag * op.c30)).flatMap fun o =>
    (bs.drop (s2cSource op.subop op.ag op.c30 o * s2cBytes op.fmt)).take (s2cBytes op.fmt)
def s2cPoison (op : OpFields) (ps : List Nat) : List Nat :=
  poisonGranules op.addr2 (s2cBytes op.fmt) ((List.range (op.n * op.ag * op.c30)).map fun o =>
    anyPoison op.addr ps (s2cSource op.subop op.ag op.c30 o * s2cBytes op.fmt) (s2cBytes op.fmt))
/-- VX_S2C (R194 to R196). DESIGN CHOICE (assumption 23): neither address needs an alignment. -/
def execVxS2c (pos n : Nat) (op : OpFields) (u : EngineUpset) (s : State) : Host.Outcome State Fault Refusal := s.onGrid <|
  let s0 := s.strikeSlice pos u.hits
  let fmtOk := op.fmt = 4 ∨ op.fmt = 5 ∨ op.fmt = 8
  let size := op.n * op.ag * op.c30 * s2cBytes op.fmt
  let overlap := op.addr < op.addr2 + size ∧ op.addr2 < op.addr + size
  if ¬fmtOk ∨ s2cOk op.subop op.n op.ag op.c30 = false ∨ overlap ∨ 2 ^ 30 ≤ op.addr ∨ 2 ^ 30 ≤ op.addr2 then
    .next (s0.vxFormat pos n op)
  else
    match (s0.ctx pos n).range op.addr2 size with
    | .bound => .next ((s0.issuerBound pos n op.addr2 size).vxRetire pos n op)
    | .format => .next (s0.vxFormat pos n op)
    | _ =>
      if (s0.ctx pos n).writeWaits (bitsOf op.addr2 18 0) size then .next (s0.vxWait pos n op)
      else
        match s0.engRead pos n op.addr size with
        | .waits => .next (s0.vxWait pos n op)
        | .ended t => .next (t.vxRetire pos n op)
        | .got t (bs, ps) =>
          match t.engWrite pos n op.addr2 (s2cImage op bs) (s2cPoison op ps) with
          | .waits => .next (t.vxWait pos n op)
          | .ended t2 => .next (t2.vxRetire pos n op)
          | .got t2 _ => .next (t2.vxRetire pos n op)

end Sys2Proof.Machine
end

