-- ==== Sys2Proof/Machine/Dispatch.lean ====
section
/-! DEFINITION. The dispatch of a command to its meaning: one arm for each constructor. -/
namespace Sys2Proof.Machine

/-- The effect of a command on everything but the queue. -/
def exec (i : Instr) (s : State) : Host.Outcome State Fault Refusal :=
  match i with
  | .regWrite rq addr val image how places => Sys2Proof.Machine.execRegWrite rq addr val image how places s
  | .readLowWordLatch rq addr => Sys2Proof.Machine.execReadLowWordLatch rq addr s
  | .writeHighWordCommit rq addr val => Sys2Proof.Machine.execWriteHighWordCommit rq addr val s
  | .recordWindowIdxWrite rq addr val => Sys2Proof.Machine.execRecordWindowIdxWrite rq addr val s
  | .recordWindowDataRead rq addr => Sys2Proof.Machine.execRecordWindowDataRead rq addr s
  | .tableWindowCommit rq addr val => Sys2Proof.Machine.execTableWindowCommit rq addr val s
  | .errLogClear rq pg => Sys2Proof.Machine.execErrLogClear rq pg s
  | .counterClear rq addr => Sys2Proof.Machine.execCounterClear rq addr s
  | .pageCtlReset rq pg => Sys2Proof.Machine.execPageCtlReset rq pg s
  | .pageCtlLock rq pg => Sys2Proof.Machine.execPageCtlLock rq pg s
  | .tick sensors temps given => Sys2Proof.Machine.execTick sensors temps given s
  | .napEnter => Sys2Proof.Machine.execNapEnter s
  | .guardStart => Sys2Proof.Machine.execGuardStart s
  | .runStart sid => Sys2Proof.Machine.execRunStart sid s
  | .budgetExpire sid => Sys2Proof.Machine.execBudgetExpire sid s
  | .runComplete sid at_ => Sys2Proof.Machine.execRunComplete sid at_ s
  | .drainComplete sid end_ => Sys2Proof.Machine.execDrainComplete sid end_ s
  | .drainTimeout sid => Sys2Proof.Machine.execDrainTimeout sid s
  | .runIdleTimeout sid => Sys2Proof.Machine.execRunIdleTimeout sid s
  | .tbSrcLost at_ => Sys2Proof.Machine.execTbSrcLost at_ s
  | .holdoverExpire at_ => Sys2Proof.Machine.execHoldoverExpire at_ s
  | .alignRecover => Sys2Proof.Machine.execAlignRecover s
  | .frameSyncInEdge at_ => Sys2Proof.Machine.execFrameSyncInEdge at_ s
  | .syncEdgeSelect at_ => Sys2Proof.Machine.execSyncEdgeSelect at_ s
  | .timebaseWrite rq val => Sys2Proof.Machine.execTimebaseWrite rq val s
  | .epochWrite rq val => Sys2Proof.Machine.execEpochWrite rq val s
  | .frameEnable rq => Sys2Proof.Machine.execFrameEnable rq s
  | .frameDisable rq => Sys2Proof.Machine.execFrameDisable rq s
  | .disabledDelayExpire at_ => Sys2Proof.Machine.execDisabledDelayExpire at_ s
  | .meshPacketArrive pos port pkt up => Sys2Proof.Machine.execMeshPacketArrive pos port pkt up s
  | .mcForward pos => Sys2Proof.Machine.execMcForward pos s
  | .redMergeAddI32 pos region tag seq => Sys2Proof.Machine.execRedMergeAddI32 pos region tag seq s
  | .redMergeAddF32 pos region tag seq => Sys2Proof.Machine.execRedMergeAddF32 pos region tag seq s
  | .redMergeMaxF32 pos region tag seq => Sys2Proof.Machine.execRedMergeMaxF32 pos region tag seq s
  | .redMergeLse pos region tag seq => Sys2Proof.Machine.execRedMergeLse pos region tag seq s
  | .linkCreditReturn pos port vn n => Sys2Proof.Machine.execLinkCreditReturn pos port vn n s
  | .vn0AgePromote pos => Sys2Proof.Machine.execVn0AgePromote pos s
  | .routerPlaneFault pos => Sys2Proof.Machine.execRouterPlaneFault pos s
  | .spAccessGrant pos n write addr size data poison hits => Sys2Proof.Machine.execSpAccessGrant pos n write addr size data poison hits s
  | .ceWriteback pos granule => Sys2Proof.Machine.execCeWriteback pos granule s
  | .remoteAccessArrive pos src region write off size data poison hits => Sys2Proof.Machine.execRemoteAccessArrive pos src region write off size data poison hits s
  | .remoteReadResponse pos n data poison err => Sys2Proof.Machine.execRemoteReadResponse pos n data poison err s
  | .scrubVisit pos hits => Sys2Proof.Machine.execScrubVisit pos hits s
  | .scrubLate pos => Sys2Proof.Machine.execScrubLate pos s
  | .bar4ScratchpadAccess write off size data hits => Sys2Proof.Machine.execBar4ScratchpadAccess write off size data hits s
  | .bar4MemoryAccess fn slot write off size data hits => Sys2Proof.Machine.execBar4MemoryAccess fn slot write off size data hits s
  | .triggerFire pos => Sys2Proof.Machine.execTriggerFire pos s
  | .tokenArrive pos n ti v poison => Sys2Proof.Machine.execTokenArrive pos n ti v poison s
  | .nop pos => Sys2Proof.Machine.execNop pos s
  | .mxLoadw pos n op u => Sys2Proof.Machine.execMxLoadw pos n op u s
  | .mxSwap pos n op u => Sys2Proof.Machine.execMxSwap pos n op u s
  | .mxMac pos n op u => Sys2Proof.Machine.execMxMac pos n op u s
  | .mxRead pos n op u => Sys2Proof.Machine.execMxRead pos n op u s
  | .vxAdd pos n op u => Sys2Proof.Machine.execVxAdd pos n op u s
  | .vxSub pos n op u => Sys2Proof.Machine.execVxSub pos n op u s
  | .vxMul pos n op u => Sys2Proof.Machine.execVxMul pos n op u s
  | .vxFma pos n op u => Sys2Proof.Machine.execVxFma pos n op u s
  | .vxMin pos n op u => Sys2Proof.Machine.execVxMin pos n op u s
  | .vxMax pos n op u => Sys2Proof.Machine.execVxMax pos n op u s
  | .vxAbs pos n op u => Sys2Proof.Machine.execVxAbs pos n op u s
  | .vxNeg pos n op u => Sys2Proof.Machine.execVxNeg pos n op u s
  | .vxAnd pos n op u => Sys2Proof.Machine.execVxAnd pos n op u s
  | .vxOr pos n op u => Sys2Proof.Machine.execVxOr pos n op u s
  | .vxXor pos n op u => Sys2Proof.Machine.execVxXor pos n op u s
  | .vxShl pos n op u => Sys2Proof.Machine.execVxShl pos n op u s
  | .vxShra pos n op u => Sys2Proof.Machine.execVxShra pos n op u s
  | .vxShrl pos n op u => Sys2Proof.Machine.execVxShrl pos n op u s
  | .vxCmpEq pos n op u => Sys2Proof.Machine.execVxCmpEq pos n op u s
  | .vxCmpNe pos n op u => Sys2Proof.Machine.execVxCmpNe pos n op u s
  | .vxCmpLt pos n op u => Sys2Proof.Machine.execVxCmpLt pos n op u s
  | .vxCmpLe pos n op u => Sys2Proof.Machine.execVxCmpLe pos n op u s
  | .vxSel pos n op u => Sys2Proof.Machine.execVxSel pos n op u s
  | .vxCvt pos n op u => Sys2Proof.Machine.execVxCvt pos n op u s
  | .vxExp pos n op u => Sys2Proof.Machine.execVxExp pos n op u s
  | .vxRcp pos n op u => Sys2Proof.Machine.execVxRcp pos n op u s
  | .vxRsqrt pos n op u => Sys2Proof.Machine.execVxRsqrt pos n op u s
  | .vxTanh pos n op u => Sys2Proof.Machine.execVxTanh pos n op u s
  | .vxErf pos n op u => Sys2Proof.Machine.execVxErf pos n op u s
  | .vxMov pos n op u => Sys2Proof.Machine.execVxMov pos n op u s
  | .vxBcast pos n op u => Sys2Proof.Machine.execVxBcast pos n op u s
  | .vxTrn pos n op u => Sys2Proof.Machine.execVxTrn pos n op u s
  | .vxLd pos n op u => Sys2Proof.Machine.execVxLd pos n op u s
  | .vxSt pos n op u => Sys2Proof.Machine.execVxSt pos n op u s
  | .vxQst pos n op u => Sys2Proof.Machine.execVxQst pos n op u s
  | .vxMkrange pos n op u => Sys2Proof.Machine.execVxMkrange pos n op u s
  | .vxMkand pos n op u => Sys2Proof.Machine.execVxMkand pos n op u s
  | .vxMkor pos n op u => Sys2Proof.Machine.execVxMkor pos n op u s
  | .vxMknot pos n op u => Sys2Proof.Machine.execVxMknot pos n op u s
  | .vxRed pos n op u => Sys2Proof.Machine.execVxRed pos n op u s
  | .vxPop pos n op u => Sys2Proof.Machine.execVxPop pos n op u s
  | .vxAccrd pos n op u => Sys2Proof.Machine.execVxAccrd pos n op u s
  | .vxAccrel pos n op u => Sys2Proof.Machine.execVxAccrel pos n op u s
  | .vxS2c pos n op u => Sys2Proof.Machine.execVxS2c pos n op u s
  | .descLoad d place image => Sys2Proof.Machine.execDescLoad d place image s
  | .loadAccept d => Sys2Proof.Machine.execLoadAccept d s
  | .imageVerifyComplete d at_ => Sys2Proof.Machine.execImageVerifyComplete d at_ s
  | .imageReadFail d how at_ => Sys2Proof.Machine.execImageReadFail d how at_ s
  | .descUnload d => Sys2Proof.Machine.execDescUnload d s
  | .descRun d => Sys2Proof.Machine.execDescRun d s
  | .streamDataArrive pos pkt => Sys2Proof.Machine.execStreamDataArrive pos pkt s
  | .crdArrive pos pkt => Sys2Proof.Machine.execCrdArrive pos pkt s
  | .crdTimerReturn pos n idx => Sys2Proof.Machine.execCrdTimerReturn pos n idx s
  | .streamUnitSend pos n idx => Sys2Proof.Machine.execStreamUnitSend pos n idx s
  | .streamDbWrite rq k tail => Sys2Proof.Machine.execStreamDbWrite rq k tail s
  | .seRead k idx => Sys2Proof.Machine.execSeRead k idx s
  | .seWrite k idx hits => Sys2Proof.Machine.execSeWrite k idx hits s
  | .seMigrateIn k idx hits => Sys2Proof.Machine.execSeMigrateIn k idx hits s
  | .seMigrateOut k idx strike hits => Sys2Proof.Machine.execSeMigrateOut k idx strike hits s
  | .moduleReadReturn k idx u data how hits => Sys2Proof.Machine.execModuleReadReturn k idx u data how hits s
  | .seDescComplete k idx => Sys2Proof.Machine.execSeDescComplete k idx s
  | .channelBringup c spd trains => Sys2Proof.Machine.execChannelBringup c spd trains s
  | .memWcrcError c off again thrice => Sys2Proof.Machine.execMemWcrcError c off again thrice s
  | .moduleCeWriteback c granule => Sys2Proof.Machine.execModuleCeWriteback c granule s
  | .moduleScrubVisit c hits => Sys2Proof.Machine.execModuleScrubVisit c hits s
  | .channelLost c why => Sys2Proof.Machine.execChannelLost c why s
  | .chanRestoredWrite rq val => Sys2Proof.Machine.execChanRestoredWrite rq val s
  | .pressCmdIssue c q at_ => Sys2Proof.Machine.execPressCmdIssue c q at_ s
  | .pressCmdAccept c q slot at_ => Sys2Proof.Machine.execPressCmdAccept c q slot at_ s
  | .pressAttn c q => Sys2Proof.Machine.execPressAttn c q s
  | .pressBurstStart c at_ hits => Sys2Proof.Machine.execPressBurstStart c at_ hits s
  | .pressCmdComplete c q at_ => Sys2Proof.Machine.execPressCmdComplete c q at_ s
  | .pressQueueReset c q => Sys2Proof.Machine.execPressQueueReset c q s
  | .pressHot c temp => Sys2Proof.Machine.execPressHot c temp s
  | .pressQcompPoll c q at_ => Sys2Proof.Machine.execPressQcompPoll c q at_ s
  | .pressTimeout c q at_ => Sys2Proof.Machine.execPressTimeout c q at_ s
  | .hostLinkTrain rate width flit cxl at_ => Sys2Proof.Machine.execHostLinkTrain rate width flit cxl at_ s
  | .hostLinkDown at_ => Sys2Proof.Machine.execHostLinkDown at_ s
  | .hotReset at_ => Sys2Proof.Machine.execHotReset at_ s
  | .flrVf v at_ => Sys2Proof.Machine.execFlrVf v at_ s
  | .flrPf1 at_ => Sys2Proof.Machine.execFlrPf1 at_ s
  | .flrPf0 at_ => Sys2Proof.Machine.execFlrPf0 at_ s
  | .dbSqTail vf page size val at_ => Sys2Proof.Machine.execDbSqTail vf page size val at_ s
  | .dbCqHead vf page size val at_ => Sys2Proof.Machine.execDbCqHead vf page size val at_ s
  | .sqFetch t => Sys2Proof.Machine.execSqFetch t s
  | .sqFetchComplete t sq host sqEnd hostEnd at_ => Sys2Proof.Machine.execSqFetchComplete t sq host sqEnd hostEnd at_ s
  | .qCtlEnWrite rq t val => Sys2Proof.Machine.execQCtlEnWrite rq t val s
  | .tenantQueueReset rq t => Sys2Proof.Machine.execTenantQueueReset rq t s
  | .tenantCreate rq t => Sys2Proof.Machine.execTenantCreate rq t s
  | .tenantDestroy rq t => Sys2Proof.Machine.execTenantDestroy rq t s
  | .tenantFnWrite rq t val => Sys2Proof.Machine.execTenantFnWrite rq t val s
  | .noticeAckWrite rq t val => Sys2Proof.Machine.execNoticeAckWrite rq t val s
  | .vfWindowWrite vf k off val at_ => Sys2Proof.Machine.execVfWindowWrite vf k off val at_ s
  | .cxlMemRequest write off size data poison hits => Sys2Proof.Machine.execCxlMemRequest write off size data poison hits s
  | .cxlSnoop addr => Sys2Proof.Machine.execCxlSnoop addr s
  | .tyzPortEnable rq n val => Sys2Proof.Machine.execTyzPortEnable rq n val s
  | .tyzTrainComplete n peerGen => Sys2Proof.Machine.execTyzTrainComplete n peerGen s
  | .tyzTrainTimeout n => Sys2Proof.Machine.execTyzTrainTimeout n s
  | .tyzLostRetrain n ok peerGen => Sys2Proof.Machine.execTyzLostRetrain n ok peerGen s
  | .tyzLaneFail n lane => Sys2Proof.Machine.execTyzLaneFail n lane s
  | .tyzLanemapFlit n map => Sys2Proof.Machine.execTyzLanemapFlit n map s
  | .tyzDataFlit n b => Sys2Proof.Machine.execTyzDataFlit n b s
  | .tyzIdleFlit n b => Sys2Proof.Machine.execTyzIdleFlit n b s
  | .tyzNakFlit n b at_ => Sys2Proof.Machine.execTyzNakFlit n b at_ s
  | .tyzAckTimeout n => Sys2Proof.Machine.execTyzAckTimeout n s
  | .tyzPacketRoute => Sys2Proof.Machine.execTyzPacketRoute s
  | .tyzRdReq hits => Sys2Proof.Machine.execTyzRdReq hits s
  | .tyzRdRsp => Sys2Proof.Machine.execTyzRdRsp s
  | .tyzWr hits => Sys2Proof.Machine.execTyzWr hits s
  | .tyzWrAck => Sys2Proof.Machine.execTyzWrAck s
  | .tyzStream => Sys2Proof.Machine.execTyzStream s
  | .tyzCrd => Sys2Proof.Machine.execTyzCrd s
  | .tyzAddI32 => Sys2Proof.Machine.execTyzAddI32 s
  | .tyzAddF32 => Sys2Proof.Machine.execTyzAddF32 s
  | .tyzMaxF32 => Sys2Proof.Machine.execTyzMaxF32 s
  | .tyzLseMerge => Sys2Proof.Machine.execTyzLseMerge s
  | .tyzCollRes => Sys2Proof.Machine.execTyzCollRes s
  | .tyzMgmt reach => Sys2Proof.Machine.execTyzMgmt reach s
  | .tyzRmaTimeout tag at_ => Sys2Proof.Machine.execTyzRmaTimeout tag at_ s
  | .alignFlitSend n at_ => Sys2Proof.Machine.execAlignFlitSend n at_ s
  | .alignFlitReceive n at_ f => Sys2Proof.Machine.execAlignFlitReceive n at_ f s
  | .rtCopy rq => Sys2Proof.Machine.execRtCopy rq s
  | .ethDgramReceive k b fcsOk => Sys2Proof.Machine.execEthDgramReceive k b fcsOk s
  | .ethRtoExpire d => Sys2Proof.Machine.execEthRtoExpire d s
  | .ptpMessage k at_ offset => Sys2Proof.Machine.execPtpMessage k at_ offset s
  | .policyAdaptWindow => Sys2Proof.Machine.execPolicyAdaptWindow s
  | .kvIdleEvict d => Sys2Proof.Machine.execKvIdleEvict d s
  | .railSample mw at_ => Sys2Proof.Machine.execRailSample mw at_ s
  | .emergThrottle sensors at_ => Sys2Proof.Machine.execEmergThrottle sensors at_ s
  | .thermtrip idx raw at_ => Sys2Proof.Machine.execThermtrip idx raw at_ s
  | .pwrfailAssert at_ => Sys2Proof.Machine.execPwrfailAssert at_ s
  | .pwrfailRelease at_ => Sys2Proof.Machine.execPwrfailRelease at_ s
  | .railFault k raw at_ => Sys2Proof.Machine.execRailFault k raw at_ s
  | .acctBoundaryInSleep at_ => Sys2Proof.Machine.execAcctBoundaryInSleep at_ s
  | .wallOfsWrite rq val => Sys2Proof.Machine.execWallOfsWrite rq val s
  | .repairApplyWrite rq val => Sys2Proof.Machine.execRepairApplyWrite rq val s
  | .repairCopy q y at_ => Sys2Proof.Machine.execRepairCopy q y at_ s
  | .repairSwap at_ => Sys2Proof.Machine.execRepairSwap at_ s
  | .swapWaitExpire at_ => Sys2Proof.Machine.execSwapWaitExpire at_ s
  | .repairNvRetry at_ => Sys2Proof.Machine.execRepairNvRetry at_ s
  | .repairClear rq val => Sys2Proof.Machine.execRepairClear rq val s
  | .coreHeartbeatMiss k at_ => Sys2Proof.Machine.execCoreHeartbeatMiss k at_ s
  | .coreLoad k addr size hits at_ => Sys2Proof.Machine.execCoreLoad k addr size hits at_ s
  | .coreStore k addr data hits image how places at_ => Sys2Proof.Machine.execCoreStore k addr data hits image how places at_ s
  | .l1dEvict k line hits at_ => Sys2Proof.Machine.execL1dEvict k line hits at_ s
  | .l1iMiss k addr parity at_ => Sys2Proof.Machine.execL1iMiss k addr parity at_ s
  | .coreLr k addr size hits at_ => Sys2Proof.Machine.execCoreLr k addr size hits at_ s
  | .coreSc k addr data hits at_ => Sys2Proof.Machine.execCoreSc k addr data hits at_ s
  | .busRd hits at_ => Sys2Proof.Machine.execBusRd hits at_ s
  | .busRdx hits at_ => Sys2Proof.Machine.execBusRdx hits at_ s
  | .busUpgr hits at_ => Sys2Proof.Machine.execBusUpgr hits at_ s
  | .busRdcur ap line hits at_ => Sys2Proof.Machine.execBusRdcur ap line hits at_ s
  | .busWb hits at_ => Sys2Proof.Machine.execBusWb hits at_ s
  | .busWrinv off data hits at_ => Sys2Proof.Machine.execBusWrinv off data hits at_ s
  | .busWrmrg off data hits at_ => Sys2Proof.Machine.execBusWrmrg off data hits at_ s
  | .dataSupply at_ => Sys2Proof.Machine.execDataSupply at_ s
  | .homeTimeout at_ => Sys2Proof.Machine.execHomeTimeout at_ s
  | .por => Sys2Proof.Machine.execPor s
  | .boardReset at_ => Sys2Proof.Machine.execBoardReset at_ s
  | .rstGrid rq => Sys2Proof.Machine.execRstGrid rq s
  | .rstCluster rq => Sys2Proof.Machine.execRstCluster rq s
  | .rstDevice rq => Sys2Proof.Machine.execRstDevice rq s
  | .powerUpSequence => Sys2Proof.Machine.execPowerUpSequence s
  | .boot b => Sys2Proof.Machine.execBoot b s
  | .stageDataWrite rq val => Sys2Proof.Machine.execStageDataWrite rq val s
  | .stageGo rq places => Sys2Proof.Machine.execStageGo rq places s
  | .flashOpStart => Sys2Proof.Machine.execFlashOpStart s
  | .flashEraseComplete ok => Sys2Proof.Machine.execFlashEraseComplete ok s
  | .flashProgramComplete ok => Sys2Proof.Machine.execFlashProgramComplete ok s
  | .nvUpdGo rq activate image how => Sys2Proof.Machine.execNvUpdGo rq activate image how s
  | .nvAcctAck rq val => Sys2Proof.Machine.execNvAcctAck rq val s
  | .nvAuditAck rq val => Sys2Proof.Machine.execNvAuditAck rq val s
  | .secVerMinWrite rq val => Sys2Proof.Machine.execSecVerMinWrite rq val s
  | .wdtService rq val => Sys2Proof.Machine.execWdtService rq val s
  | .wdtExpire at_ => Sys2Proof.Machine.execWdtExpire at_ s
  | .wdtClockExpire count at_ => Sys2Proof.Machine.execWdtClockExpire count at_ s
  | .wdtStage2 at_ => Sys2Proof.Machine.execWdtStage2 at_ s
  | .wdtHoldExpire at_ => Sys2Proof.Machine.execWdtHoldExpire at_ s
  | .traceEnable rq => Sys2Proof.Machine.execTraceEnable rq s
  | .traceRingWrite => Sys2Proof.Machine.execTraceRingWrite s
  | .traceFwRec rq val => Sys2Proof.Machine.execTraceFwRec rq val s
  | .traceDumpGo rq => Sys2Proof.Machine.execTraceDumpGo rq s
  | .traceDumpAck rq => Sys2Proof.Machine.execTraceDumpAck rq s
  | .jtagIdcode => Sys2Proof.Machine.execJtagIdcode s
  | .jtagBypass => Sys2Proof.Machine.execJtagBypass s
  | .jtagSamplePreload pins preload => Sys2Proof.Machine.execJtagSamplePreload pins preload s
  | .jtagExtest => Sys2Proof.Machine.execJtagExtest s
  | .jtagClamp => Sys2Proof.Machine.execJtagClamp s
  | .jtagHighz => Sys2Proof.Machine.execJtagHighz s
  | .debugCoreHalt k at_ => Sys2Proof.Machine.execDebugCoreHalt k at_ s
  | .uartRegAccess write addr val at_ image how places => Sys2Proof.Machine.execUartRegAccess write addr val at_ image how places s
  | .pldmSensorRead sensor => Sys2Proof.Machine.execPldmSensorRead sensor s
  | .pldmEffecterWrite w at_ => Sys2Proof.Machine.execPldmEffecterWrite w at_ s
  | .pldmPowerWake at_ => Sys2Proof.Machine.execPldmPowerWake at_ s
  | .sessOpen rq role key => Sys2Proof.Machine.execSessOpen rq role key s
  | .sessResp rq val => Sys2Proof.Machine.execSessResp rq val s
  | .sessClose rq => Sys2Proof.Machine.execSessClose rq s
  | .sessIdleClose k at_ => Sys2Proof.Machine.execSessIdleClose k at_ s
  | .nonceExpire k at_ => Sys2Proof.Machine.execNonceExpire k at_ s
  | .lockoutExpire k at_ => Sys2Proof.Machine.execLockoutExpire k at_ s
  | .keyWrite rq slot => Sys2Proof.Machine.execKeyWrite rq slot s
  | .keyRevoke rq slot => Sys2Proof.Machine.execKeyRevoke rq slot s
  | .keyClaim rq => Sys2Proof.Machine.execKeyClaim rq s
  | .keyBurnComplete ok => Sys2Proof.Machine.execKeyBurnComplete ok s
  | .mfuseGo rq val => Sys2Proof.Machine.execMfuseGo rq val s
  | .lcGo rq target => Sys2Proof.Machine.execLcGo rq target s
  | .attestNonceWrite rq val => Sys2Proof.Machine.execAttestNonceWrite rq val s
  | .calSave rq => Sys2Proof.Machine.execCalSave rq s
  | .calClearAll rq => Sys2Proof.Machine.execCalClearAll rq s
  | .lpReqSleep rq => Sys2Proof.Machine.execLpReqSleep rq s
  | .lpReqStandby rq => Sys2Proof.Machine.execLpReqStandby rq s
  | .lpReqRun rq => Sys2Proof.Machine.execLpReqRun rq s
  | .sleepEnter => Sys2Proof.Machine.execSleepEnter s
  | .standbyEnter => Sys2Proof.Machine.execStandbyEnter s
  | .sleepExitReady at_ => Sys2Proof.Machine.execSleepExitReady at_ s
  | .bisnpResponse k idx answer => Sys2Proof.Machine.execBisnpResponse k idx answer s
  | .migrationResume k => Sys2Proof.Machine.execMigrationResume k s
  | .tc0AgePromote n => Sys2Proof.Machine.execTc0AgePromote n s
  | .ethLinkDown k => Sys2Proof.Machine.execEthLinkDown k s
  | .ethLinkUp k => Sys2Proof.Machine.execEthLinkUp k s
  | .refclkSysLost => Sys2Proof.Machine.execRefclkSysLost s
  | .debugCoreResume k at_ => Sys2Proof.Machine.execDebugCoreResume k at_ s
  | .lcBurnComplete => Sys2Proof.Machine.execLcBurnComplete s
  | .msixVectorUnmask fn vec addr data => Sys2Proof.Machine.execMsixVectorUnmask fn vec addr data s
  | .sriovVfEnable n on_ => Sys2Proof.Machine.execSriovVfEnable n on_ s
  | .hdmDecoderCommit commit => Sys2Proof.Machine.execHdmDecoderCommit commit s
  | .heldRelease sid => Sys2Proof.Machine.execHeldRelease sid s

end Sys2Proof.Machine
end

