-- ==== Sys2Proof/Safety.lean ====
section
/-! DEFINITION. What counts as a safe run, and the terms the statements use: what a step keeps, register accesses that are
performed, and the canonical form of the register file. -/
namespace Sys2Proof

/-- A property that every step that answers a next state keeps. -/
def KeptByStep (Inv : Machine.State → Prop) : Prop :=
  ∀ s t, Inv s → Machine.step s = .next t → Inv t

/-- A frame: `keep s t` is `t` with the pieces of state that the command may change put back; where the command answers a next state, that
is the state it started from. -/
def Frame (keep : Machine.State → Machine.State → Machine.State) (c : Instr) : Prop :=
  ∀ s t, Machine.exec c s = .next t → keep s t = s

namespace Machine

/-- The state in which a register access is performed: its instant has come, the notes that are due are reported, and the interface's
session has been used (R552). -/
def State.onBus (s : State) (rq : Req) : State := ((s.advance rq.at_).flushNotes).touch rq.iface

/-- A write of `rq` to the word at `addr` is performed: the address is no VF's, the bus answers, the page exists, the requester has write right (R545), the audit
log has room (R497), and the word is not one of a position out of service (R616). -/
def State.writes (s : State) (rq : Req) (addr : Nat) : Prop :=
  let v := s.onBus rq
  let pg := addr / 0x1000
  let off := addr % 0x1000
  vfOf rq addr = none ∧ v.busAnswers rq.iface = true ∧ v.mayWrite rq.iface pg off = true ∧ (v.audits rq.iface pg off && v.auditFull) = false
    ∧ ∃ k, pageKind pg = some k ∧ (k = .cell → (v.logicalOf (pg - pageBase k)).1 = 0 ∨ cellKept off = true)

/-- What a performed write leaves, `r` being its effect and result: where the write is audited, its WRITE record follows (R566). -/
def State.logged (s : State) (rq : Req) (addr : Nat) (val : Word) (r : State × Nat) : State :=
  let v := s.onBus rq
  let pg := addr / 0x1000
  let off := addr % 0x1000
  if v.audits rq.iface pg off then
    r.1.audit 0x01 (v.roleOf rq.iface) (auditIface rq.iface) r.2 (pg * 0x1000) off 0 (v.word rq.iface pg off) (r.1.word rq.iface pg off) val.toNat
  else r.1

/-- The register file's canonical form: addresses strictly rising, and no word listed at its reset value. -/
def regsWf (m : SMap Word) : Prop := (m.map (·.1)).Pairwise (· < ·) ∧ ∀ e ∈ m, e.2 ≠ regReset e.1

end Machine

end Sys2Proof
end

