-- ==== Sys2Proof/Certificates/Slice0/Obligations.lean ====
section
/-! DEFINITION. The statements about the block for the provers, one definition each. -/
open Sys2Proof Sys2Proof.Machine

/-- For every command c and state s, step of s with c at the front of its queue is exec of c on s with the queue as it stood behind c.
With no command waiting a step leaves the state as it is. The queue and the idle step are the model's (log entries 1 and 5).
(spec/INDEX.md) -/
def Obligations.StepRunsFrontCommand : Prop :=
  (∀ (c : Instr) (s : State), step { s with pending := c :: s.pending } = exec c s) ∧ ∀ s : State, s.pending = [] → step s = .next s

/-- The opcode table gives no row bits: no word of any length spells a command, and placing a word at the fetch leaves the state as it
is. (spec/INDEX.md) -/
def Obligations.WordsSpellNoCommand : Prop :=
  ∀ (nbits w : Nat) (s : State), decodeTableWord nbits w = none ∧ s.withFetchWord nbits w = s

/-- Whatever command runs, where it answers a next state the queue of waiting commands is as it was: no command issues, drops or
reorders commands. With the step, the queue is first in, first out (log entry 1). (spec/INDEX.md) -/
def Obligations.CommandsLeaveTheQueue : Prop :=
  ∀ (c : Instr) (s t : State), exec c s = .next t → t.pending = s.pending

/-- If the register file lists its words at strictly rising addresses and none at its reset value, so it does after every step that
answers a next state, whatever the command: equal register contents are equal data, and no word is lost or doubled.
(spec/20_register_reference_system.md, spec/21_register_reference_data.md) -/
def Obligations.RegisterFileStaysCanonical : Prop :=
  KeptByStep (fun s => regsWf s.regs)

/-- The state after reset lists its register words at rising addresses, none at its reset value. (spec/20_register_reference_system.md)
-/
def Obligations.RegisterFileCanonicalAtReset : Prop :=
  regsWf State.reset.regs

/-- Whatever command stands at the front, and with none, a step of the block answers a next state: never a refusal, never a fault. The
spec gives every command an effect, acting as nothing where its event has not arisen (log entry 6). (spec/INDEX.md) -/
def Obligations.StepsAnswerNoRefusal : Prop :=
  ∀ s : State, ∃ t, step s = .next t

/-- After a word of the register file is written with v, that word reads v and every other word reads as before; writing the reset
value leaves the word at its reset value. The rest of the state is unchanged. (spec/20_register_reference_system.md) -/
def Obligations.RegisterReadsBackWhatIsWritten : Prop :=
  ∀ (s : State) (a : Nat) (v : Word), (s.setReg a v).reg a = v ∧ (∀ b, b ≠ a → (s.setReg a v).reg b = s.reg b)
    ∧ { s.setReg a v with regs := s.regs } = s

/-- After a field (bits hi to lo, hi below 32) of a page is set to v, it reads v modulo its width, every bit of the word outside the
field is as before, and every other word is as before. (spec/20_register_reference_system.md) -/
def Obligations.FieldReadsBackWhatIsWritten : Prop :=
  ∀ (s : State) (pg : Nat) (f : Fld) (v : Nat), f.lo ≤ f.hi → f.hi < 32 →
    (s.setFld pg f v).fld pg f = v % 2 ^ (f.hi + 1 - f.lo)
    ∧ (∀ k, k < 32 → (k < f.lo ∨ f.hi < k) → (s.setFld pg f v).regBit (pg * 0x1000 + f.off) k = s.regBit (pg * 0x1000 + f.off) k)
    ∧ (∀ b, b ≠ pg * 0x1000 + f.off → (s.setFld pg f v).reg b = s.reg b)

/-- A register write of a requester without write right on the page changes nothing but the error count and capture of that page: the
state is that of the access with pageError of CAUSE 0x02, the interface and the value written, whatever the register and even where it
is out of service. A read without read right sends 0 to its requester and changes nothing else. Neither stops the block. (R545) -/
def Obligations.WriteWithoutRightIsCaptured : Prop :=
  (∀ (rq : Req) (addr : Nat) (val : Word) (image : List Byte) (how : ReadEnd) (places : List Placement) (s : State),
      ¬ (0x28000 ≤ addr ∧ addr < 0x30000) → vfOf rq addr = none → (s.onBus rq).busAnswers rq.iface = true → pageKind (addr / 0x1000) ≠ none →
      (s.onBus rq).mayWrite rq.iface (addr / 0x1000) (addr % 0x1000) = false →
      exec (.regWrite rq addr val image how places) s
        = .next ((s.onBus rq).pageError (addr / 0x1000) (addr % 0x1000) (ifaceCode rq.iface) 0x02 val))
    ∧ (∀ (rq : Req) (addr : Nat) (s : State), ¬ (0x28000 ≤ addr ∧ addr < 0x31000) → vfOf rq addr = none →
      (s.onBus rq).readAnswers rq.iface addr = true → (s.onBus rq).mayRead rq.iface (addr / 0x1000) (addr % 0x1000) = false →
      exec (.readLowWordLatch rq addr) s = .next ((s.onBus rq).emit (.regData rq 0)))

/-- While the audit log and its queue are full, a write of an installer or maker with write right to an audited page changes nothing
but that page's error count and capture, with CAUSE 0x03 and the value written in ERR_LOG1. (spec/16_boot_images_nv.md, R497) -/
def Obligations.AuditedWriteWaitsForRoom : Prop :=
  ∀ (rq : Req) (addr : Nat) (val : Word) (image : List Byte) (how : ReadEnd) (places : List Placement) (s : State),
    ¬ (0x28000 ≤ addr ∧ addr < 0x30000) → vfOf rq addr = none → (s.onBus rq).busAnswers rq.iface = true → pageKind (addr / 0x1000) ≠ none →
    (s.onBus rq).mayWrite rq.iface (addr / 0x1000) (addr % 0x1000) = true →
    (s.onBus rq).audits rq.iface (addr / 0x1000) (addr % 0x1000) = true → (s.onBus rq).auditFull = true →
    exec (.regWrite rq addr val image how places) s
      = .next ((s.onBus rq).pageError (addr / 0x1000) (addr % 0x1000) (ifaceCode rq.iface) 0x03 val)

/-- Where a write is performed, REG_WRITE, WRITE_HIGH_WORD_COMMIT, RECORD_WINDOW_IDX_WRITE, TABLE_WINDOW_COMMIT, ERR_LOG_CLEAR (0 to
ERR_LOG0), COUNTER_CLEAR (0 to the counter), PAGE_CTL_RESET and PAGE_CTL_LOCK (CTL with bit 1 or bit 2 set) and a UART write answer a
next state: the effect of that write on the word, by its access code or rule, then its audit record where the write is audited. REG_WRITE in
BAR0 of an enabled VF, or in the MSI-X table of the requester's function, writes what that BAR0 or table shows.
(spec/20_register_reference_system.md, R11, R309, R440, R444, R604, R605, R609, R610, R614) -/
def Obligations.RegisterWritesComplete : Prop :=
  (∀ (rq : Req) (addr : Nat) (val : Word) (image : List Byte) (how : ReadEnd) (places : List Placement) (s : State),
      ¬ (0x28000 ≤ addr ∧ addr < 0x30000) → s.writes rq addr →
      exec (.regWrite rq addr val image how places) s = .next (s.logged rq addr val
        ((s.onBus rq).writeBody rq.iface (addr / 0x1000) (addr % 0x1000) val image how places)))
    ∧ (∀ (rq : Req) (addr : Nat) (val : Word) (s : State), ¬ (0x28000 ≤ addr ∧ addr < 0x30000) → s.writes rq addr →
      exec (.writeHighWordCommit rq addr val) s = .next (s.logged rq addr val
        ((s.onBus rq).writeBody rq.iface (addr / 0x1000) (addr % 0x1000) val [] .failed []))
      ∧ exec (.recordWindowIdxWrite rq addr val) s = .next (s.logged rq addr val
        ((s.onBus rq).writeBody rq.iface (addr / 0x1000) (addr % 0x1000) val [] .failed []))
      ∧ exec (.tableWindowCommit rq addr val) s = .next (s.logged rq addr val
        ((s.onBus rq).writeBody rq.iface (addr / 0x1000) (addr % 0x1000) val [] .failed []))
      ∧ exec (.counterClear rq addr) s = .next (s.logged rq addr 0
        ((s.onBus rq).writeBody rq.iface (addr / 0x1000) (addr % 0x1000) 0 [] .failed [])))
    ∧ (∀ (rq : Req) (pg : Nat) (s : State), pg < 0x28 ∨ 0x30 ≤ pg → s.writes rq (pg * 0x1000 + 0x24) →
      exec (.errLogClear rq pg) s = .next (s.logged rq (pg * 0x1000 + 0x24) 0
        ((s.onBus rq).writeBody rq.iface pg 0x24 0 [] .failed [])))
    ∧ (∀ (rq : Req) (pg : Nat) (s : State), pg < 0x28 ∨ 0x30 ≤ pg → s.writes rq (pg * 0x1000 + 8) →
      exec (.pageCtlReset rq pg) s = .next (s.logged rq (pg * 0x1000 + 8) (s.reg (pg * 0x1000 + 8) ||| 2)
        ((s.onBus rq).writeBody rq.iface pg 8 (s.reg (pg * 0x1000 + 8) ||| 2) [] .failed []))
      ∧ exec (.pageCtlLock rq pg) s = .next (s.logged rq (pg * 0x1000 + 8) (s.reg (pg * 0x1000 + 8) ||| 4)
        ((s.onBus rq).writeBody rq.iface pg 8 (s.reg (pg * 0x1000 + 8) ||| 4) [] .failed [])))
    ∧ (∀ (rq : Req) (addr : Nat) (val : Word) (image : List Byte) (how : ReadEnd) (places : List Placement) (s : State),
      (s.advance rq.at_).busAnswers rq.iface = true →
      (∀ v, vfOf rq addr = some v → (s.advance rq.at_).vfEnabled v = true →
        exec (.regWrite rq addr val image how places) s = .next ((s.advance rq.at_).writeVf v (addr % 2 ^ 26) val))
      ∧ (∀ fn, vfOf rq addr = none → 0x28000 ≤ addr → addr < 0x30000 → msixFn rq.iface = some fn →
        exec (.regWrite rq addr val image how places) s = .next ((s.advance rq.at_).writeMsix fn (addr % 0x8000) val)))
    ∧ (∀ (addr : Nat) (val : Word) (at_ : Dword) (image : List Byte) (how : ReadEnd) (places : List Placement) (s : State),
      ¬ (0x28000 ≤ addr ∧ addr < 0x30000) → s.writes ⟨.uart, at_⟩ addr →
      exec (.uartRegAccess true addr val at_ image how places) s = .next (s.logged ⟨.uart, at_⟩ addr val
        ((s.onBus ⟨.uart, at_⟩).writeBody .uart (addr / 0x1000) (addr % 0x1000) val image how places)))

/-- While the bus answers the requester, READ_LOW_WORD_LATCH and RECORD_WINDOW_DATA_READ answer a next state in which the value read has
left for the requester: of the register, or, in BAR0 of an enabled VF, of what that BAR0 shows. A UART read leaves on the UART.
(spec/20_register_reference_system.md, R309, R609, R610, R542) -/
def Obligations.RegisterReadsComplete : Prop :=
  (∀ (rq : Req) (addr : Nat) (s : State), (s.onBus rq).readAnswers rq.iface addr = true → vfOf rq addr = none →
      exec (.readLowWordLatch rq addr) s
        = .next (((s.onBus rq).readReg rq.iface addr).1.emit (.regData rq ((s.onBus rq).readReg rq.iface addr).2))
      ∧ exec (.recordWindowDataRead rq addr) s
        = .next (((s.onBus rq).readReg rq.iface addr).1.emit (.regData rq ((s.onBus rq).readReg rq.iface addr).2)))
    ∧ (∀ (rq : Req) (addr v : Nat) (s : State), (s.onBus rq).readAnswers rq.iface addr = true → vfOf rq addr = some v →
      (s.onBus rq).vfEnabled v = true →
      exec (.readLowWordLatch rq addr) s
        = .next (((s.onBus rq).readVf v (addr % 2 ^ 26)).1.emit (.regData rq ((s.onBus rq).readVf v (addr % 2 ^ 26)).2))
      ∧ exec (.recordWindowDataRead rq addr) s
        = .next (((s.onBus rq).readVf v (addr % 2 ^ 26)).1.emit (.regData rq ((s.onBus rq).readVf v (addr % 2 ^ 26)).2)))
    ∧ (∀ (addr : Nat) (val : Word) (at_ : Dword) (image : List Byte) (how : ReadEnd) (places : List Placement) (s : State),
      ((s.advance at_).touch .uart).busAlive = true →
      exec (.uartRegAccess false addr val at_ image how places) s
        = .next ((((s.advance at_).touch .uart).readReg .uart addr).1.emit (.uart (((s.advance at_).touch .uart).readReg .uart addr).2)))

/-- A permitted read of a low word outside the MSI-X tables returns its view and latches the view of the word 4 bytes higher; while the
latch holds a word w, a permitted read of that high word returns w and clears the latch. (spec/20_register_reference_system.md, R609)
-/
def Obligations.LowWordReadLatchesHighWord : Prop :=
  (∀ (i : Iface) (addr : Nat) (s : State), ¬ (0x28000 ≤ addr ∧ addr < 0x31000) →
      s.mayRead i (addr / 0x1000) (addr % 0x1000) = true → isPart .low (addr / 0x1000) (addr % 0x1000) = true →
      (s.readReg i addr).2 = s.viewWord i (addr / 0x1000) (addr % 0x1000)
      ∧ mapGet none (s.readReg i addr).1.bus.latch (addr + 4) = some (s.viewWord i (addr / 0x1000) (addr % 0x1000 + 4)))
    ∧ (∀ (i : Iface) (addr : Nat) (w : Word) (s : State), ¬ (0x28000 ≤ addr ∧ addr < 0x31000) →
      s.mayRead i (addr / 0x1000) (addr % 0x1000) = true → isPart .low (addr / 0x1000) (addr % 0x1000) = false →
      mapGet none s.bus.latch addr = some w →
      (s.readReg i addr).2 = w ∧ (s.readReg i addr).1 = { s with bus := { s.bus with latch := mapSet none s.bus.latch addr none } })

/-- An increment by n that stays below 2^32 adds n and changes nothing else; one that would pass 0xFFFF_FFFF leaves the counter there
and sets its CNT_OVF bit, and only where that bit was 0 does it raise COUNTER_SAT with its record. Stated for a counter word that is
not the page's CNT_OVF word. (spec/14_faults_repair_degraded.md, R443) -/
def Obligations.CounterSaturates : Prop :=
  ∀ (s : State) (pg : Nat) (f : Fld) (bit n : Nat), f.off ≠ 0x40 → bit < 32 →
    let a := pg * 0x1000 + f.off
    let o := pg * 0x1000 + 0x40
    ((s.reg a).toNat + n < 2 ^ 32 → s.bump pg f bit n = s.setReg a (BitVec.ofNat 32 ((s.reg a).toNat + n)))
    ∧ (2 ^ 32 ≤ (s.reg a).toNat + n → s.regBit o bit = true → s.bump pg f bit n = s.setReg a 0xFFFFFFFF)
    ∧ (2 ^ 32 ≤ (s.reg a).toNat + n → s.regBit o bit = false →
        s.bump pg f bit n = ((s.setReg a 0xFFFFFFFF).setRegBit o bit true).counterSat pg f.off)

/-- While ERR_LOG0 bit 31 of a page is 1, a further error of the page increments ERR_CNT as a counter does and leaves ERR_LOG0 and
ERR_LOG1 as they are; the state is that of the increment alone. (spec/14_faults_repair_degraded.md,
spec/20_register_reference_system.md, R440) -/
def Obligations.FirstErrorCaptureHolds : Prop :=
  ∀ (s : State) (pg off iface cause : Nat) (log1 : Word),
    (s.bump pg R.hdr_ERR_CNT 31 1).regBit (pg * 0x1000 + 0x24) 31 = true →
    s.pageError pg off iface cause log1 = s.bump pg R.hdr_ERR_CNT 31 1

/-- TIMEBASE_WRITE and EPOCH_WRITE, where the write is performed, answer a next state: with FRAME.CTL.ENABLE 0 the timebase, and
the watchdog's t_last with it by the same step, or FRAME.EPOCH, becomes the value written and nothing else changes; with ENABLE 1 the write is ignored, counted and captured as a reserved
encoding (CAUSE 0x01). An audited write forms its record. (spec/02_the_frame.md, R21, R522) -/
def Obligations.TimebaseAndEpochWrites : Prop :=
  (∀ (rq : Req) (val : Dword) (s : State), s.writes rq 0x104C →
      exec (.timebaseWrite rq val) s = .next (s.logged rq 0x104C (BitVec.ofNat 32 (val.toNat / 2 ^ 32))
        (if (s.onBus rq).fld pgFrame R.hdr_CTL_ENABLE ≠ 0
          then ((s.onBus rq).pageError pgFrame 0x4C (ifaceCode rq.iface) 0x01 (BitVec.ofNat 32 (val.toNat / 2 ^ 32)), resReserved)
          else ((s.onBus rq).setTimebase val, resDone))))
    ∧ (∀ (rq : Req) (val : Dword) (s : State), s.writes rq 0x1074 →
      exec (.epochWrite rq val) s = .next (s.logged rq 0x1074 (BitVec.ofNat 32 (val.toNat / 2 ^ 32))
        (if (s.onBus rq).fld pgFrame R.hdr_CTL_ENABLE ≠ 0
          then ((s.onBus rq).pageError pgFrame 0x74 (ifaceCode rq.iface) 0x01 (BitVec.ofNat 32 (val.toNat / 2 ^ 32)), resReserved)
          else ((s.onBus rq).setFld64 pgFrame R.frame_EPOCH val.toNat, resDone))))

/-- Where the write is performed, FRAME_ENABLE sets FRAME.CTL.ENABLE and, if it was 0, makes the instant of the write the resume
instant (the first tick is the first tick instant after it); if it was 1 nothing changes. FRAME_DISABLE clears ENABLE and changes
nothing else. An audited write forms its record. (spec/02_the_frame.md, R30, R600) -/
def Obligations.FrameEngineEnable : Prop :=
  (∀ (rq : Req) (s : State), s.writes rq 0x1008 →
      exec (.frameEnable rq) s = .next (s.logged rq 0x1008 1
        (if (s.onBus rq).fld pgFrame R.hdr_CTL_ENABLE ≠ 0 then (s.onBus rq, resDone)
          else ({ (s.onBus rq).setFld pgFrame R.hdr_CTL_ENABLE 1 with sys := { (s.onBus rq).sys with resumeAt := some (s.onBus rq).tb } }, resDone))))
    ∧ (∀ (rq : Req) (s : State), s.writes rq 0x1008 →
      exec (.frameDisable rq) s = .next (s.logged rq 0x1008 0 ((s.onBus rq).setFld pgFrame R.hdr_CTL_ENABLE 0, resDone)))

/-- When a command brings an instant a, the timebase becomes a where REFCLK_SYS runs and a lies strictly after it (in the order of instants
modulo 2^64, taken over half the range), and stays as it is otherwise; nothing else changes. So no instant already past can return.
(spec/02_the_frame.md, R17, R28) -/
def Obligations.TimebaseNeverRunsBackwards : Prop :=
  ∀ (s : State) (a : Dword), ((s.advance a).tb = if s.sys.refLost = false ∧ before s.tb a = true then a else s.tb)
    ∧ before (s.advance a).tb s.tb = false ∧ { s.advance a with tb := s.tb } = s

/-- With the frame engine running, firmware up or in RECOVERY, no entry to a power state accepted and no tick waiting for the mesh, TICK
answers a next state: the actions of tick number n at T(n), n being the next tick (the one after FRAME.COUNT, or the first after the resume
instant), after the ends of the frame where one was in progress. (spec/02_the_frame.md, R30, R31, R45) -/
def Obligations.TickCompletes : Prop :=
  ∀ (sensors : List Int) (temps : List (Nat × Int)) (given : TickGiven) (s : State),
    s.frameOn = true → (s.sys.booted = true ∨ s.sys.recovery = true) → s.sys.lpPhase ≠ .accepted → s.sys.tickRest = none →
    exec (.tick sensors temps given) s
      = .next ((if s.sys.resumeAt.isSome then s else s.endFrame).tickAtInstant s.nextTick (s.tickAt s.nextTick) sensors temps given)

/-- While FRAME.CTL.ENABLE is 0, in a state deeper than SLEEP, or while power, clocks or REFCLK_SYS are gone, TICK and GUARD_START change
nothing: no tick fires. In SLEEP neither does, but a reset that waits for a tick instant takes effect at it.
(spec/19_states_combinations.md, spec/02_the_frame.md, R31, R600) -/
def Obligations.NoTickWhileStopped : Prop :=
  ∀ (sensors : List Int) (temps : List (Nat × Int)) (given : TickGiven) (s : State),
    ((s.fld pgFrame R.hdr_CTL_ENABLE = 0 ∨ 4 ≤ s.fld pgPower R.power_LP_STATE ∨ s.sys.on_ = false ∨ s.sys.tripped = true
        ∨ s.sys.refLost = true ∨ s.sys.cut ≠ none) →
      exec (.tick sensors temps given) s = .next s ∧ exec .guardStart s = .next s)
    ∧ (s.fld pgPower R.power_LP_STATE = 3 → exec .guardStart s = .next s
      ∧ (s.resetInSleep = false → exec (.tick sensors temps given) s = .next s)
      ∧ (s.resetInSleep = true → exec (.tick sensors temps given) s = .next s.sleepInstant))

/-- GUARD_START begins the guard of a running frame engine. RUN_START starts the earliest scheduled run of a loaded section at its
start instant within the run phase where its context may become ACTIVE. While the grid runs, BUDGET_EXPIRE ends an ACTIVE run whose budget
ends before the guard, as DONE where it is complete and else as a cut with cause BUDGET; RUN_COMPLETE ends an ACTIVE run whose completion
condition holds before its cut; DRAIN_COMPLETE ends a drain before the next tick once the region is empty. DRAIN_TIMEOUT and
RUN_IDLE_TIMEOUT take effect at the end of the frame. HELD_RELEASE marks a section with HELD contexts for the next tick.
(spec/02_the_frame.md, spec/07_sections_contexts.md, R36, R37, R38, R39, R41, R216, R217, R218, R219) -/
def Obligations.RunsStartAndEnd : Prop :=
  (∀ s : State, s.frameOn = true → exec .guardStart s = .next s.beginGuard)
    ∧ (∀ (sid : Nat) (r : Run) (t : Sect) (s : State), (s.work.runs.find? fun r => r.sid == sid && r.phase == .scheduled) = some r →
        s.sectById sid = some t → (s.advance r.startTb).frameOn = true → before r.startTb (s.advance r.startTb).guardStart = true →
        before (s.advance r.startTb).tb (s.advance r.startTb).guardStart = true → (s.advance r.startTb).mayStart t r = true →
        exec (.runStart sid) s = .next ((s.advance r.startTb).startRun t r))
    ∧ (∀ (sid : Nat) (r : Run) (t : Sect) (s : State), s.gridRuns = true → s.runOf sid = some r → s.sectById sid = some t → r.phase = .active →
        s.budgetFirst t r = true →
        ((s.advance (s.expiry t r)).runComplete t = true →
          exec (.budgetExpire sid) s = .next ((s.advance (s.expiry t r)).completeRun t r))
        ∧ ((s.advance (s.expiry t r)).runComplete t = false →
          exec (.budgetExpire sid) s = .next ((s.advance (s.expiry t r)).cutRun t r 1 t.budget)))
    ∧ (∀ (sid : Nat) (at_ : Dword) (r : Run) (t : Sect) (s : State), s.gridRuns = true → (s.advance at_).runOf sid = some r →
        (s.advance at_).sectById sid = some t → r.phase = .active → (s.advance at_).runComplete t = true → (s.advance at_).withinRun t r = true →
        exec (.runComplete sid at_) s = .next ((s.advance at_).completeRun t r))
    ∧ (∀ (sid : Nat) (bad : List (Nat × Nat)) (at_ : Dword) (r : Run) (t : Sect) (s : State), s.gridRuns = true →
        (s.advance at_).runOf sid = some r → (s.advance at_).sectById sid = some t → r.phase = .draining → (s.advance at_).opsDrained t = true →
        (s.advance at_).leaving t = false → (s.advance at_).merging t.region = false →
        before (s.advance at_).tb ((s.advance at_).tickAt ((s.advance at_).frameNo + 1)) = true →
        exec (.drainComplete sid ⟨at_, bad⟩) s = .next (((s.advance at_).flushJobs t.region).drained t r bad))
    ∧ (∀ (sid : Nat) (r : Run) (t : Sect) (s : State), s.clocked = true → s.runOf sid = some r → s.sectById sid = some t → r.phase = .draining →
        exec (.drainTimeout sid) s = .next ((s.advance s.frameEnd).drainTimeout t r))
    ∧ (∀ (sid : Nat) (r : Run) (s : State), s.clocked = true → (s.work.runs.find? fun r => r.sid == sid && s.idleOut r) = some r →
        exec (.runIdleTimeout sid) s = .next ((s.advance s.frameEnd).idleTimeout r))
    ∧ (∀ (sid : Nat) (t : Sect) (s : State), s.sectById sid = some t →
        ((s.sectPositions t).any fun pos => (s.ctx pos t.ctx).state == .held) = true →
        exec (.heldRelease sid) s = .next { s with work := { s.work with
          releases := if s.work.releases.contains sid then s.work.releases else s.work.releases ++ [sid] } })

/-- Each row of the timebase's discipline has its effect where the event it reports has arisen, and the next state is stated whole.
TB_SRC_LOST: a source is selected and not yet lost, the frame engine runs, and no valid measurement has come for 10 ms.
HOLDOVER_EXPIRE: the loss has lasted the holdover; ALIGN_LOST is set. ALIGN_RECOVER: 16 consecutive ticks were within the limit;
ALIGN_LOST and its degradation cause are cleared. FRAME_SYNC_IN_EDGE: with the pin in use and the engine running the edge is kept with
its nearest tick and its offset from that tick; with the pin OFF it changes nothing. SYNC_EDGE_SELECT: half a period after the oldest
waiting edge's tick its edges are judged; edges that wait when the pin is OFF are dropped. PTP_MESSAGE on a port that runs PTP.
ALIGN_FLIT_SEND on a port in service sends the flit and changes nothing else but the timebase. ALIGN_FLIT_RECEIVE: the flit is heard,
and where it comes from the parent the values are compared and the offset measured. DISABLED_DELAY_EXPIRE: with the engine disabled, the
requests written 10 µs ago take effect. (spec/02_the_frame.md, spec/11_tyzil_ethernet.md, spec/19_states_combinations.md, R23, R52, R54,
R56, R363, R364, R365, R373, R601) -/
def Obligations.DisciplineEventsComplete : Prop :=
  (∀ (at_ : Dword) (s : State), let t := s.advance at_
      t.discSource ≠ 0 → t.disc.srcLost = false → t.frameOn = true → 10000000 ≤ (t.tb - t.disc.lastValid).toNat →
      exec (.tbSrcLost at_) s = .next t.sourceLost
        ∧ t.sourceLost.disc.srcLost = true ∧ t.sourceLost.disc.lostAt = t.tb ∧ t.sourceLost.tb = t.tb)
    ∧ (∀ (at_ : Dword) (s : State), let t := s.advance at_
      t.disc.srcLost = true → t.disc.byHoldover = false → t.fld pgFrame R.frame_ALIGN_HOLDOVER_MS * 1000000 ≤ (t.tb - t.disc.lostAt).toNat →
      exec (.holdoverExpire at_) s = .next { t.setAlignLost with disc := { t.setAlignLost.disc with byHoldover := true } })
    ∧ (∀ s : State, s.alignLost = true → 16 ≤ s.disc.okTicks →
      exec .alignRecover s = .next ((s.setRegBit frameSts 2 false).setCause 6 false))
    ∧ (∀ (at_ : Dword) (s : State), let t := s.advance at_
      (t.fld pgFrame R.frame_SYNC_MODE = 0 → exec (.frameSyncInEdge at_) s = .next t)
      ∧ (t.fld pgFrame R.frame_SYNC_MODE ≠ 0 → t.frameOn = true → exec (.frameSyncInEdge at_) s = .next { t with
          disc := { t.disc with edges := t.disc.edges ++ [(at_, t.nearestTick at_, (at_ - t.tickAt (t.nearestTick at_)).toInt)] } }))
    ∧ (∀ (at_ : Dword) (e : Dword × Nat × Int) (es : List (Dword × Nat × Int)) (s : State), let t := s.advance at_
      t.disc.edges = e :: es →
      (t.fld pgFrame R.frame_SYNC_MODE = 0 → exec (.syncEdgeSelect at_) s = .next { t with disc := { t.disc with edges := [] } })
      ∧ (t.fld pgFrame R.frame_SYNC_MODE ≠ 0 → t.frameOn = true →
        before t.tb (t.tickAt e.2.1 + BitVec.ofNat 64 (t.periodNs / 2)) = false → exec (.syncEdgeSelect at_) s = .next (t.useEdge e.2.1 e)))
    ∧ (∀ (k : Nat) (at_ : Dword) (offset : Int) (s : State), let t := s.advance at_
      s.clocked = true → t.flag (pgEth k) R.eth_PTP_EN = true → t.regBit (pgEth k * 0x1000 + 0x4C) 0 = true →
      exec (.ptpMessage k at_ offset) s = .next (t.ptpOffset k offset))
    ∧ (∀ (n : Nat) (at_ : Dword) (s : State), let t := s.advance at_
      s.clocked = true → t.portServes n = true →
      exec (.alignFlitSend n at_) s = .next (t.emit (.tyzAlign n (t.alignFlit n)))
        ∧ (t.alignFlit n).tTx = t.tb ∧ ((t.alignFlit n).echoTx, (t.alignFlit n).echoRx) = (t.port n).echo
        ∧ (t.alignFlit n).period = t.fld pgFrame R.frame_PERIOD_EFF ∧ (t.alignFlit n).guard = t.fld pgFrame R.frame_GUARD_EFF)
    ∧ (∀ (n : Nat) (at_ : Dword) (f : AlignFlit) (s : State), let t := s.advance at_
      let u := t.hearFlit n at_ f
      s.clocked = true → t.portServes n = true →
      (u.selfRoot = true → exec (.alignFlitReceive n at_ f) s = .next { u with disc := { u.disc with compared := none } })
      ∧ (u.selfRoot = false → u.parentPort ≠ n → exec (.alignFlitReceive n at_ f) s = .next u)
      ∧ (u.selfRoot = false → u.parentPort = n → exec (.alignFlitReceive n at_ f) s = .next (u.parentFlit n at_ f)))
    ∧ (∀ (at_ : Dword) (s : State), let t := (s.advance at_).flushNotes
      t.alive = true → t.enabled = false →
      (t.bus.pageResets.any (fun e => !before t.tb (e.2 + 10000)) = true
        ∨ (∃ k w, t.sys.rst = some (k, w) ∧ before t.tb (w + 10000) = false)
        ∨ (∃ q w, t.sys.lpReq = some (q, w) ∧ before t.tb (w + 10000) = false)) →
      exec (.disabledDelayExpire at_) s = .next t.disabledDue)

/-- While the grid runs each mesh row has its effect. MESH_PACKET_ARRIVE of the oldest packet of its network on its link: one whose header
CRC fails is discarded and reported; a good multicast packet with an entry joins the multicast packets that wait, one without raises
MC_MISS; a good VN1 packet meets the reduction table, or goes on as an orphan; any other goes out by the dimension-order port.
MC_FORWARD copies the oldest waiting multicast packet to every output of its entry where each can take it, and changes nothing while
one cannot. LINK_CREDIT_RETURN within the used count returns the credits and lets the port grant; above it the return is discarded,
reported and struck against the position. VN0_AGE_PROMOTE adds the oldest VN0 packet not yet promoted. ROUTER_PLANE_FAULT at a position
with power reports the first failure, and for a later one resets the grid. (spec/03_cells_mesh_reduction.md, R68, R70, R76, R79, R80,
R81, R83, R243, R446) -/
def Obligations.MeshRowsComplete : Prop :=
  (∀ (pos port : Nat) (pkt : MeshPacket) (flip : Nat) (hits : List Upset) (s : State), s.gridRuns = true → s.inOrder pos port pkt = true →
      let s0 := { s with grid := { s.grid with flight := s.grid.flight.erase (pos, port, pkt) } }
      let h := pkt.hdr ^^^ (flip % 2 ^ 128)
      let p := { pkt.struck hits with hdr := h }
      (hcrcOf h ≠ hHcrc h → exec (.meshPacketArrive pos port pkt ⟨flip, hits⟩) s = .next (s0.hcrcFail pos port pkt h))
      ∧ (hcrcOf h = hHcrc h → hMc h = true → (s0.router pos).mcEntry (hRegion h) (hMcg h) = none →
        exec (.meshPacketArrive pos port pkt ⟨flip, hits⟩) s = .next (((s0.event (pgCell pos) 1).pageError (pgCell pos) port 0xF 0x11
          (BitVec.ofNat 32 (hRegion h + hMcg h * 256))).faultRegion (hRegion h) endInternal))
      ∧ (hcrcOf h = hHcrc h → hMc h = true → (s0.router pos).mcEntry (hRegion h) (hMcg h) ≠ none →
        exec (.meshPacketArrive pos port pkt ⟨flip, hits⟩) s = .next (s0.setRouter pos { s0.router pos with
          waiting := (s0.router pos).waiting ++ [(waitMulticast, p)] }))
      ∧ (hcrcOf h = hHcrc h → hMc h = false → hVn h = 1 → exec (.meshPacketArrive pos port pkt ⟨flip, hits⟩) s
        = .next (if hOrphan h then s0.orphan pos port p else s0.reduceArrive pos port p))
      ∧ (hcrcOf h = hHcrc h → hMc h = false → hVn h ≠ 1 → exec (.meshPacketArrive pos port pkt ⟨flip, hits⟩) s
        = .next (s0.sendOut pos (routePort pos (hDstPy h * 68 + hDstPx h)) p)))
    ∧ (∀ (pos : Nat) (w : Nat × MeshPacket) (e : Nat) (s : State), s.gridRuns = true →
        ((s.router pos).waiting.find? fun w => w.1 == waitMulticast) = some w →
        (s.router pos).mcEntry (hRegion w.2.hdr) (hMcg w.2.hdr) = some e →
        exec (.mcForward pos) s = .next (if (maskPorts (bitsOf e 12 8)).all fun k => s.portReady pos k w.2
          then (maskPorts (bitsOf e 12 8)).foldl (fun t k => t.sendOut pos k w.2)
            (s.setRouter pos { s.router pos with waiting := (s.router pos).waiting.erase w })
          else s))
    ∧ (∀ (pos port vn n : Nat) (s : State), s.gridRuns = true →
        (n ≤ (s.router pos).used port vn → exec (.linkCreditReturn pos port vn n) s
          = .next ((s.setRouter pos ((s.router pos).setUsed port vn ((s.router pos).used port vn - n))).grantPort pos port n))
        ∧ ((s.router pos).used port vn < n → exec (.linkCreditReturn pos port vn n) s
          = .next ((((s.event (pgCell pos) 12).pageError (pgCell pos) (port % 8 + (if vn = 4 then 2 else vn % 4) * 16) 0xF 0x18
            (BitVec.ofNat 32 n)).rasReport 2 0x07 (pgCell pos) [posPx pos, posPy pos, port, if vn = 4 then 2 else vn] 0).strike pos)))
    ∧ (∀ (pos : Nat) (w : Nat × MeshPacket) (s : State), s.gridRuns = true →
        ((s.router pos).waiting.find? fun w => decide (w.1 < 4) && hVn w.2.hdr == 0 && !(s.router pos).promoted.contains w.2) = some w →
        exec (.vn0AgePromote pos) s = .next (s.setRouter pos { s.router pos with promoted := (s.router pos).promoted ++ [w.2] }))
    ∧ (∀ (pos : Nat) (s : State), pos < 2176 → s.grid.on_ = true →
        let s1 := (s.setRouter pos { s.router pos with planeFaults := (s.router pos).planeFaults + 1 }).event (pgCell pos) 15
        ((s.router pos).planeFaults = 0 →
          exec (.routerPlaneFault pos) s = .next ((s1.rasReport 2 0x08 (pgCell pos) [posPx pos, posPy pos] 0).strike pos))
        ∧ ((s.router pos).planeFaults ≠ 0 →
          exec (.routerPlaneFault pos) s = .next (s1.rasReport 3 0x09 (pgCell pos) [posPx pos, posPy pos] 0).gridReset.endTransition))

/-- While the grid runs, where the router has an entry of the key, the oldest operand set of the key has the SEQ named and an operand at
every port of the entry's mask, and the operands name operation 1, 2, 3 or 4, RED_MERGE_ADD_I32, RED_MERGE_ADD_F32, RED_MERGE_MAX_F32 or
RED_MERGE_LSE performs that merge: the operands are combined in child order, the result is sent on or delivered, and what waited for the
key meets the table again. (spec/03_cells_mesh_reduction.md, R82, R84, R85, R92, R93) -/
def Obligations.ReductionRowsComplete : Prop :=
  ∀ (pos region tag seq w1 w2 : Nat) (e : RedPend) (first : MeshPacket) (rest : List MeshPacket) (s : State), s.gridRuns = true →
    (s.router pos).redEntry region tag = some (w1, w2) →
    ((s.router pos).pend.find? fun e => e.key == redKey region tag) = some e → e.seq = seq →
    (childOrder w2).filterMap (fun k => (e.ops.find? fun o => o.1 == k).map (·.2)) = first :: rest →
    (s.router pos).mergeReady e = true →
    (hOp first.hdr = 1 → exec (.redMergeAddI32 pos region tag seq) s = .next (s.mergeSet 1 pos (redKey region tag) w1 e first rest))
    ∧ (hOp first.hdr = 2 → exec (.redMergeAddF32 pos region tag seq) s = .next (s.mergeSet 2 pos (redKey region tag) w1 e first rest))
    ∧ (hOp first.hdr = 3 → exec (.redMergeMaxF32 pos region tag seq) s = .next (s.mergeSet 3 pos (redKey region tag) w1 e first rest))
    ∧ (hOp first.hdr = 4 → exec (.redMergeLse pos region tag seq) s = .next (s.mergeSet 4 pos (redKey region tag) w1 e first rest))

/-- While the grid runs each scratchpad row has its effect. SP_ACCESS_GRANT: an access in the cell's own slice writes its bytes there, or
reads them into the cell's read data; a remote one enters the mesh as a VN2 request to the cell it names; one that is misformed or out
of bound raises its error and is not performed. REMOTE_ACCESS_ARRIVE performs the oldest access at the Local port, which its operands describe. REMOTE_READ_RESPONSE
puts the data of the oldest response, so described, in the cell, or ends the run where it carries the error. CE_WRITEBACK of a pending granule writes the
corrected bytes back. SCRUB_VISIT reads the scrubber's granule and moves to the next. SCRUB_LATE past the period sets LATE, restarts the
pass and raises its event. (spec/04_scratchpad.md, R108, R112, R115, R116, R122, R127, R129) -/
def Obligations.ScratchpadRowsComplete : Prop :=
  (∀ (pos n : Nat) (addr size : Nat) (data : List Byte) (poison : List Nat) (hits : List Upset) (off : Nat) (s : State), s.gridRuns = true →
      let s0 := s.strikeSlice pos hits
      (s0.ctx pos n).access addr size = .slice off →
      exec (.spAccessGrant pos n true addr size data poison hits) s
        = .next (s0.spWrite pos off (takePad 0 size data) (poison.map (· + off / 8)))
      ∧ exec (.spAccessGrant pos n false addr size data poison hits) s
        = .next ((s0.spRead pos off size).1.setCell pos { (s0.spRead pos off size).1.cell pos with
          rdata := (s0.spRead pos off size).2.1
          rpoison := (s0.spRead pos off size).2.2.map (· - off / 8) }))
    ∧ (∀ (pos n : Nat) (write : Bool) (addr size : Nat) (data : List Byte) (poison : List Nat) (hits : List Upset) (x y off : Nat) (s : State),
      s.gridRuns = true →
      let s0 := s.strikeSlice pos hits
      let bs := if write then takePad 0 size data else []
      (s0.ctx pos n).access addr size = .remote x y off →
      exec (.spAccessGrant pos n write addr size data poison hits) s
        = .next (s0.inject pos ⟨accessHeader (s0.physOf x y) pos false (s0.ctx pos n).region bs.length, bs, if write then poison else [], [],
          .access ⟨pos, n, s0.physOf x y, (s0.ctx pos n).region, write, false, false, addr, off, size⟩⟩))
    ∧ (∀ (pos n : Nat) (write : Bool) (addr size : Nat) (data : List Byte) (poison : List Nat) (hits : List Upset) (s : State),
      s.gridRuns = true →
      let s0 := s.strikeSlice pos hits
      ((s0.ctx pos n).access addr size = .format →
        exec (.spAccessGrant pos n write addr size data poison hits) s = .next (s0.issuerFormat pos n))
      ∧ ((s0.ctx pos n).access addr size = .bound →
        exec (.spAccessGrant pos n write addr size data poison hits) s = .next (s0.issuerBound pos n addr size)))
    ∧ (∀ (pos : Nat) (hits : List Upset) (p : MeshPacket) (r : Remote) (s : State), s.gridRuns = true → s.localAccess pos false = some (p, r) →
      exec (.remoteAccessArrive pos r.src r.region r.write r.off r.size p.payload p.poison hits) s
        = .next ((((s.takeLocal pos p).strikeSlice pos hits).correctAt pos p fun g => r.off + 8 * g).performRemote
        r p.payload p.poison))
    ∧ (∀ (pos : Nat) (p : MeshPacket) (r : Remote) (s : State), s.gridRuns = true → s.localAccess pos true = some (p, r) →
      let s2 := (s.takeLocal pos p).correctAt pos p fun g => r.off + 8 * g
      (r.err = true → exec (.remoteReadResponse pos r.srcCtx p.payload p.poison r.err) s = .next ((s.takeLocal pos p).faultRunAt pos r.srcCtx endBound))
      ∧ (r.err = false → exec (.remoteReadResponse pos r.srcCtx p.payload p.poison r.err) s = .next (s2.setCell pos { s2.cell pos with
        rdata := p.payload
        rpoison := p.poison })))
    ∧ (∀ (pos granule : Nat) (e : Nat × List Byte) (s : State), s.gridRuns = true →
      ((s.cell pos).wbq.find? fun e => e.1 == granule) = some e → exec (.ceWriteback pos granule) s = .next (s.writeBack pos granule e.2))
    ∧ (∀ (pos : Nat) (hits : List Upset) (s : State), s.fld (pgCell pos) R.cell_SP_SCRUB_PERIOD_S ≠ 0 → s.gridRuns = true → s.holdsLogical pos = true →
      let g := ((s.strikeSlice pos hits).cell pos).scrubPos
      let s1 := ((s.strikeSlice pos hits).spReadGranule pos g).1
      exec (.scrubVisit pos hits) s = .next (s1.setCell pos { s1.cell pos with
        scrubPos := (g + 1) % 65536
        passStart := if g + 1 = 65536 then some s1.tb else (s1.cell pos).passStart }))
    ∧ (∀ (pos : Nat) (s : State), s.fld (pgCell pos) R.cell_SP_SCRUB_PERIOD_S ≠ 0 → s.gridRuns = true → s.holdsLogical pos = true →
      s.fld (pgCell pos) R.cell_SP_SCRUB_PERIOD_S * 1000000000 ≤ (s.tb - s.passFrom pos).toNat →
      exec (.scrubLate pos) s = .next (((s.setCell pos { s.cell pos with passStart := some s.tb }).setFld (pgCell pos) R.cell_SP_SCRUB_LATE 1).event
        (pgCell pos) 7))

/-- While the clocks run: a BAR4 access to the scratchpad window is made, or, while a tick waits to apply a swap, held; an offset of no
cell answers Unsupported Request. BAR4_MEMORY_ACCESS within the sender's aperture and the memory it may reach writes its bytes, or
answers the bytes read, poisoned where any is; one without an address or that the memory refuses answers Unsupported Request.
CXL_MEM_REQUEST within the host-exposed range writes and answers completion, or answers the data read; where a channel is lost a write
changes nothing and is answered, and a read answers poisoned data that the spec leaves open. CXL_SNOOP answers that the device holds no line. (spec/04_scratchpad.md,
spec/09_modules_and_press.md, R100, R131, R132, R302, R308, R310, R311, R316) -/
def Obligations.HostAccessesToMemoryComplete : Prop :=
  (∀ (write : Bool) (off size : Nat) (data : TlpData) (hits : List Upset) (s : State), s.clocked = true →
      (s.sys.tickRest = none → exec (.bar4ScratchpadAccess write off size data hits) s = .next (s.bar4Access write off size data hits))
      ∧ (s.sys.tickRest ≠ none → exec (.bar4ScratchpadAccess write off size data hits) s
        = .next { s with grid := { s.grid with heldBar4 := s.grid.heldBar4 ++ [⟨write, off, size, data, hits⟩] } })
      ∧ (s.sys.tickRest = none → 2048 * 524288 ≤ off →
        exec (.bar4ScratchpadAccess write off size data hits) s = .next (s.emit .unsupported)))
    ∧ (∀ (fn slot : Nat) (off size : Nat) (data : TlpData) (hits : List (Nat × Upset)) (s : State), s.clocked = true →
      let s0 := s.strikeModules hits
      (∀ write, s0.bar4Address fn slot off = none →
        exec (.bar4MemoryAccess fn slot write off size data hits) s = .next (s0.emit .unsupported))
      ∧ (∀ a, s0.bar4Address fn slot off = some a → a + size ≤ s0.ilvSet.length * (s0.ilvS - s0.hdmBytes) → a + size ≤ 0x100000000000 →
        (∀ t ps, s0.memWrite a (takePad 0 size data.bytes) (fun _ _ => data.poison) false = .ok t ps →
          exec (.bar4MemoryAccess fn slot true off size data hits) s = .next t)
        ∧ (∀ f, s0.memWrite a (takePad 0 size data.bytes) (fun _ _ => data.poison) false = .fail f →
          exec (.bar4MemoryAccess fn slot true off size data hits) s = .next (s0.emit .unsupported))
        ∧ (∀ t ps, s0.memRead a size false = .ok t ps →
          exec (.bar4MemoryAccess fn slot false off size data hits) s = .next (t.emit (.completion (ps.flatMap (·.1)) (ps.any (·.2)))))
        ∧ (∀ f, s0.memRead a size false = .fail f →
          exec (.bar4MemoryAccess fn slot false off size data hits) s = .next (s0.emit .unsupported))))
    ∧ (∀ (off size : Nat) (data : List Byte) (poison : Bool) (hits : List (Nat × Upset)) (s : State), s.clocked = true →
      let s0 := s.strikeModules hits
      let a := s0.ilvSet.length * (s0.ilvS - s0.hdmBytes) + off
      off + size ≤ s0.ilvSet.length * s0.hdmBytes →
      (∀ t ps, s0.memWrite a (takePad 0 size data) (fun _ _ => poison) false = .ok t ps →
        exec (.cxlMemRequest true off size data poison hits) s = .next (t.emit (.cxl cxlDone a [] false)))
      ∧ (∀ f, s0.memWrite a (takePad 0 size data) (fun _ _ => poison) false = .fail f →
        exec (.cxlMemRequest true off size data poison hits) s = .next (s0.emit (.cxl cxlDone a [] false)))
      ∧ (∀ t ps, s0.memRead a size false = .ok t ps →
        exec (.cxlMemRequest false off size data poison hits) s = .next (t.emit (.cxl cxlData a (ps.flatMap (·.1)) (ps.any (·.2)))))
      ∧ (∀ f, s0.memRead a size false = .fail f →
        exec (.cxlMemRequest false off size data poison hits) s = .next ((s0.freeBytes size).1.emit (.cxl cxlData a (s0.freeBytes size).2 true))))
    ∧ (∀ (addr : Nat) (s : State), s.clocked = true → exec (.cxlSnoop addr) s = .next (s.emit (.cxl cxlNotHeld addr [] false)))

/-- While the device's clocks run, a snoop of any host address is answered as a line not held, and leaves the registers, the memories,
every cache and all else but the answer as they were: no state of the block holds a host line. (R308) -/
def Obligations.SnoopsFindNoLine : Prop :=
  ∀ (addr : Nat) (s : State), s.clocked = true → ∃ t, exec (.cxlSnoop addr) s = .next t ∧ t.out = .cxl cxlNotHeld addr [] false :: s.out
    ∧ { t with out := s.out } = s

/-- While the grid runs, where the active context of a cell has an eligible entry, TRIGGER_FIRE fires the lowest-numbered one, and NOP does
so where that entry has opcode 0. TOKEN_ARRIVE, with its value, takes the oldest token on its way to the input: in an EMPTY, LOADING or HELD context it is
dropped and counted in XDROP (the model's choice for the last two, log entry 89); below four waiting tokens it enters behind the others; a
fifth is a protocol error that ends the run. (spec/07_sections_contexts.md, R206, R207, R213, R214) -/
def Obligations.SequencerRowsComplete : Prop :=
  (∀ (pos : Nat) (t : Trigger) (s : State), s.gridRuns = true → s.nextEntry pos = some t →
      exec (.triggerFire pos) s = .next (s.fire pos (s.cell pos).active t)
      ∧ (t.op.opcode = 0 → exec (.nop pos) s = .next (s.fire pos (s.cell pos).active t)))
    ∧ (∀ (pos n ti : Nat) (tok : Token) (s t : State), s.gridRuns = true → s.takeToken pos n ti = some (t, tok) →
      let c := t.ctx pos n
      (c.state = .empty ∨ c.state = .loading ∨ c.state = .held → exec (.tokenArrive pos n ti tok.v tok.poison) s = .next (t.bump (pgCell pos) R.cell_XDROP 5 1))
      ∧ (c.state ≠ .empty → c.state ≠ .loading → c.state ≠ .held → (c.queue ti).length < 4 → exec (.tokenArrive pos n ti tok.v tok.poison) s
        = .next (t.setCtx pos n (c.setQueue ti (c.queue ti ++ [tok]))))
      ∧ (c.state ≠ .empty → c.state ≠ .loading → c.state ≠ .held → 4 ≤ (c.queue ti).length → exec (.tokenArrive pos n ti tok.v tok.poison) s
        = .next ((t.protoError pos c.region ti 0).faultRunAt pos n endInternal)))

/-- While the grid runs each matrix row has its effect. MX_SWAP with a complete shadow exchanges shadow and active tile and frees the
shadow. MX_LOADW with a free shadow and an aligned operand that is read loads the shadow tile, complete and valid. MX_MAC of 1 to 32
aligned rows that does not wait, its rows read, runs them into the bank. MX_READ with no stalled emission before it takes the bank
through the read-out stage: in a KB format without FINAL only the sum buffer and flags change; else the output is emitted, and the
operation retires once the curd queue has taken all four sub-tiles. An operation that finds its engine busy waits in the queue.
(spec/05_matrix_engine_formats.md, R146, R148, R149, R154, R155, R156, R190, R191, R193) -/
def Obligations.MatrixRowsComplete : Prop :=
  ∀ (pos n : Nat) (op : OpFields) (u : EngineUpset) (s : State), s.gridRuns = true →
    let s0 := s.strikeSlice pos u.hits
    let m := (s0.cell pos).mx
    let f := (s0.ctx pos n).fmt
    (m.shadowComplete = true → exec (.mxSwap pos n op u) s = .next ((s0.setMatrix pos { m with
        act := m.shadow
        shadow := m.act
        shadowComplete := false
        shadowValid := false }).mxRetire pos n op))
    ∧ (m.shadowComplete = false → exec (.mxSwap pos n op u) s = .next (s0.mxWait pos n op))
    ∧ (∀ (bs : List Byte) (t : State), m.shadowValid = false → op.addr % 64 = 0 → s0.engRead pos n op.addr (groupBytes f 32) = .got t (bs, []) →
      exec (.mxLoadw pos n op u) s = .next ((t.setMatrix pos { (t.cell pos).mx with
        shadow := weightTile f op.addr bs []
        shadowComplete := true
        shadowValid := true }).mxRetire pos n op))
    ∧ (m.shadowValid = true → exec (.mxLoadw pos n op u) s = .next (s0.mxWait pos n op))
    ∧ (∀ (bs : List Byte) (ps : List Nat) (t : State), s0.macWaits pos n op.bank = false → op.addr % blockBytes f = 0 → 0 < op.n → op.n ≤ 32 →
      s0.engRead pos n op.addr (groupBytes f op.n) = .got t (bs, ps) →
      exec (.mxMac pos n op u) s = .next ((t.macRun pos n op u.wrong bs ps).mxRetire pos n op))
    ∧ (s0.macWaits pos n op.bank = true → exec (.mxMac pos n op u) s = .next (s0.mxWait pos n op))
    ∧ ((s0.ctx pos n).curdLate = [] →
      let s1 := s0.bankRead pos n op.bank u.bad (List.range 1024)
      ((fmtKb f && !op.final) = true → exec (.mxRead pos n op u) s = .next ((s1.readKept pos n op (s1.readSteps pos n op)).mxRetire pos n op))
      ∧ ((fmtKb f && !op.final) = false → exec (.mxRead pos n op u) s = .next (if (((s1.emitBank pos n op).ctx pos n).curdLate).isEmpty
        then (s1.emitBank pos n op).mxRetire pos n op else (s1.emitBank pos n op).mxWait pos n op)))
    ∧ ((s0.ctx pos n).curdLate ≠ [] → exec (.mxRead pos n op u) s = .next (s0.mxWait pos n op))

/-- While the grid runs, in an element format, VX_ADD, VX_SUB, VX_MUL, VX_MIN, VX_MAX, VX_ABS, VX_NEG, VX_MOV, VX_SEL, VX_CVT (to the format SUBOP names),
in a float format VX_FMA, VX_EXP, VX_RCP, VX_RSQRT, VX_TANH, VX_ERF, and in an integer format VX_AND, VX_OR, VX_XOR, VX_SHL, VX_SHRA,
VX_SHRL write under the mask to each lane of DST the lane function of the operand elements. (spec/06_vector_engine.md, R170, R171,
R172, R174, R175, R181) -/
def Obligations.VectorArithmeticComplete : Prop :=
  (∀ (pos n : Nat) (op : OpFields) (u : EngineUpset) (v : VFmt) (s : State), s.gridRuns = true → vfmt op.fmt = some v →
      let s0 := s.strikeSlice pos u.hits
      let two := fun (f : Nat → Nat → FRes) => s0.vxTile pos n op u [op.srcA, op.srcB] true v fun c i =>
        f (v.get (c.slot op.srcA i).v) (v.get (c.slot op.srcB i).v)
      exec (.vxAdd pos n op u) s = .next (two (laneAdd v op.sat)) ∧ exec (.vxSub pos n op u) s = .next (two (laneSub v op.sat))
      ∧ exec (.vxMul pos n op u) s = .next (two (laneMul v op.sat)) ∧ exec (.vxMin pos n op u) s = .next (two (laneMin v))
      ∧ exec (.vxMax pos n op u) s = .next (two (laneMax v))
      ∧ exec (.vxAbs pos n op u) s = .next (s0.vxTile pos n op u [op.srcA] true v fun c i => laneAbs v op.sat (v.get (c.slot op.srcA i).v))
      ∧ exec (.vxNeg pos n op u) s = .next (s0.vxTile pos n op u [op.srcA] true v fun c i => laneNeg v op.sat (v.get (c.slot op.srcA i).v))
      ∧ exec (.vxMov pos n op u) s = .next (s0.vxTile pos n op u [op.srcA] false v fun c i => ⟨v.get (c.slot op.srcA i).v, 0⟩)
      ∧ exec (.vxSel pos n op u) s = .next (s0.vxTile pos n op u [op.srcA, op.srcB] true v fun c i =>
          ⟨v.get (c.slot (if (c.mask op.srcC).getLsbD i then op.srcA else op.srcB) i).v, 0⟩)
      ∧ (∀ d, vfmt op.subop = some d →
          exec (.vxCvt pos n op u) s = .next (s0.vxTile pos n op u [op.srcA] true d fun c i => laneCvt v d (v.get (c.slot op.srcA i).v)))
      ∧ (v.isInt = true → exec (.vxAnd pos n op u) s = .next (two laneAnd) ∧ exec (.vxOr pos n op u) s = .next (two laneOr)
        ∧ exec (.vxXor pos n op u) s = .next (two laneXor) ∧ exec (.vxShl pos n op u) s = .next (two (laneShl v op.sat))
        ∧ exec (.vxShra pos n op u) s = .next (two (laneShra v)) ∧ exec (.vxShrl pos n op u) s = .next (two (laneShrl v)))
      ∧ (v.isInt = false →
        exec (.vxFma pos n op u) s = .next (s0.vxTile pos n op u [op.srcA, op.srcB, op.srcC] true v fun c i =>
          laneFma v (v.get (c.slot op.srcA i).v) (v.get (c.slot op.srcB i).v) (v.get (c.slot op.srcC i).v))
        ∧ (let one := fun (f : Nat → BitVec 64 → FRes) => ({ s0 with free := s0.free + 256 }).vxTile pos n op u [op.srcA] true v fun c i =>
            laneSpecial f v (v.get (c.slot op.srcA i).v) (Config.freeValue (s0.free + i))
          exec (.vxExp pos n op u) s = .next (one (f32Exp 2)) ∧ exec (.vxRcp pos n op u) s = .next (one f32Rcp)
          ∧ exec (.vxRsqrt pos n op u) s = .next (one f32Rsqrt) ∧ exec (.vxTanh pos n op u) s = .next (one f32Tanh)
          ∧ exec (.vxErf pos n op u) s = .next (one f32Erf))))

/-- After an element-wise operation each of the 256 lanes of the destination tile holds the result of its operands with their poison
where the mask enables it, zero where it does not and the mask mode is zeroing, and else what it held; every other tile register is as
the reads left it. (spec/06_vector_engine.md, R166, R170, R181) -/
def Obligations.VectorLanesWritten : Prop :=
  ∀ (pos n : Nat) (op : OpFields) (u : EngineUpset) (srcs : List Nat) (consume : Bool) (d : VFmt) (f : Ctx → Nat → FRes) (r i : Nat) (s : State),
    i < 256 →
    let s1 := (s.vxOperands pos n op u srcs consume).1
    let c := s1.ctx pos n
    ((s.vxTile pos n op u srcs consume d f).ctx pos n).slot r i
      = if r % 32 = op.dst % 32 then
          (if c.enabled op i then ⟨d.put (f c i).bits, (s.vxOperands pos n op u srcs consume).2 i, false⟩
            else if op.zeroMode then Slot.zero else c.slot r i)
        else c.slot r i

/-- Whatever a context holds, mask register 0 reads as 256 ones, and a write of it leaves the context as it is; a write of mask
register 1 to 7 reads back there and leaves every other mask as it is. An operation is enabled for element (x, y) by bit 16x + y of its
mask. (R180) -/
def Obligations.MaskZeroReadsAllOnes : Prop :=
  ∀ (c : Ctx) (k j : Nat) (v : BitVec 256), k < 8 → j < 8 →
    c.mask 0 = BitVec.allOnes 256 ∧ c.setMask 0 v = c
    ∧ (k ≠ 0 → (c.setMask k v).mask k = v) ∧ (j ≠ k → (c.setMask k v).mask j = c.mask j)
    ∧ ∀ (op : OpFields) (x y : Nat), c.enabled op (16 * x + y) = (c.mask (op.mask % 8)).getLsbD (16 * x + y)

/-- While the grid runs, in an element format VX_BCAST copies one element of SRCA to every lane and VX_TRN transposes SRCA into DST; VX_LD
of 1 to 16 aligned rows that are read writes them to DST, and VX_ST of such rows writes them to scratchpad; VX_RED with a legal scope and
operation reduces the tile; VX_CMP_EQ, VX_CMP_NE, VX_CMP_LT and VX_CMP_LE compare two tiles into a mask register. VX_QST of 2 to 16 rows
in KB8 or KB4 writes the quantized blocks; VX_S2C with a legal shape, source and destination apart, writes the regrouped image. VX_POP
takes the oldest tile of the curd queue. VX_ACCRD of sub-tile 0 to 3 reads it from the bank, which is taken; VX_ACCREL frees the bank.
VX_MKRANGE with N up to 256 sets bits 0 to N - 1 of MKd; VX_MKAND, VX_MKOR and VX_MKNOT write the and, or and complement.
(spec/06_vector_engine.md, R166, R168, R173, R176, R180, R182, R183, R191, R192, R193, R194) -/
def Obligations.VectorMovesAndMasksComplete : Prop :=
  ∀ (pos n : Nat) (op : OpFields) (u : EngineUpset) (s : State), s.gridRuns = true →
    let s0 := s.strikeSlice pos u.hits
    (∀ v : VFmt, vfmt op.fmt = some v →
      exec (.vxBcast pos n op u) s = .next (s0.takeFree.2.vxPermute pos n op u v fun _ => s0.takeFree.1.toNat % 256)
      ∧ exec (.vxTrn pos n op u) s = .next (s0.vxPermute pos n op u v fun i => i % 16 * 16 + i / 16)
      ∧ (0 < op.n → op.n ≤ 16 → op.addr % v.bytes = 0 →
        (∀ t bs ps, s0.engRead pos n op.addr (op.n * 16 * v.bytes) = .got t (bs, ps) →
          exec (.vxLd pos n op u) s = .next ((t.tileWrite pos n op (List.range (op.n * 16)) fun i =>
            ⟨v.put (leNat ((bs.drop (i * v.bytes)).take v.bytes)), anyPoison op.addr ps (i * v.bytes) v.bytes, false⟩).vxRetire pos n op))
        ∧ (∀ t, let s1 := s0.tileRead pos n op.srcA u.bad (List.range (op.n * 16))
          s1.engWrite pos n op.addr ((s1.ctx pos n).tileBytes op.srcA (op.n * 16) v) ((s1.ctx pos n).tilePoison op.addr op.srcA (op.n * 16) v)
            = .got t () →
          exec (.vxSt pos n op u) s = .next (t.vxRetire pos n op)))
      ∧ (bitsOf op.subop 3 2 ≠ 3 → ¬ (bitsOf op.subop 1 0 = 3 ∧ bitsOf op.subop 7 4 = 15) →
        exec (.vxRed pos n op u) s = .next ((s0.reduceTile pos n op u v).vxRetire pos n op))
      ∧ exec (.vxCmpEq pos n op u) s = .next ((s0.compareTiles pos n op u v (laneEq v)).vxRetire pos n op)
      ∧ exec (.vxCmpNe pos n op u) s = .next ((s0.compareTiles pos n op u v (laneNe v)).vxRetire pos n op)
      ∧ exec (.vxCmpLt pos n op u) s = .next ((s0.compareTiles pos n op u v (laneLt v)).vxRetire pos n op)
      ∧ exec (.vxCmpLe pos n op u) s = .next ((s0.compareTiles pos n op u v (laneLe v)).vxRetire pos n op))
    ∧ (∀ t, op.fmt = 2 ∨ op.fmt = 3 → op.n % 2 = 0 → 0 < op.n → op.n ≤ 16 →
      let s1 := s0.tileRead pos n op.srcA u.bad (List.range (32 * (op.n / 2)))
      let bs := (s1.ctx pos n).quantized (op.fmt == 3) op.srcA (op.n / 2)
      s1.engWrite pos n op.addr (quantBytes (op.fmt == 3) bs) (poisonGranules op.addr 1 (quantPoison (op.fmt == 3) bs)) = .got t () →
      exec (.vxQst pos n op u) s = .next ((t.quantDone pos n bs).vxRetire pos n op))
    ∧ (∀ t t2 bs ps off, op.fmt = 4 ∨ op.fmt = 5 ∨ op.fmt = 8 → s2cOk op.subop op.n op.ag op.c30 = true → op.addr < 2 ^ 30 → op.addr2 < 2 ^ 30 →
      let size := op.n * op.ag * op.c30 * s2cBytes op.fmt
      (op.addr2 + size ≤ op.addr ∨ op.addr + size ≤ op.addr2) → (s0.ctx pos n).range op.addr2 size = .slice off →
      (s0.ctx pos n).writeWaits (bitsOf op.addr2 18 0) size = false → s0.engRead pos n op.addr size = .got t (bs, ps) →
      t.engWrite pos n op.addr2 (s2cImage op bs) (s2cPoison op ps) = .got t2 () →
      exec (.vxS2c pos n op u) s = .next (t2.vxRetire pos n op))
    ∧ (∀ (x : List Slot) (r : List (List Slot)), (s0.ctx pos n).curd = x :: r →
      exec (.vxPop pos n op u) s = .next ((((s0.setCtx pos n { s0.ctx pos n with curd := r }).curdFreed pos n).tileWrite
        pos n op allSlots fun i => x.getD i Slot.zero).vxRetire pos n op))
    ∧ (op.subop ≤ 3 → exec (.vxAccrd pos n op u) s = .next ((s0.readSubTile pos n op u).vxRetire pos n op))
    ∧ exec (.vxAccrel pos n op u) s = .next ((s0.setMatrix pos ((s0.cell pos).mx.setBank op.bank
        { (s0.cell pos).mx.bank op.bank with taken := false })).vxRetire pos n op)
    ∧ (let put := fun (m : BitVec 256) => (s0.setCtx pos n ((s0.ctx pos n).setMask op.dst m)).vxRetire pos n op
      (op.n ≤ 256 → exec (.vxMkrange pos n op u) s = .next (put (BitVec.ofNat 256 (2 ^ op.n - 1))))
      ∧ exec (.vxMkand pos n op u) s = .next (put ((s0.ctx pos n).mask op.srcA &&& (s0.ctx pos n).mask op.srcB))
      ∧ exec (.vxMkor pos n op u) s = .next (put ((s0.ctx pos n).mask op.srcA ||| (s0.ctx pos n).mask op.srcB))
      ∧ exec (.vxMknot pos n op u) s = .next (put (~~~((s0.ctx pos n).mask op.srcA))))

/-- While the clocks run, DESC_LOAD, DESC_UNLOAD and DESC_RUN take up a fetched descriptor of their type that waits; a LOAD whose image
address cannot be read ends. LOAD_ACCEPT accepts a load whose context is free while the grid has power. IMAGE_VERIFY_COMPLETE ends the
arrival of an accepted load's image; IMAGE_READ_FAIL ends a load whose image is not verified, with the failure's ending.
(spec/07_sections_contexts.md, spec/10_host_link.md, R199, R222, R224, R225, R226, R323, R383, R652) -/
def Obligations.SectionRowsComplete : Prop :=
  (∀ (d : Nat) (x : Desc) (place : Placement) (image : List Byte) (s : State), s.clocked = true → s.desc d = some x → x.phase = .ready → x.post = none →
      (x.type = 2 → (∀ t bs, s.imageBytes (x.at_ 0x10 8) (x.at_ 0x18 1) (x.at_ 0x1C 4) image = (t, .ok bs) →
          exec (.descLoad d place image) s = .next (t.beginLoad (some d) place bs))
        ∧ (∀ t e, s.imageBytes (x.at_ 0x10 8) (x.at_ 0x18 1) (x.at_ 0x1C 4) image = (t, .error e) →
          exec (.descLoad d place image) s = .next (t.post d e.code e.reason e.detail true)))
      ∧ (x.type = 3 → exec (.descUnload d) s = .next (s.submitUnload x))
      ∧ (x.type = 1 → exec (.descRun d) s = .next (s.submitRun d)))
    ∧ (∀ (d reg : Nat) (l : Load) (s : State), s.clocked = true → s.loadOf d = some l → l.accepted = false → s.grid.on_ = true →
      s.grid.heldReset = false → s.ctxFree l.place.ctx l.place.orgX l.place.orgY l.w l.h = true → (s.clearWay l).freeRegion = some reg →
      exec (.loadAccept d) s = .next ((s.clearWay l).acceptLoad l reg))
    ∧ (∀ (d : Nat) (l : Load) (at_ : Dword) (s : State), s.clocked = true → s.loadOf d = some l → l.accepted = true → l.verified = none →
      exec (.imageVerifyComplete d at_) s = .next ((s.advance at_).verifyLoad l))
    ∧ (∀ (d : Nat) (l : Load) (how : ReadEnd) (at_ : Dword) (s : State), s.clocked = true → s.loadOf d = some l → l.verified = none → how ≠ .ok →
      exec (.imageReadFail d how at_) s = .next ((s.advance at_).failLoad l how.ending))

/-- Each row of streams and stream engines has its effect, the grid or the clocks running. STREAM_DATA_ARRIVE and CRD_ARRIVE take a
packet that no earlier one of its network precedes to its cell, engine or bridge. CRD_TIMER_RETURN at a consumer end with releases
outstanding returns them. STREAM_UNIT_SEND at a bound producer end with a packet to send and credits for it sends it. For a descriptor in
hand of the row's kind with its stream bound: SE_READ issues the next read, from the host, another device or this one's memory; SE_WRITE
writes the next unit received to one of them; SE_MIGRATE_IN and SE_MIGRATE_OUT move a unit where migration may proceed; MODULE_READ_RETURN
brings an issued unit back; a unit whose memory access fails ends the job; BISNP_RESPONSE grants what waited for the host; SE_DESC_COMPLETE
ends a descriptor that has moved all its units or failed. MIGRATION_RESUME after the admit phase ends the pause.
(spec/08_streams_credits.md, R236, R240, R241, R245, R247, R255, R256, R258, R259, R265, R317) -/
def Obligations.StreamAndEngineRowsComplete : Prop :=
  (∀ (pos : Nat) (pkt : MeshPacket) (s : State), s.gridRuns = true → hOp pkt.hdr = 0 → pkt.body = .data → s.mayTake pos pkt = true →
      let s1 := (s.takePacket pos pkt).1
      (hCrd pkt.hdr = false → exec (.streamDataArrive pos pkt) s = .next (match (s.takePacket pos pkt).2 with
        | some k => s1.engineTakes k pkt
        | none => s1.cellData pos pkt))
      ∧ (hCrd pkt.hdr = true → exec (.crdArrive pos pkt) s = .next (match (s.takePacket pos pkt).2 with
        | some k => if k < 32 then s1.engineCredit k pkt else s1.bridgeCredit k pkt
        | none => s1.cellCredit pos pkt)))
    ∧ (∀ (pos n i : Nat) (e : StreamEnd) (s : State), s.gridRuns = true → n < 4 → (s.ctx pos n).streams[i]? = some e → e.dir = 0 → 0 < e.credits →
      exec (.crdTimerReturn pos n i) s = .next ((s.after16 e.firstFree).returnCredits pos n i))
    ∧ (∀ (k n i : Nat) (e : SeEnd) (s : State), s.gridRuns = true → 4 ≤ n → (s.engine k).ends[i]? = some e → e.out = false → 0 < e.freed →
      exec (.crdTimerReturn k n i) s = .next ((s.after16 e.firstFree).seReturn k i))
    ∧ (∀ (pos n i : Nat) (e : StreamEnd) (peer : Nat × Nat × Nat) (s : State), s.gridRuns = true →
      ((s.settleFin pos n).ctx pos n).streams[i]? = some e → e.peer = some peer → e.dir = 1 → 0 < e.sendable → e.sendable ≤ e.credits →
      exec (.streamUnitSend pos n i) s = .next ((s.settleFin pos n).sendUnits pos n i e peer e.sendable))
    ∧ (∀ (k i ei : Nat) (j : SeJob) (e : SeEnd) (s : State), s.clocked = true → s.job k i = some j → s.jobEnd k j true = some ei →
      (s.engine k).ends[ei]? = some e → j.opc = 0 → j.bad = none → s.stopped j.region = false → j.issued < j.total → j.issued - j.moved < 256 →
      e.hasCredit 1 = true →
      let a := j.unitAddr j.issued
      let n := j.unitLen j.issued
      (j.kind = 1 → exec (.seRead k i) s = .next ((s.readIssued k i ei).emit (.hostRead a n k)))
      ∧ (j.kind ≠ 1 → a / 2 ^ 51 ≠ ownDev s → exec (.seRead k i) s = .next ((s.readIssued k i ei).remoteRequest k j j.issued false [] []))
      ∧ (j.kind ≠ 1 → a / 2 ^ 51 = ownDev s → j.mustAsk j.issued (s.linesExposed (a % 2 ^ 51) n) = true →
        exec (.seRead k i) s = .next (s.askUnit k i j j.issued (a % 2 ^ 51) n false [] false))
      ∧ (j.kind ≠ 1 → a / 2 ^ 51 = ownDev s → j.mustAsk j.issued (s.linesExposed (a % 2 ^ 51) n) = false →
        (∀ ps, s.memLocs (a % 2 ^ 51) n j.fw = .ok ps → exec (.seRead k i) s = .next (s.readIssued k i ei))
        ∧ (∀ f, s.memLocs (a % 2 ^ 51) n j.fw = .error f → exec (.seRead k i) s = .next (s.badJob k i f.jobEnding))))
    ∧ (∀ (k i ei : Nat) (j : SeJob) (e : SeEnd) (un : List Byte × List Nat × Bool) (rest : List (List Byte × List Nat × Bool))
        (hits : List (Nat × Upset)) (s : State), s.clocked = true → s.job k i = some j → s.jobEnd k j false = some ei →
      (s.engine k).ends[ei]? = some e → e.inbox = un :: rest → j.opc = 1 → j.bad = none →
      let a := j.unitAddr j.issued
      let bs := un.1.take (j.unitLen j.issued)
      (j.kind = 1 → 64 * j.issued + 64 ≤ j.len →
        exec (.seWrite k i hits) s = .next (((s.unitTaken k i ei rest 1 0).progress j 64).emit (.hostWrite a un.1)))
      ∧ (j.kind ≠ 1 → j.issued < j.total → a / 2 ^ 51 ≠ ownDev s → exec (.seWrite k i hits) s = .next ((s.unitTaken k i ei rest 0 1).remoteRequest
        k j j.issued true bs (if !un.2.1.isEmpty then un.2.1.filter fun g => decide (8 * g < bs.length) else [])))
      ∧ (j.kind ≠ 1 → j.issued < j.total → a / 2 ^ 51 = ownDev s → j.mustAsk j.issued (s.linesExposed (a % 2 ^ 51) bs.length) = true →
        exec (.seWrite k i hits) s = .next (s.askUnit k i j j.issued (a % 2 ^ 51) bs.length true bs (!un.2.1.isEmpty)))
      ∧ (j.kind ≠ 1 → j.issued < j.total → a / 2 ^ 51 = ownDev s → j.mustAsk j.issued (s.linesExposed (a % 2 ^ 51) bs.length) = false →
        (∀ t ps, (s.strikeModules hits).memWrite (a % 2 ^ 51) bs (fun _ _ => !un.2.1.isEmpty) j.fw = .ok t ps →
          exec (.seWrite k i hits) s = .next ((t.actJob j (Activity.addUnits 1)).unitTaken k i ei rest 1 0))
        ∧ (∀ f, (s.strikeModules hits).memWrite (a % 2 ^ 51) bs (fun _ _ => !un.2.1.isEmpty) j.fw = .fail f →
          exec (.seWrite k i hits) s = .next (s.badJob k i f.jobEnding))))
    ∧ (∀ (k i : Nat) (j : SeJob) (hits : List (Nat × Upset)) (s : State), s.clocked = true → s.job k i = some j → s.mayMigrate k j 2 = true →
      let a := j.unitAddr j.issued
      (s.migTarget j j.issued = none → exec (.seMigrateIn k i hits) s = .next (s.migBound k i j j.issued))
      ∧ (s.migTarget j j.issued ≠ none → a / 2 ^ 51 ≠ ownDev s →
        exec (.seMigrateIn k i hits) s = .next ((s.unitIssued k i).remoteRequest k j j.issued false [] []))
      ∧ (s.migTarget j j.issued ≠ none → a / 2 ^ 51 = ownDev s → j.mustAsk j.issued (s.linesExposed (a % 2 ^ 51) 64) = true →
        exec (.seMigrateIn k i hits) s = .next (s.askUnit k i j j.issued (a % 2 ^ 51) 64 false [] false))
      ∧ (∀ t ps, s.migTarget j j.issued ≠ none → a / 2 ^ 51 = ownDev s → j.mustAsk j.issued (s.linesExposed (a % 2 ^ 51) 64) = false →
        s.hostOrMemory hits j j.issued 64 = .ok t ps →
        exec (.seMigrateIn k i hits) s = .next (((t.actJob j (Activity.addUnits 1)).unitIssued k i).migLand k i j.issued
          (ps.flatMap (·.1)) (ps.any (·.2)))))
    ∧ (∀ (k i pos off : Nat) (j : SeJob) (strike : List Upset) (hits : List (Nat × Upset)) (s : State), s.clocked = true → s.job k i = some j →
      s.mayMigrate k j 3 = true → s.migTarget j j.issued = some (pos, off) →
      let a := j.unitAddr j.issued
      let r := (s.strikeSlice pos strike).spRead pos off 64
      let s2 := (r.1.unitIssued k i).migCount k 64
      (a / 2 ^ 51 = ownDev s → j.mustAsk j.issued (s.linesExposed (a % 2 ^ 51) 64) = true →
        exec (.seMigrateOut k i strike hits) s = .next (r.1.askUnit k i j j.issued (a % 2 ^ 51) 64 true r.2.1 (!r.2.2.isEmpty)))
      ∧ (a / 2 ^ 51 ≠ ownDev s → exec (.seMigrateOut k i strike hits) s = .next ((s2.onJob k i fun x => { x with
        unacked := x.unacked + 1 }).remoteRequest k j j.issued true r.2.1 (r.2.2.map (· - off / 8))))
      ∧ (∀ t ps, a / 2 ^ 51 = ownDev s → j.mustAsk j.issued (s.linesExposed (a % 2 ^ 51) 64) = false →
        (s2.strikeModules hits).memWrite (a % 2 ^ 51) r.2.1 (fun _ _ => !r.2.2.isEmpty) j.fw = .ok t ps →
        exec (.seMigrateOut k i strike hits) s = .next ((t.actJob j (Activity.addUnits 1)).onJob k i fun x => { x with moved := x.moved + 1 })))
    ∧ (∀ (k i u : Nat) (j : SeJob) (data : List Byte) (how : ReadEnd) (hits : List (Nat × Upset)) (s : State), s.clocked = true → s.job k i = some j →
      u < j.issued → j.moved ≤ u → j.buf.any (fun b => b.1 == u) = false → j.opc = 0 →
      (j.kind = 1 → exec (.moduleReadReturn k i u data how hits) s
        = .next (if how = .ok then s.unitBack k i u data false else s.badJob k i how.ending))
      ∧ (∀ t ps, j.kind ≠ 1 → j.unitAddr u / 2 ^ 51 = ownDev s → s.hostOrMemory hits j u (j.unitLen u) = .ok t ps →
        exec (.moduleReadReturn k i u data how hits) s
          = .next ((t.actJob j (Activity.addUnits 1)).unitBack k i u (ps.flatMap (·.1)) (ps.any (·.2))))
      ∧ (∀ f, j.kind ≠ 1 → j.unitAddr u / 2 ^ 51 = ownDev s → s.hostOrMemory hits j u (j.unitLen u) = .fail f →
        exec (.moduleReadReturn k i u data how hits) s = .next (s.badJob k i f.jobEnding)))
    ∧ (∀ (k i : Nat) (j : SeJob) (s : State), s.clocked = true → s.job k i = some j → j.bad.isSome = true ∨ (j.total ≤ j.moved ∧ j.unacked = 0) →
      exec (.seDescComplete k i) s
        = .next (if k = 0 ∧ j.kind = 0 ∧ j.opc = 2 then (s.jobDone k i j).kvArrived j.ring (j.bad.getD 0) else s.jobDone k i j))
    ∧ (∀ (k i u : Nat) (j : SeJob) (e : Nat × Nat) (data : List Byte) (s : State), s.clocked = true → s.job k i = some j →
      (j.asked.find? fun e => e.1 == u) = some e → exec (.bisnpResponse k i ⟨u, data⟩) s = .next (s.onJob k i fun x => { x with
        asked := x.asked.erase e
        granted := x.granted ++ [(e.1, e.2, if s.cxl2 then data.take 64 else [])] }))
    ∧ (∀ (k : Nat) (s : State), s.clocked = true → (s.engine k).paused = true → before s.tb (s.tickAt s.frameNo + 2000) = false →
      exec (.migrationResume k) s = .next (s.setEngine k { s.engine k with paused := false }))

/-- While the clocks run, CHANNEL_BRINGUP of a channel neither lost nor in service marks an unfit module UNSUPPORTED, counts a training that
fails, and else puts the channel in service. On a channel in service MEM_WCRC_ERROR counts the retry, and where the retry fails too stores
the granule poisoned; MODULE_SCRUB_VISIT reads the scrubber's granule and moves on. MODULE_CE_WRITEBACK of a pending granule writes it
back clean. CHANNEL_LOST takes a channel with a loss condition out of service. (spec/09_modules_and_press.md,
spec/14_faults_repair_degraded.md, R268, R269, R279, R280, R281, R454) -/
def Obligations.ChannelRowsComplete : Prop :=
  (∀ (c : Nat) (spd : Spd) (trains : Bool) (s : State), s.clocked = true → c < 16 → s.memLost c = false → s.inService c = false →
      (spd.fits = false → exec (.channelBringup c spd trains) s = .next ((s.setMemSts c 3 true).channelCause))
      ∧ (spd.fits = true → exec (.channelBringup c spd false) s = .next (s.trainFailed c)
        ∧ exec (.channelBringup c spd true) s = .next (s.channelUp c spd)))
    ∧ (∀ (c off : Nat) (thrice : Bool) (s : State), s.clocked = true → s.inService c = true →
      exec (.memWcrcError c off false thrice) s = .next (s.bump (pgMem c) R.mem_WCRC_RETRY 4 1)
      ∧ exec (.memWcrcError c off true thrice) s = .next ((s.bump (pgMem c) R.mem_WCRC_RETRY 4 1).wcrcAgain c off thrice))
    ∧ (∀ (c granule : Nat) (s : State), s.clocked = true → granule ∈ (s.module c).wbq → exec (.moduleCeWriteback c granule) s
      = .next (s.setModule c { s.module c with
        wbq := (s.module c).wbq.filter (· != granule)
        mem := (s.module c).mem.setCls granule .clean }))
    ∧ (∀ (c : Nat) (hits : List (Nat × Upset)) (s : State), s.clocked = true → s.fld (pgMem c) R.mem_SCRUB ≠ 0 → s.inService c = true →
      let s0 := s.strikeModules hits
      let g := (s0.module c).scrubPos
      let s1 := (s0.memReadGranule c g).1
      exec (.moduleScrubVisit c hits) s
        = .next (s1.setModule c { s1.module c with scrubPos := (g + 1) % max 1 (s1.moduleGib c * 2 ^ 24) }))
    ∧ (∀ (c why : Nat) (s : State), s.clocked = true → c < 16 → s.memLost c = false →
      (why = 0 ∧ 3 ≤ (s.module c).trainFails ∨ why = 1 ∧ 3 ≤ (recent s.tb 1000000000 (s.module c).wcrcTimes).length
        ∨ why = 2 ∧ s.fld pgRepair R.repair_CH_UE_THR ≤ (recent s.tb 3600000000000 (s.module c).ueTimes).length ∨ why = 3) →
      exec (.channelLost c why) s = .next (s.loseChannel c))

/-- While the clocks run each press row has its effect. PRESS_CMD_ISSUE, with a pair and its command stream bound and a whole command
received, writes it while the press is free, spaced and has credit, or refuses it where a segment reaches into the host-exposed range.
PRESS_CMD_ACCEPT accepts a command written VALID. PRESS_ATTN computes the triples of a command that has read its segments.
PRESS_BURST_START reads the next segment of the command at work once it is ready and the window has room; where the host-exposed range has
grown over the segment it reads nothing and the run is cut (the model's choice, log entry 94). PRESS_CMD_COMPLETE completes a
computed or rejected command 40 ns after its end. PRESS_QUEUE_RESET resets a queue. PRESS_HOT rejects the commands that have not completed
and stops the bursts. PRESS_QCOMP_POLL takes up what has completed. PRESS_TIMEOUT ends the run of a command that has waited 10 µs.
(spec/09_modules_and_press.md, R286, R287, R288, R289, R291, R294, R296, R299, R301, R304) -/
def Obligations.PressRowsComplete : Prop :=
  (∀ (c q ei : Nat) (at_ : Dword) (pr : PressPair) (e : SeEnd) (un : List Byte × List Nat × Bool) (rest : List (List Byte × List Nat × Bool)) (s : State),
      let t := s.advance at_
      let n := pcUnits un.1
      let cmd := (t.pressQ c q).command e n
      s.clocked = true → (t.pressQ c q).pair = some pr → (t.engine pr.engine).endOf pr.region pr.cmdStream false = some ei →
      (t.engine pr.engine).ends[ei]? = some e → e.inbox = un :: rest → t.pressAvail c = true → t.inService c = true → n ≤ e.inbox.length →
      t.mayIssue c q pr.region = true →
      ((pcSegments cmd.1).any t.segExposed = false → exec (.pressCmdIssue c q at_) s = .next (t.issueCmd c q pr ei cmd n))
      ∧ ((pcSegments cmd.1).any t.segExposed = true →
        exec (.pressCmdIssue c q at_) s = .next ((t.bump (pgPress c) R.press_REFUSED 2 1).faultRegion pr.region ⟨0x23, 0x02, 0⟩)))
    ∧ (∀ (c q slot : Nat) (at_ : Dword) (e : Nat × List Byte × Bool) (s : State), s.clocked = true →
      ((s.advance at_).pressQ c q).slots.find? (fun e => e.1 == slot) = some e → bitOf (pcFlags e.2.1) 0 = true →
      exec (.pressCmdAccept c q slot at_) s = .next ((s.advance at_).acceptCmd c q slot e.2.1 e.2.2))
    ∧ (∀ (c q : Nat) (m : PressCmd) (ms : List PressCmd) (s : State), s.clocked = true → (s.pressQ c q).cmds = m :: ms → m.bad = 0 →
      m.computed = false → m.wantsBurst = false →
      let r := s.pressQueries m ((s.pressQ c q).base m) (List.range (pcNq m.bytes))
      exec (.pressAttn c q) s = .next (r.1.onCmd c q m.seq fun y => { y with result := some r.2 }))
    ∧ (∀ (c q : Nat) (at_ : Dword) (hits : List (Nat × Upset)) (m : PressCmd) (s : State),
      let t := (s.advance at_).strikeModules hits
      s.clocked = true → (t.pressOf c).atWork = some (q, m) → before t.tb ((t.pressOf c).ready m) = false →
      (t.pressOf c).windowed t.tb < (t.pressOf c).pawLimit → t.inService c = true →
      (t.segExposed m.nextSegment = false → exec (.pressBurstStart c at_ hits) s = .next (t.burst c q m))
      ∧ (t.segExposed m.nextSegment = true → exec (.pressBurstStart c at_ hits) s = .next (((t.onCmd c q m.seq fun y => { y with
        bad := 1
        endAt := t.tb }).bump (pgPress c) R.press_REFUSED 2 1).faultRegion (t.queueOwner c q) ⟨0x23, 0x02, 0⟩)))
    ∧ (∀ (c q : Nat) (at_ : Dword) (m : PressCmd) (ms : List PressCmd) (s : State),
      let t := s.advance at_
      s.clocked = true → (t.pressQ c q).cmds = m :: ms → m.bad ≠ 0 ∨ m.computed = true → 40 ≤ (t.tb - m.endAt).toNat → before t.tb m.endAt = false →
      t.inService c = true → exec (.pressCmdComplete c q at_) s = .next (t.completeCmd c q m))
    ∧ (∀ (c q : Nat) (s : State), s.clocked = true → s.pressAvail c = true → q < 4 → exec (.pressQueueReset c q) s = .next (s.resetQueue c q))
    ∧ (∀ (c : Nat) (temp : Int) (s : State), s.clocked = true → 105 * 256 ≤ temp → s.pressAvail c = true →
      exec (.pressHot c temp) s = .next (s.goHot c temp) ∧ ((s.goHot c temp).pressOf c).pawLimit = 0)
    ∧ (∀ (c q : Nat) (at_ : Dword) (pr : PressPair) (s : State), s.clocked = true → ((s.advance at_).pressQ c q).pair = some pr →
      ((s.advance at_).pressQ c q).sent ≠ [] ∨ ((s.advance at_).pressQ c q).toSend ≠ [] →
      exec (.pressQcompPoll c q at_) s = .next ((s.advance at_).pollQcomp c q pr))
    ∧ (∀ (c q : Nat) (at_ : Dword) (pr : PressPair) (m : PressCmd) (s : State), s.clocked = true → ((s.advance at_).pressQ c q).pair = some pr →
      (((s.advance at_).pressQ c q).cmds.find? fun m => !m.timed) = some m → 10000 ≤ ((s.advance at_).tb - m.acceptedAt).toNat →
      exec (.pressTimeout c q at_) s = .next ((s.advance at_).pressTimedOut c q m pr))

/-- While the clocks run: HOST_LINK_TRAIN with the control domain up, a rate of Table 10.1 and a width of at least x4 brings the link up;
below x4 a link that is down stays down. HOST_LINK_DOWN and HOT_RESET act on a link in L0, FLR_VF of an enabled VF, FLR_PF1 and FLR_PF0
always. MSIX_VECTOR_UNMASK of a vector that exists writes and unmasks it; SRIOV_VF_ENABLE takes up to 255 VFs; HDM_DECODER_COMMIT sets the
commit. A 4-byte doorbell write of a page that a tenant holds writes its tail or head; a good tail write of an enabled queue sets the tail,
and one of another width changes no queue. VF_WINDOW_WRITE writes the tenant's word where the window may, and else is an error. SQ_FETCH
reads the entry at the head where a fetch may be made; SQ_FETCH_COMPLETE takes what it brings.
(spec/10_host_link.md, R306, R307, R315, R319, R320, R321, R322, R328, R329, R330, R608) -/
def Obligations.HostRowsComplete : Prop :=
  (∀ (rate width : Nat) (flit : Bool) (cxl : Nat) (at_ : Dword) (s : State), (s.advance at_).pcieUp = true → 1 ≤ rate → rate ≤ 3 →
      (width = 4 ∨ width = 8 ∨ width = 16 → exec (.hostLinkTrain rate width flit cxl at_) s = .next ((s.advance at_).linkUp rate width flit cxl))
      ∧ (width = 1 ∨ width = 2 → (s.advance at_).fld pgHost R.host_LINK_STS % 4 = 0 →
        exec (.hostLinkTrain rate width flit cxl at_) s = .next (s.advance at_)))
    ∧ (∀ (at_ : Dword) (s : State), (s.advance at_).fld pgHost R.host_LINK_STS % 4 ≠ 0 →
      exec (.hostLinkDown at_) s = .next ((((s.advance at_).setFld pgHost R.host_LINK_STS 0).linkReset.event pgHost 0).showHdm)
      ∧ (s.clocked = true → exec (.hotReset at_) s = .next (s.advance at_).linkReset))
    ∧ (∀ (v : Nat) (at_ : Dword) (s : State), s.clocked = true → (s.advance at_).vfEnabled v = true → exec (.flrVf v at_) s =
      .next (((s.advance at_).resetTenants fun t => (s.advance at_).fld (pgTenant t) R.tenant_FN_EFF % 256 == v).msixReset fun fn => fn == 1 + v))
    ∧ (∀ (at_ : Dword) (s : State), s.clocked = true →
      exec (.flrPf1 at_) s = .next ((((s.advance at_).resetTenants fun _ => true).msixReset fun fn => fn != 0).setSriov 0 false)
      ∧ exec (.flrPf0 at_) s = .next (((s.advance at_).msixReset fun fn => fn == 0).closeSessions 4 fun k _ => k == 0))
    ∧ (∀ (fn vec : Nat) (addr : Dword) (data : Word) (s : State), s.clocked = true → vec < msixSize fn → fn ≤ 256 →
      exec (.msixVectorUnmask fn vec addr data) s = .next (s.setMsix (fn * 2048 + vec) ⟨addr, data, false⟩))
    ∧ (∀ (n : Nat) (on_ commit : Bool) (s : State), s.clocked = true →
      (n ≤ 255 → exec (.sriovVfEnable n on_) s = .next (s.vfsEnabled n on_))
      ∧ exec (.hdmDecoderCommit commit) s = .next { s with sys := { s.sys with hdmCommitted := commit } })
    ∧ (∀ (vf page size t : Nat) (val : Word) (at_ : Dword) (s : State), s.clocked = true → (s.advance at_).pageTenant vf page = some (some t) →
      (exec (.dbSqTail vf page 4 val at_) s = .next ((s.advance at_).tailRung vf page val t)
        ∧ exec (.dbCqHead vf page 4 val at_) s = .next ((s.advance at_).freeHead val t))
      ∧ (size ≠ 4 → exec (.dbSqTail vf page size val at_) s =
          .next ((s.advance at_).hostError 0 0x10 (some t) vf (if vf = 0 then 0 else page))
        ∧ exec (.dbCqHead vf page size val at_) s = .next ((s.advance at_).hostError 4 0x10 (some t) vf (if vf = 0 then 0 else page)))
      ∧ ((s.advance at_).qEnabled t = true → val.toNat % 2 ^ 13 < (s.advance at_).sqSize t →
        (((s.advance at_).tailRung vf page val t).tenant t).sqTail = val.toNat % 2 ^ 13))
    ∧ (∀ (vf k off : Nat) (val : Word) (at_ : Dword) (s : State), s.clocked = true → vf ≠ 0 → (s.advance at_).vfEnabled vf = true → k < 8 →
      (∀ t, (s.advance at_).tenantOf vf k = some t → windowWritable off = true →
        exec (.vfWindowWrite vf k off val at_) s = .next ((s.advance at_).writeTenant .fn t off vf k val).1)
      ∧ (∀ t, (s.advance at_).tenantOf vf k = some t → windowWritable off = false →
        exec (.vfWindowWrite vf k off val at_) s = .next ((s.advance at_).hostError off 0x11 (some t) vf k))
      ∧ ((s.advance at_).tenantOf vf k = none → exec (.vfWindowWrite vf k off val at_) s = .next ((s.advance at_).hostError off 0x11 none vf k)))
    ∧ (∀ (t : Nat) (s : State), s.clocked = true → t < 1024 → s.mayFetch t = true → exec (.sqFetch t) s =
      .next ((s.onTenant t fun x => { x with fetching := true }).emit
        (.hostRead (s.fld64 (pgTenant t) R.tenant_SQ_BASE + 64 * s.fld (pgTenant t) R.tenant_SQ_HEAD) 64 t)))
    ∧ (∀ (t : Nat) (sq host : List Byte) (sqEnd hostEnd : ReadEnd) (at_ : Dword) (s : State), s.clocked = true → (s.tenant t).fetching = true →
      exec (.sqFetchComplete t sq host sqEnd hostEnd at_) s = .next ((s.advance at_).fetchDone t sq host sqEnd hostEnd))

/-- While the clocks run: a port in training completes TYZ_TRAIN_COMPLETE, at the lower generation of both ends, and TYZ_TRAIN_TIMEOUT,
lost; a retraining port completes TYZ_TRAIN_COMPLETE and replays; a LOST port TYZ_LOST_RETRAIN, in service from the next tick, unchanged
where the attempt fails. On a port in service TYZ_LANE_FAIL (lanes 0 to 8) loses the lane; TYZ_LANEMAP_FLIT loses the first lane the other
end leaves out, and changes nothing where the maps agree; a damaged flit is discarded and NAKed, a good TYZ_DATA_FLIT, TYZ_IDLE_FLIT or
TYZ_NAK_FLIT acknowledges and has its effect; TYZ_ACK_TIMEOUT with flits unacknowledged retrains. TYZ_PACKET_ROUTE routes the oldest packet
received; TC0_AGE_PROMOTE promotes the oldest waiting TC0 packet. (spec/11_tyzil_ethernet.md, R332, R333, R334, R337, R338, R339, R340,
R342, R348) -/
def Obligations.TyzilLinkRowsComplete : Prop :=
  (∀ (n peerGen : Nat) (s : State), s.clocked = true → s.trains n = true → (s.port n).retraining = false →
      exec (.tyzTrainComplete n peerGen) s = .next ((s.setPortSts n (laneState (s.port n).failed) (min (s.fld (pgTyz n) R.tyz_CFG_MAX_GEN) peerGen)
        (lanesInUse (s.port n).failed)).calLanes (9 * n) 9)
      ∧ exec (.tyzTrainTimeout n) s = .next (s.portLost n))
    ∧ (∀ (n peerGen : Nat) (s : State), s.clocked = true → (s.port n).retraining = true → exec (.tyzTrainComplete n peerGen) s = .next (s.retrained n))
    ∧ (∀ (n peerGen : Nat) (s : State), s.clocked = true → s.portState n = 5 →
      exec (.tyzLostRetrain n true peerGen) s = .next (((s.setPort n { TyzPort.zero with due := true }).setPortSts n 2
        (min (s.fld (pgTyz n) R.tyz_CFG_MAX_GEN) peerGen) 0xFF).calLanes (9 * n) 9)
      ∧ exec (.tyzLostRetrain n false peerGen) s = .next s)
    ∧ (∀ (n : Nat) (b : List Byte) (at_ : Dword) (s : State), s.clocked = true → s.portServes n = true →
      (∀ lane, lane < 9 → exec (.tyzLaneFail n lane) s = .next (s.laneFail n lane))
      ∧ (∀ map l, s.lanesDiffer n map = some l → exec (.tyzLanemapFlit n map) s = .next (s.laneFail n l))
      ∧ (∀ map, s.lanesDiffer n map = none → exec (.tyzLanemapFlit n map) s = .next s)
      ∧ (flitOk b = false → exec (.tyzDataFlit n b) s = .next (s.badFlit n) ∧ exec (.tyzIdleFlit n b) s = .next (s.badFlit n)
        ∧ exec (.tyzNakFlit n b at_) s = .next ((s.advance at_).badFlit n))
      ∧ (flitOk b = true → exec (.tyzDataFlit n b) s = .next (s.dataFlit n b) ∧ exec (.tyzIdleFlit n b) s = .next ((s.ackCredit n b).pumpAll n)
        ∧ exec (.tyzNakFlit n b at_) s = .next ((s.advance at_).nakFlit n b))
      ∧ ((s.port n).replay ≠ [] → exec (.tyzAckTimeout n) s = .next (s.retrain n)))
    ∧ (∀ (p : TyzPkt) (r : List TyzPkt) (s : State), s.clocked = true → s.tyz.inbox = p :: r →
      exec .tyzPacketRoute s = .next (State.routeOn { s with tyz := { s.tyz with inbox := r } } p))
    ∧ (∀ (n i : Nat) (s : State), s.clocked = true → ((s.port n).queue.findIdx? fun e => e.1.tc == 0 && !e.2) = some i →
      exec (.tc0AgePromote n) s = .next ((s.setPort n { s.port n with queue := (s.port n).queue.modify i fun e => (e.1, true) }).pumpPort n
        ((s.port n).queue.length + 1)))

/-- While the clocks run, with a packet of the row's opcode delivered: TYZ_RD_REQ is answered with the data read, TYZ_WR with its
acknowledgement once written, each with status BOUND where the memory refuses or the device sleeps. TYZ_RD_RSP and TYZ_WR_ACK reach the job
that asked, and one that no request awaits changes nothing more. TYZ_STREAM and TYZ_CRD reach the bridge end of their BIND_KEY, or are
dropped where none is bound. TYZ_ADD_I32, TYZ_ADD_F32, TYZ_MAX_F32 and TYZ_LSE_MERGE take the next contribution of their operation;
TYZ_COLL_RES passes a result on, or raises the orphan's event. TYZ_MGMT reaches the firmware. TYZ_RMA_TIMEOUT ends the job of a request
without response once its timeout has passed. (spec/11_tyzil_ethernet.md, R345, R346, R353, R354, R355, R356, R358, R359, R360, R374) -/
def Obligations.TyzilPacketRowsComplete : Prop :=
  (∀ (hits : List (Nat × Upset)) (s1 : State) (p : TyzPkt) (s : State), s.clocked = true → s.takeDelivered 0x02 = some (s1, p) →
      (s1.asleep = true ∨ 4096 < p.len → exec (.tyzRdReq hits) s = .next (s1.answerRead p 1 [] []))
      ∧ (s1.asleep = false → p.len ≤ 4096 →
        (∀ t ps, (s1.strikeModules hits).memRead (p.arg % 2 ^ 51) p.len false = .ok t ps →
          exec (.tyzRdReq hits) s = .next (t.answerRead p 0 (ps.flatMap (·.1)) (piecePoison ps)))
        ∧ (∀ f, (s1.strikeModules hits).memRead (p.arg % 2 ^ 51) p.len false = .fail f →
          exec (.tyzRdReq hits) s = .next (s1.answerRead p 1 [] []))))
    ∧ (∀ (hits : List (Nat × Upset)) (s1 : State) (p : TyzPkt) (s : State), s.clocked = true → s.takeDelivered 0x04 = some (s1, p) →
      (s1.asleep = true → exec (.tyzWr hits) s = .next (s1.answerWrite p 1))
      ∧ (s1.asleep = false →
        (∀ t ps, (s1.strikeModules hits).memWrite (p.arg % 2 ^ 51) p.payload (poisonedIn p.payPoison) false = .ok t ps →
          exec (.tyzWr hits) s = .next (t.answerWrite p 0))
        ∧ (∀ f, (s1.strikeModules hits).memWrite (p.arg % 2 ^ 51) p.payload (poisonedIn p.payPoison) false = .fail f →
          exec (.tyzWr hits) s = .next (s1.answerWrite p 1))))
    ∧ (∀ (s1 : State) (p : TyzPkt) (s : State), s.clocked = true → s.takeDelivered 0x03 = some (s1, p) →
      (s1.takeRma p.tag false = none → exec .tyzRdRsp s = .next s1)
      ∧ (∀ s2 r, s1.takeRma p.tag false = some (s2, r) →
        (s2.jobIdx r.engine r.ring = none → exec .tyzRdRsp s = .next s2)
        ∧ (∀ i, s2.jobIdx r.engine r.ring = some i → r.kind ≠ 2 ∨ s.inRunPhase = true → exec .tyzRdRsp s = .next (s2.responseData p r i))))
    ∧ (∀ (s1 : State) (p : TyzPkt) (s : State), s.clocked = true → s.takeDelivered 0x05 = some (s1, p) →
      (s1.takeRma p.tag true = none → exec .tyzWrAck s = .next s1)
      ∧ (∀ s2 r, s1.takeRma p.tag true = some (s2, r) →
        (s2.jobIdx r.engine r.ring = none → exec .tyzWrAck s = .next s2)
        ∧ (∀ i, s2.jobIdx r.engine r.ring = some i → exec .tyzWrAck s = .next (s2.writeAcked p r i))))
    ∧ (∀ (s1 : State) (p : TyzPkt) (s : State), s.clocked = true → s.takeDelivered 0x00 = some (s1, p) →
      ((s1.findBridge true fun q => prmColl q == 0 && prmKey q == p.arg / 2 ^ 32) = none → exec .tyzStream s = .next s1)
      ∧ (∀ k i e, (s1.findBridge true fun q => prmColl q == 0 && prmKey q == p.arg / 2 ^ 32) = some (k, i) → (s1.engine k).ends[i]? = some e →
        exec .tyzStream s = .next (s1.streamFromTyz p k i e)))
    ∧ (∀ (s1 : State) (p : TyzPkt) (s : State), s.clocked = true → s.takeDelivered 0x01 = some (s1, p) →
      ((s1.findBridge false fun q => prmColl q == 0 && prmKey q == p.arg / 2 ^ 32) = none → exec .tyzCrd s = .next s1)
      ∧ (∀ k i e, (s1.findBridge false fun q => prmColl q == 0 && prmKey q == p.arg / 2 ^ 32) = some (k, i) → (s1.engine k).ends[i]? = some e →
        exec .tyzCrd s = .next ((s1.actTyz e.region p.srcDom 0).engineSend k
          (crdPacket (enginePos k) e.pos e.region e.stream (p.arg % 65536) (bitsOf p.arg 28 17)))))
    ∧ (∀ (p : TyzPkt) (s : State), s.clocked = true →
      let taken := State.creditBack { s with tyz := { s.tyz with delivered := s.tyz.delivered.erase p } } p
      (s.nextContribution 0x11 = some p → exec .tyzAddI32 s = .next (taken.contribution 0x11 p))
      ∧ (s.nextContribution 0x12 = some p → exec .tyzAddF32 s = .next (taken.contribution 0x12 p))
      ∧ (s.nextContribution 0x13 = some p → exec .tyzMaxF32 s = .next (taken.contribution 0x13 p))
      ∧ (s.nextContribution 0x14 = some p → exec .tyzLseMerge s = .next (taken.contribution 0x14 p)))
    ∧ (∀ (s1 : State) (p : TyzPkt) (s : State), s.clocked = true → s.takeDelivered 0x15 = some (s1, p) →
      (s1.collEntry p.tag 0 = none → exec .tyzCollRes s = .next (s1.collOrphan p.tag))
      ∧ (∀ w, s1.collEntry p.tag 0 = some w →
        exec .tyzCollRes s = .next ((s1.collToChildren p.tag (p.arg % 256) p (collPorts w.2.1)).collLocal p.tag p)))
    ∧ (∀ (reach : List (Nat × Bool)) (p : TyzPkt) (s : State), s.clocked = true → (s.tyz.delivered.find? fun p => p.op == 0x20) = some p →
      exec (.tyzMgmt reach) s = .next { s with tyz := { s.tyz with
        delivered := s.tyz.delivered.erase p
        reachDue := s.tyz.reachDue ++ reach } })
    ∧ (∀ (tag : Nat) (at_ : Dword) (r : Rma) (s : State), let t := s.advance at_
      s.clocked = true → (t.tyz.rma.find? fun r => r.tag == tag) = some r →
      t.fld (pgTyz 0) R.tyz0_RMA_TO_US * 1000 ≤ (t.tb - r.sentAt).toNat →
      exec (.tyzRmaTimeout tag at_) s = .next (match t.jobIdx r.engine r.ring with
        | none => { t with tyz := { t.tyz with rma := t.tyz.rma.erase r } }
        | some i => State.badJob { t with tyz := { t.tyz with rma := t.tyz.rma.erase r } } r.engine i endTimeout))

/-- While the clocks run: with the link up ETH_DGRAM_RECEIVE counts a bad frame in FCS_ERR and takes a good one, and ETH_LINK_DOWN takes
the link down; ETH_LINK_UP of an enabled port brings it up; ETH_RTO_EXPIRE with datagrams unacknowledged sends them again.
POLICY_ADAPT_WINDOW at a window's end chooses the move, KV_IDLE_EVICT drops an idle item's blocks. RAIL_SAMPLE measures the rails always.
EMERG_THROTTLE at 102 °C or above 1.1 × PKG_W steps the clock to 800 MHz; THERMTRIP at 112 °C logs the sensor and trips; PWRFAIL_ASSERT
and a rail outside its limits cut the power; in SLEEP a boundary reached charges the device account.
(spec/11_tyzil_ethernet.md, spec/12_tenants_admission_policy.md, spec/13_power_energy_tariffs.md, R370, R371, R402, R414, R416, R417,
R433, R591, R633) -/
def Obligations.EthernetPolicyEnergyComplete : Prop :=
  (∀ (k : Nat) (b : List Byte) (s : State), s.clocked = true → s.regBit (ethSts k) 0 = true →
      exec (.ethDgramReceive k b false) s = .next (s.bump (pgEth k) R.eth_FCS_ERR 3 1)
      ∧ ((s.bump (pgEth k) R.eth_RX_DGRAM 1 1).dgramMine b = true →
        exec (.ethDgramReceive k b true) s = .next ((s.bump (pgEth k) R.eth_RX_DGRAM 1 1).dgram k b))
      ∧ ((s.bump (pgEth k) R.eth_RX_DGRAM 1 1).dgramMine b = false →
        exec (.ethDgramReceive k b true) s = .next (s.bump (pgEth k) R.eth_RX_DGRAM 1 1))
      ∧ exec (.ethLinkDown k) s = .next ((s.setRegBit (ethSts k) 0 false).event (pgEth k) 0))
    ∧ (∀ (k : Nat) (s : State), s.clocked = true → s.flag (pgEth k) R.eth_CFG_EN = true → exec (.ethLinkUp k) s = .next (s.ethUp k))
    ∧ (∀ (d k : Nat) (s : State), s.clocked = true → s.peerPort d = some k → (s.peer d).unacked ≠ [] →
      exec (.ethRtoExpire d) s = .next (s.resendAll d k))
    ∧ (∀ s : State, s.clocked = true → s.adaptDue = true → exec .policyAdaptWindow s = .next s.adaptChoose)
    ∧ (∀ (d : Nat) (x : Desc) (s : State), s.clocked = true → s.desc d = some x → s.kvIdle x = true →
      exec (.kvIdleEvict d) s = .next (s.evictKv x false))
    ∧ (∀ (mw : List Nat) (at_ : Dword) (s : State), exec (.railSample mw at_) s = .next ((s.advance at_).railsMeasured mw))
    ∧ (∀ (sensors : List Int) (at_ : Dword) (s : State), (s.advance at_).tooHot sensors = true ∨ (s.advance at_).tooMuch = true →
      (s.advance at_).meter.emerg = none → exec (.emergThrottle sensors at_) s = .next (s.advance at_).throttled)
    ∧ (∀ (i : Nat) (raw : Int) (at_ : Dword) (s : State), i < 64 → 112 * 256 ≤ (s.advance at_).senseF i raw → (s.advance at_).sys.tripped = false →
      exec (.thermtrip i raw at_) s = .next ((s.advance at_).tripBy i))
    ∧ (∀ (at_ : Dword) (s : State), (s.advance at_).sys.cut = none →
      ((s.advance at_).sys.lpPhase ≠ .asleep ∨ (s.advance at_).sys.lpTarget ≠ 4 → exec (.pwrfailAssert at_) s = .next (s.advance at_).powerCut)
      ∧ (∀ (k : Nat) (raw lo hi : Int), (s.advance at_).railLimits k = some (lo, hi) → (raw + (s.advance at_).calE 5 k < lo ∨ hi < raw + (s.advance at_).calE 5 k) →
        exec (.railFault k raw at_) s = .next (s.advance at_).powerCut))
    ∧ (∀ (at_ : Dword) (s : State), (s.advance at_).sys.lpPhase = .asleep → (s.advance at_).sys.lpTarget = 3 → (s.advance at_).boundaryDue = true →
      exec (.acctBoundaryInSleep at_) s = .next (s.advance at_).boundaryAsleep)

/-- REPAIR_COPY of a shift that is copying, in the run phase, moves the slices east and marks the shift copied. At a tick that waits with
a swap due, while the clocks run, REPAIR_SWAP applies it on an empty mesh within 512 fc of the tick instant, and SWAP_WAIT_EXPIRE, once
they have passed, puts it off on one that is not empty; the tick then goes on. REPAIR_NV_RETRY writes the map again after a minute. CORE_HEARTBEAT_MISS takes a core
out of service that missed its heartbeat or reached its UE threshold. PWRFAIL_RELEASE resets the board once the last gasp is complete and
10 ms have passed. (spec/14_faults_repair_degraded.md, spec/03_cells_mesh_reduction.md, R100, R437, R449, R450, R451, R456, R459) -/
def Obligations.RepairRowsComplete : Prop :=
  (∀ (q y p : Nat) (at_ : Dword) (s : State), (s.advance at_).grid.shifts.find? (fun t => t.1 == q && t.2.1 == y && t.2.2.2 == 1) = some (q, y, p, 1) →
      (s.advance at_).frameOn = true → before (s.advance at_).tb ((s.advance at_).tickAt (s.advance at_).frameNo + 2000) = false →
      before (s.advance at_).tb (s.advance at_).guardStart = true → exec (.repairCopy q y at_) s = .next ((s.advance at_).copyRow q y p))
    ∧ (∀ (at_ : Dword) (r : TickRest) (s : State), s.clocked = true → s.sys.tickRest = some r →
      ((s.advance at_).meshEmpty = true → before (s.advance at_).swapLimit (s.advance at_).tb = false →
        exec (.repairSwap at_) s = .next ((s.advance at_).resumeTick r true))
      ∧ ((s.advance at_).meshEmpty = false → before (s.advance at_).tb (s.advance at_).swapLimit = false →
        exec (.swapWaitExpire at_) s = .next ((s.advance at_).resumeTick r false)))
    ∧ (∀ (at_ : Dword) (seq : Nat) (w : Dword) (s : State), (s.advance at_).nv.mapWait = some (seq, w) → (s.advance at_).mapOnWay = false →
      before (s.advance at_).tb (w + 60000000000) = false → exec (.repairNvRetry at_) s = .next ((s.advance at_).retryMap seq))
    ∧ (∀ (k : Nat) (at_ : Dword) (s : State), let s0 := (s.advance at_).flushNotes
      k < 8 → s0.busAlive = true → (s0.sys.booted = true ∨ s0.sys.recovery = true) → s0.coreState k = 0 →
      before s0.tb ((s0.core k).hbAt + BitVec.ofNat 64 (s0.fld pgRepair R.repair_CORE_HB_US * 1000)) = false
        ∨ s0.fld pgRepair R.repair_CORE_UE_THR ≤ s0.coreUes k →
      exec (.coreHeartbeatMiss k at_) s = .next (s0.loseCore k))
    ∧ (∀ (at_ w : Dword) (s : State), (s.advance at_).sys.cut = some w → before (s.advance at_).tb (w + 10000000) = false →
      (s.advance at_).nv.ops = [] → (s.advance at_).nv.cur = none → exec (.pwrfailRelease at_) s = .next (s.advance at_).boardReset)

/-- A core that runs and has no data access outstanding makes its access: CORE_LOAD of the boot ROM answers its bytes, of a register page
the register, of control SRAM goes by the cache; CORE_STORE to the boot ROM stores nothing, to a register page is firmware's write, to
control SRAM goes by the cache; CORE_LR and CORE_SC act in control SRAM, and an SC whose line left M answers 1 and stores nothing; an access
outside the regions of Table 15.1 raises an access fault. L1I_MISS of a line the core does not hold asks for it by BusRdCur. L1D_EVICT drops
a clean line, and moves an owned one to a write-back buffer with room. (spec/15_control_cluster_coherence.md, R465, R466, R467, R473, R476,
R481) -/
def Obligations.CoreRowsComplete : Prop :=
  (∀ (k addr size : Nat) (data : List Byte) (hits : List Upset) (image : List Byte) (how : ReadEnd) (places : List Placement) (at_ : Dword) (s : State),
      let s0 := (s.advance at_).flushNotes
      s0.coreRuns k = true → s0.coreWaits k false = false →
      exec (.coreLoad k addr size hits at_) s = .next (s0.coreLoads k addr size hits)
      ∧ exec (.coreStore k addr data hits image how places at_) s = .next (s0.coreStores k addr data hits image how places)
      ∧ exec (.coreLr k addr size hits at_) s = .next (s0.coreReserves k addr size hits)
      ∧ exec (.coreSc k addr data hits at_) s = .next (s0.coreConditional k addr data hits)
      ∧ (coreRegion addr size = .outside → exec (.coreLoad k addr size hits at_) s = .next (s0.coreFault k)
        ∧ exec (.coreLr k addr size hits at_) s = .next (s0.coreFault k))
      ∧ (coreRegion addr size = .rom → exec (.coreLoad k addr size hits at_) s =
        .next (s0.emit (.coreData k 0 ((List.range size).map fun i => Config.bootRom (addr + i)))))
      ∧ (coreRegion addr data.length = .rom → exec (.coreStore k addr data hits image how places at_) s = .next s0)
      ∧ (coreRegion addr data.length = .sram → (s0.core k).lr ≠ some (addr % 0x10000000 / 64) →
        exec (.coreSc k addr data hits at_) s = .next ((s0.setCore k { s0.core k with lr := none }).emit (.coreData k 1 [1]))))
    ∧ (∀ (k addr : Nat) (at_ : Dword) (s : State), let s0 := (s.advance at_).flushNotes
      s0.coreRuns k = true → s0.coreWaits k true = false → coreRegion (addr / 2 * 2) 2 = .sram →
      ((s0.core k).l1i.any fun e => e.1 == addr % 0x10000000 / 64) = false →
      ∀ parity, exec (.l1iMiss k addr parity at_) s = .next (s0.request ⟨k, .rdCur, addr % 0x10000000 / 64, .fetch (addr % 64)⟩))
    ∧ (∀ (k line : Nat) (hits : List Upset) (at_ : Dword) (x : CLine) (s : State), let s0 := (s.advance at_).flushNotes
      k < 8 → s0.coreState k = 0 → s0.busAlive = true → (s0.core k).line line = some x →
      (x.st = .e ∨ x.st = .s → exec (.l1dEvict k line hits at_) s = .next (s0.setCore k ((s0.core k).dropLine line)))
      ∧ (x.st = .m ∨ x.st = .o → (s0.core k).wb.length < 4 → exec (.l1dEvict k line hits at_) s = .next (s0.evictOwned k line x hits)))

/-- When the arbiter's winner among the cores asks for the row's transaction and the bus answers, the request is taken and BUS_RD, BUS_RDX
and a core's BUS_RDCUR are granted, BUS_UPGR upgrades, BUS_WB goes home; when the winner is AP, BUS_WRINV writes the whole line home and
BUS_WRMRG and AP's BUS_RDCUR are granted. DATA_SUPPLY completes the first grant whose supplier holds data, before its timeout and with a way
for the line; HOME_TIMEOUT has home supply a late one. (spec/15_control_cluster_coherence.md, R473, R475, R477, R479, R480, R481, R484) -/
def Obligations.BusRowsComplete : Prop :=
  (∀ (k : Nat) (r : BusReq) (hits : List Upset) (at_ : Dword) (s : State), let s0 := (s.advance at_).flushNotes
      s0.busAlive = true → s0.cl.winner false = some k → s0.cl.oldest k = some r →
      (r.kind = .rd → exec (.busRd hits at_) s = .next ((s0.granted k r).grantRead r.who .rd r.line r.acc (0, []) hits).flushNotes)
      ∧ (r.kind = .rdX → exec (.busRdx hits at_) s = .next ((s0.granted k r).grantRead r.who .rdX r.line r.acc (0, []) hits).flushNotes)
      ∧ (r.kind = .upgr → exec (.busUpgr hits at_) s = .next ((s0.granted k r).grantUpgrade r hits).flushNotes)
      ∧ (r.kind = .wb → exec (.busWb hits at_) s = .next ((s0.granted k r).wentHome r hits).flushNotes)
      ∧ (r.kind = .rdCur → ∀ line, exec (.busRdcur false line hits at_) s =
        .next ((s0.granted k r).grantRead r.who .rdCur r.line r.acc (0, []) hits).flushNotes))
    ∧ (∀ (off line : Nat) (data : List Byte) (hits : List Upset) (at_ : Dword) (s : State), let s0 := (s.advance at_).flushNotes
      let t := { s0 with cl := { s0.cl with last := 8 } }
      s0.busAlive = true → s0.cl.winner true = some 8 →
      exec (.busWrinv off data hits at_) s = .next (t.writeLine (off / 64 % 131072) data hits).flushNotes
      ∧ exec (.busWrmrg off data hits at_) s =
        .next (t.grantRead 8 .wrMrg (off / 64 % 131072) .none (off % 64, data.take (64 - off % 64)) hits).flushNotes
      ∧ exec (.busRdcur true line hits at_) s = .next (t.grantRead 8 .rdCur (line % 131072) .none (0, []) hits).flushNotes)
    ∧ (∀ (g : BusGrant) (at_ : Dword) (s : State), let s0 := (s.advance at_).flushNotes
      ((s0.cl.grants.find? fun g => g.data.isSome) = some g → s0.grantLate g = false → s0.wayFree g = true →
        exec (.dataSupply at_) s = .next ((s0.dropGrant g).complete g (g.data.getD ([], []))).flushNotes)
      ∧ ((s0.cl.grants.find? fun g => s0.grantLate g) = some g → s0.wayFree g = true →
        exec (.homeTimeout at_) s = .next (s0.homeSupplies g)))

/-- When the arbiter's winner is granted a BusUpgr of a line that it does not hold then, the next state is the one that the grant of a
BusRdX of the same requester, line and access would give from the same state, but for the request taken. (R474) -/
def Obligations.UpgradeInInvalidIsReadExclusive : Prop :=
  ∀ (k : Nat) (r : BusReq) (hits : List Upset) (at_ : Dword) (s : State), let s0 := (s.advance at_).flushNotes
    s0.busAlive = true → s0.cl.winner false = some k → s0.cl.oldest k = some r → r.kind = .upgr → (s0.core r.who).line r.line = none →
    exec (.busUpgr hits at_) s = .next ((s0.granted k r).grantRead r.who .rdX r.line r.acc (0, []) hits).flushNotes

/-- POR resets everything and holds POR; POWER_UP_SEQUENCE raises the power enables and releases it; BOARD_RESET acts while the device is
out of POR and its clocks run; REFCLK_SYS_LOST stops the reference clock and changes nothing else. NAP_ENTER enters NAP at the end of the
admit phase where the grid may nap. SLEEP_ENTER completes an accepted SLEEP, STANDBY_ENTER an accepted STANDBY. SLEEP_EXIT_READY wakes the
device. PLDM_POWER_WAKE out of STANDBY restores power, and in any other state changes nothing but the timebase.
(spec/17_watchdog_trace_debug.md, spec/19_states_combinations.md, spec/22_electrical_package.md, R521, R580, R588, R590, R592, R593, R594,
R634) -/
def Obligations.ResetAndPowerRowsComplete : Prop :=
  (∀ s : State, exec .por s = .next { s.porReset with sys := { s.porReset.sys with on_ := false } })
    ∧ (∀ s : State, s.sys.on_ = false → exec .powerUpSequence s = .next { s with
      out := .pin pinGridPwr 1 s.tb :: .pin pinCtlPwr 1 s.tb :: s.out
      sys := { s.sys with on_ := true } })
    ∧ (∀ (at_ : Dword) (s : State), (s.advance at_).sys.on_ = true → (s.advance at_).sys.tripped = false →
      exec (.boardReset at_) s = .next (s.advance at_).boardReset)
    ∧ (∀ s : State, s.sys.refLost = false → exec .refclkSysLost s = .next { s with sys := { s.sys with refLost := true } })
    ∧ (∀ s : State, s.mayNap = true → before (s.tickAt s.frameNo + 2000) s.tb = false →
      exec .napEnter s = .next (s.enterNap (s.tickAt s.frameNo + 2000)) ∧ (s.enterNap (s.tickAt s.frameNo + 2000)).grid.nap = true)
    ∧ (∀ s : State, s.alive = true → s.sys.lpPhase = .accepted → (s.sys.lpTarget = 3 → exec .sleepEnter s = .next s.enterSleep)
      ∧ (s.sys.lpTarget = 4 → exec .standbyEnter s = .next s.enterStandby))
    ∧ (∀ s : State, s.enterStandby.grid.on_ = false ∧ s.enterStandby.sys.lpPhase = .asleep ∧ s.enterStandby.sys.lpTarget = 4)
    ∧ (∀ (at_ : Dword) (s : State), (s.advance at_).alive = true → (s.advance at_).sys.lpPhase = .leaving →
      (s.advance at_).fld pgPower R.power_LP_STATE = 3 → exec (.sleepExitReady at_) s = .next (s.advance at_).wakeSleep)
    ∧ (∀ (at_ : Dword) (s : State), ((s.advance at_).alive = true → (s.advance at_).sys.lpPhase = .asleep → (s.advance at_).sys.lpTarget = 4 →
        exec (.pldmPowerWake at_) s = .next (s.advance at_).wakeStandby)
      ∧ ((s.advance at_).sys.lpPhase ≠ .asleep → exec (.pldmPowerWake at_) s = .next (s.advance at_)))

/-- BOOT runs the boot ROM after a reset that restarted the control cluster of a living device; a SCRAPPED one boots nothing.
FLASH_OP_START starts a waiting operation on an idle flash, resumes a suspended erase, and suspends an erase for a program of higher
priority. FLASH_PROGRAM_COMPLETE ends a program and FLASH_ERASE_COMPLETE an erase, each with success or failure. KEY_BURN_COMPLETE and
LC_BURN_COMPLETE end a burn in progress. (spec/16_boot_images_nv.md, spec/18_roles_keys_calibration.md, R490, R508, R511, R525, R556, R563,
R564) -/
def Obligations.BootFlashRowsComplete : Prop :=
  (∀ (b : BootInfo) (s : State), (s.advance b.at_).alive = true → (s.advance b.at_).sys.booted = false → (s.advance b.at_).sys.recovery = false →
      (s.advance b.at_).sys.lpPhase = .none →
      ((s.advance b.at_).lifecycle ≠ 4 → exec (.boot b) s = .next ((s.advance b.at_).bootUp b))
      ∧ ((s.advance b.at_).lifecycle = 4 → exec (.boot b) s = .next (s.advance b.at_)))
    ∧ (∀ (o : FlashOp) (s : State), s.flashOn = true → s.wdt.hold = none → nextOp s.nv.ops = some o → s.nv.cur = none → s.nv.susp = none →
      exec .flashOpStart s = .next { s with nv := { s.nv with
        cur := some o
        ops := s.nv.ops.erase o } })
    ∧ (∀ (e : FlashOp) (s : State), s.flashOn = true → nextOp s.nv.ops = none → s.nv.cur = none → s.nv.susp = some e →
      exec .flashOpStart s = .next { s with nv := { s.nv with
        cur := some e
        susp := none } })
    ∧ (∀ (o e : FlashOp) (s : State), s.flashOn = true → s.wdt.hold = none → nextOp s.nv.ops = some o → s.nv.cur = some e → s.nv.susp = none →
      e.erase = true → s.nv.canSuspend = true → o.erase = false → o.prio < e.prio →
      exec .flashOpStart s = .next { s with nv := { s.nv with
        cur := some o
        susp := some e
        ops := s.nv.ops.erase o } })
    ∧ (∀ (o : FlashOp) (s : State), s.nv.cur = some o →
      (o.erase = false → exec (.flashProgramComplete true) s = .next (s.programmed o)
        ∧ exec (.flashProgramComplete false) s = .next (s.programFails o))
      ∧ (o.erase = true → ∀ ok, exec (.flashEraseComplete ok) s = .next (s.eraseEnds o ok).afterHold))
    ∧ (∀ (b : Burn) (ok : Bool) (s : State), s.rind.burn = some b → exec (.keyBurnComplete ok) s = .next (s.endBurn s.rind.burnBy b ok))
    ∧ (∀ (x : Nat) (s : State), s.rind.lcBurn = some x → exec .lcBurnComplete s = .next (s.lcBurnt x) ∧ (s.lcBurnt x).rind.lcBurn = none)

/-- WDT_EXPIRE in stage 0 after WIN_MAX enters stage 1 with reason 1, WDT_CLOCK_EXPIRE past 17/16 of it with reason 4. WDT_STAGE2 at t2
resets, or is held off by an erase; WDT_HOLD_EXPIRE resets 2.5 s after t2. TRACE_RING_WRITE moves a waiting record. The JTAG, debug and
PLDM rows always act: IDCODE emits the code and BYPASS only sets the instruction; without the right halting a core changes nothing but the
timebase; a sensor reads its value, and a SCRAPPED device none; an effecter writes CAP in an installer's or maker's session alone.
(spec/17_watchdog_trace_debug.md, R520, R521, R524, R525, R528, R532, R538, R539) -/
def Obligations.WatchdogTraceDebugComplete : Prop :=
  (∀ (at_ : Dword) (s : State), (s.advance at_).wdtRuns = true → (s.advance at_).winMax ≤ (s.advance at_).wdtElapsed →
      exec (.wdtExpire at_) s = .next ((s.advance at_).wdtStage1 1 ((s.advance at_).wdt.tLast + BitVec.ofNat 64 (s.advance at_).winMax)))
    ∧ (∀ (count : Nat) (at_ : Dword) (s : State), (s.advance at_).wdtRuns = true → (s.advance at_).wdtElapsed < (s.advance at_).winMax →
      ((17 * (s.advance at_).winMax * 4 * 1000000 : Nat) : Int) ≤ (count : Int) * 125 * (1000000 + ((s.advance at_).calGet 10 0).e) * 16 →
      exec (.wdtClockExpire count at_) s = .next ((s.advance at_).wdtStage1 4 (s.advance at_).tb))
    ∧ (∀ (at_ : Dword) (s : State), let s1 := s.advanceWdt at_
      let t2 := s1.wdt.t1 + BitVec.ofNat 64 (s1.wdt.stage2Us * 1000)
      s1.wdtStage = 1 → s1.wdt.hold = none → s1.sys.on_ = true → (s1.sys.refLost = true ∨ before s1.tb t2 = false) →
      (s1.erasing = true → exec (.wdtStage2 at_) s = .next { s1 with wdt := { s1.wdt with hold := some t2 } })
      ∧ (s1.erasing = false → exec (.wdtStage2 at_) s = .next (s1.wdtReset t2 0 0)))
    ∧ (∀ (at_ t2 : Dword) (s : State), let s1 := s.advanceWdt at_
      s1.wdt.hold = some t2 → (s1.sys.refLost = true ∨ before s1.tb (t2 + 2500000000) = false) →
      exec (.wdtHoldExpire at_) s = .next (s1.wdtReset t2 2500000000 2))
    ∧ (∀ s : State, s.trace.buf ≠ [] → s.regBit traceCtl 0 = true → exec .traceRingWrite s = .next s.tracePump)
    ∧ (∀ s : State, exec .jtagIdcode s = .next ((s.setIr .idcode).emit (.jtag Config.idcode)) ∧ exec .jtagBypass s = .next (s.setIr .bypass)
      ∧ exec .jtagExtest s = .next (s.jtagDrive .extest 1 s.jtag.scan) ∧ exec .jtagClamp s = .next (s.jtagDrive .clamp 2 s.jtag.scan)
      ∧ exec .jtagHighz s = .next (s.jtagDrive .highz 3 []))
    ∧ (∀ (pins preload : List Bool) (s : State), exec (.jtagSamplePreload pins preload) s = .next ({ s with jtag := ⟨.sample, preload⟩ }.emit (.jtagPins 0 pins)))
    ∧ (∀ (k : Nat) (at_ : Dword) (s : State), ((s.advance at_).coresOpen = false →
        exec (.debugCoreHalt k at_) s = .next (s.advance at_) ∧ exec (.debugCoreResume k at_) s = .next (s.advance at_))
      ∧ ((s.advance at_).coresOpen = true → k < 8 → (s.advance at_).coreState k = 0 →
        exec (.debugCoreHalt k at_) s = .next (((s.advance at_).setCore k { (s.advance at_).core k with halted := true }).wdtFreeze)
        ∧ exec (.debugCoreResume k at_) s = .next (((s.advance at_).setCore k { (s.advance at_).core k with halted := false }).wdtFreeze)))
    ∧ (∀ (sensor : Nat) (s : State), (s.lifecycle = 4 → exec (.pldmSensorRead sensor) s = .next (s.emit (.mgmt 1 sensor)))
      ∧ (s.lifecycle ≠ 4 → (sensor < 64 → exec (.pldmSensorRead sensor) s = .next (s.emit (.mgmt 0 (s.fld pgTherm (R.therm_SENSE.up (4 * sensor))))))
        ∧ exec (.pldmSensorRead 64) s = .next (s.emit (.mgmt 0 (s.meter.lastUj * 1000 / max s.meter.lastUs 1)))
        ∧ exec (.pldmSensorRead 65) s = .next (s.emit (.mgmt 0 (b2n s.degraded)))))
    ∧ (∀ (w : Nat) (at_ : Dword) (s : State), let s0 := s.advance at_
      ((s0.roleOf .mgmt = roleInstaller ∨ s0.roleOf .mgmt = roleMaker) → exec (.pldmEffecterWrite w at_) s = .next ((s0.writeReg ⟨.mgmt, at_⟩
        (pgPower * 0x1000 + 0x4C) (BitVec.ofNat 32 (setBits (s0.reg (pgPower * 0x1000 + 0x4C)).toNat 10 0 w)) [] .failed []).emit (.mgmt 0 w)))
      ∧ (s0.roleOf .mgmt ≠ roleInstaller → s0.roleOf .mgmt ≠ roleMaker → exec (.pldmEffecterWrite w at_) s = .next (s0.emit (.mgmt 1 w))))

/-- Where the write is performed, REPAIR_APPLY_WRITE, REPAIR_CLEAR, CHAN_RESTORED_WRITE, STREAM_DB_WRITE, RT_COPY, TYZ_PORT_ENABLE,
WALL_OFS_WRITE, STAGE_DATA_WRITE, STAGE_GO, NV_UPD_GO, NV_ACCT_ACK and NV_AUDIT_ACK answer a next state: the effect of that register,
then the audit record where the write is audited. RT_COPY copies the routes in force into the shadow.
(spec/14_faults_repair_degraded.md, spec/08_streams_credits.md, spec/11_tyzil_ethernet.md, spec/13_power_energy_tariffs.md,
spec/16_boot_images_nv.md, R448, R455, R461, R496, R504, R513, R620) -/
def Obligations.PageCommandWritesComplete : Prop :=
  (∀ (rq : Req) (val : Word) (s : State), s.writes rq (pgRepair * 0x1000 + 0x58) →
      exec (.repairApplyWrite rq val) s = .next (s.logged rq (pgRepair * 0x1000 + 0x58) val ((s.onBus rq).writeRepairApply val)))
    ∧ (∀ (rq : Req) (val : Word) (s : State), s.writes rq (pgRepair * 0x1000 + 0x74) →
      exec (.repairClear rq val) s = .next (s.logged rq (pgRepair * 0x1000 + 0x74) val ((s.onBus rq).writeRepairClear rq.iface val)))
    ∧ (∀ (rq : Req) (val : Word) (s : State), s.writes rq (pgRepair * 0x1000 + 0x64) →
      exec (.chanRestoredWrite rq val) s = .next (s.logged rq (pgRepair * 0x1000 + 0x64) val ((if val.toNat % 2 = 1 ∧ (s.onBus rq).sys.refill ≠ 0
        then { s.onBus rq with sys := { (s.onBus rq).sys with refill := 2 } } else s.onBus rq, resDone))))
    ∧ (∀ (rq : Req) (k : Nat) (tail : Word) (s : State), s.writes rq (pgStream * 0x1000 + 0x104 + 0x20 * k) →
      exec (.streamDbWrite rq k tail) s = .next (s.logged rq (pgStream * 0x1000 + 0x104 + 0x20 * k) tail ((s.onBus rq).writeDb k tail)))
    ∧ (∀ (rq : Req) (s : State), s.writes rq (pgTyz 0 * 0x1000 + 0x138) →
      exec (.rtCopy rq) s = .next (s.logged rq (pgTyz 0 * 0x1000 + 0x138) 2 (({ s.onBus rq with tyz := { (s.onBus rq).tyz with routesSh := (s.onBus rq).tyz.routes } }, resDone))))
    ∧ (∀ (rq : Req) (n : Nat) (val : Word) (s : State), s.writes rq (pgTyz n * 0x1000 + 0x48) →
      exec (.tyzPortEnable rq n val) s = .next (s.logged rq (pgTyz n * 0x1000 + 0x48) val ((s.onBus rq).writeTyzCfg rq.iface n val)))
    ∧ (∀ (rq : Req) (val : Dword) (s : State), s.writes rq (pgEnergy * 0x1000 + 0x6C) →
      exec (.wallOfsWrite rq val) s = .next (s.logged rq (pgEnergy * 0x1000 + 0x6C) (BitVec.ofNat 32 (val.toNat / 2 ^ 32)) (((s.onBus rq).writeWall val, resDone))))
    ∧ (∀ (rq : Req) (val : Word) (s : State), s.writes rq (pgNv * 0x1000 + 0x68) →
      exec (.stageDataWrite rq val) s = .next (s.logged rq (pgNv * 0x1000 + 0x68) val ((s.onBus rq).writeStageData val)))
    ∧ (∀ (rq : Req) (places : List Placement) (s : State), s.writes rq (pgNv * 0x1000 + 0x6C) →
      exec (.stageGo rq places) s = .next (s.logged rq (pgNv * 0x1000 + 0x6C) 1 ((s.onBus rq).writeStageGo 1 places)))
    ∧ (∀ (rq : Req) (activate : Bool) (image : List Byte) (how : ReadEnd) (s : State), s.writes rq (pgNv * 0x1000 + 0x80) →
      exec (.nvUpdGo rq activate image how) s = .next (s.logged rq (pgNv * 0x1000 + 0x80) (BitVec.ofNat 32 (1 + 2 * b2n activate)) ((s.onBus rq).writeUpdCtl rq.iface (BitVec.ofNat 32 (1 + 2 * b2n activate)) image how)))
    ∧ (∀ (rq : Req) (val : Word) (s : State), s.writes rq (pgNv * 0x1000 + 0x90) →
      exec (.nvAcctAck rq val) s = .next (s.logged rq (pgNv * 0x1000 + 0x90) val ((s.onBus rq).writeAck rq.iface 0x90 val)))
    ∧ (∀ (rq : Req) (val : Word) (s : State), s.writes rq (pgNv * 0x1000 + 0x94) →
      exec (.nvAuditAck rq val) s = .next (s.logged rq (pgNv * 0x1000 + 0x94) val ((s.onBus rq).writeAck rq.iface 0x94 val)))

/-- Where the write is performed, SESS_OPEN, SESS_RESP, SESS_CLOSE, KEY_WRITE, KEY_REVOKE, KEY_CLAIM, MFUSE_GO, LC_GO,
SEC_VER_MIN_WRITE, ATTEST_NONCE_WRITE, CAL_SAVE and CAL_CLEAR_ALL answer a next state: the effect of the register with the interface's
rights, then the audit record where the write is audited. SESS_IDLE_CLOSE closes a session of interfaces 0 to 3 not used for 600 s.
NONCE_EXPIRE, 10 s after its issue, leaves the interface without a nonce and idle. LOCKOUT_EXPIRE, 60 s after the last failure, leaves
a locked-out interface idle. The last two change nothing else but the timebase. (spec/18_roles_keys_calibration.md, R549, R550, R551,
R552, R555, R557, R558, R559, R562, R564, R571) -/
def Obligations.SecurityRowsComplete : Prop :=
  (∀ (rq : Req) (role key : Nat) (s : State), s.writes rq (rindPage + 0x60) →
      exec (.sessOpen rq role key) s = .next (s.logged rq (rindPage + 0x60) (BitVec.ofNat 32 (1 + role % 4 * 256 + key % 16 * 65536)) ((s.onBus rq).writeSessCtl rq.iface (BitVec.ofNat 32 (1 + role % 4 * 256 + key % 16 * 65536)))))
    ∧ (∀ (rq : Req) (val : Word) (s : State),
      let off := if bitsOf (s.sess ((bankOf rq.iface).getD 0)).ctl 9 8 = 2 then 0xFC else 0xCC
      s.writes rq (rindPage + off) → exec (.sessResp rq val) s = .next (s.logged rq (rindPage + off) val ((s.onBus rq).writeSessResp rq.iface off val)))
    ∧ (∀ (rq : Req) (s : State), s.writes rq (rindPage + 0x60) →
      exec (.sessClose rq) s = .next (s.logged rq (rindPage + 0x60) 2 ((s.onBus rq).writeSessCtl rq.iface 2)))
    ∧ (∀ (rq : Req) (slot : Nat) (s : State), s.writes rq (rindPage + 0x100) →
      exec (.keyWrite rq slot) s = .next (s.logged rq (rindPage + 0x100) (BitVec.ofNat 32 (1 + slot % 32 * 256)) ((s.onBus rq).writeKeyCtl rq.iface (BitVec.ofNat 32 (1 + slot % 32 * 256)))))
    ∧ (∀ (rq : Req) (slot : Nat) (s : State), s.writes rq (rindPage + 0x100) →
      exec (.keyRevoke rq slot) s = .next (s.logged rq (rindPage + 0x100) (BitVec.ofNat 32 (2 + slot % 32 * 256)) ((s.onBus rq).writeKeyCtl rq.iface (BitVec.ofNat 32 (2 + slot % 32 * 256)))))
    ∧ (∀ (rq : Req) (s : State), s.writes rq (rindPage + 0x100) →
      exec (.keyClaim rq) s = .next (s.logged rq (rindPage + 0x100) (BitVec.ofNat 32 (3 + 20 % 32 * 256)) ((s.onBus rq).writeKeyCtl rq.iface (BitVec.ofNat 32 (3 + 20 % 32 * 256)))))
    ∧ (∀ (rq : Req) (val : Word) (s : State), s.writes rq (rindPage + 0x1A0) →
      exec (.mfuseGo rq val) s = .next (s.logged rq (rindPage + 0x1A0) val ((s.onBus rq).burnMfuse rq.iface val)))
    ∧ (∀ (rq : Req) (target : Nat) (s : State), s.writes rq (rindPage + 0x224) →
      exec (.lcGo rq target) s = .next (s.logged rq (rindPage + 0x224) (BitVec.ofNat 32 (target % 8)) ((s.onBus rq).writeLcGo rq.iface (BitVec.ofNat 32 (target % 8)))))
    ∧ (∀ (rq : Req) (val : Word) (s : State), s.writes rq (pgNv * 0x1000 + 0x60) →
      exec (.secVerMinWrite rq val) s = .next (s.logged rq (pgNv * 0x1000 + 0x60) val ((s.onBus rq).writeSecVer rq.iface val)))
    ∧ (∀ (rq : Req) (val : Word) (s : State), s.writes rq (pgAudit * 0x1000 + 0x74) →
      exec (.attestNonceWrite rq val) s = .next (s.logged rq (pgAudit * 0x1000 + 0x74) val ((s.onBus rq).writeAttest rq.iface 0x74 val)))
    ∧ (∀ (rq : Req) (s : State), s.writes rq (pgCal * 0x1000 + 8) →
      exec (.calSave rq) s = .next (s.logged rq (pgCal * 0x1000 + 8) (s.reg (pgCal * 0x1000 + 8) ||| 0x100) (((s.onBus rq).writeCalCtl rq.iface (s.reg (pgCal * 0x1000 + 8) ||| 0x100), resDone))))
    ∧ (∀ (rq : Req) (s : State), s.writes rq (pgCal * 0x1000 + 8) →
      exec (.calClearAll rq) s = .next (s.logged rq (pgCal * 0x1000 + 8) (s.reg (pgCal * 0x1000 + 8) ||| 0x200) (((s.onBus rq).writeCalCtl rq.iface (s.reg (pgCal * 0x1000 + 8) ||| 0x200), resDone))))
    ∧ (∀ (k : Nat) (at_ : Dword) (s : State), k < 4 → ((s.advance at_).sess k).state = 2 →
      before (s.advance at_).tb (((s.advance at_).sess k).lastAccess + 600000000000) = false →
      exec (.sessIdleClose k at_) s = .next ((s.advance at_).closeSess k 2))
    ∧ (∀ (k : Nat) (at_ : Dword) (s : State), ((s.advance at_).sess k).state = 1 →
      before (s.advance at_).tb (((s.advance at_).sess k).issued + 10000000000) = false →
      exec (.nonceExpire k at_) s = .next ((s.advance at_).setSess k { (s.advance at_).sess k with
        state := 0
        nonceLive := false }))
    ∧ (∀ (k : Nat) (at_ : Dword) (s : State), ((s.advance at_).sess k).state = 4 →
      before (s.advance at_).tb (((s.advance at_).sess k).lastFail + 60000000000) = false →
      exec (.lockoutExpire k at_) s = .next ((s.advance at_).setSess k { (s.advance at_).sess k with state := 0 }))

/-- Where the write is performed, WDT_SERVICE, TRACE_ENABLE, TRACE_FW_REC, TRACE_DUMP_GO, TRACE_DUMP_ACK, LP_REQ_SLEEP, LP_REQ_STANDBY,
LP_REQ_RUN, RST_GRID, RST_CLUSTER, RST_DEVICE, Q_CTL_EN_WRITE, TENANT_QUEUE_RESET, TENANT_CREATE, TENANT_DESTROY, TENANT_FN_WRITE and
NOTICE_ACK_WRITE answer a next state: the effect of the register, then the audit record where the write is audited.
(spec/10_host_link.md, spec/12_tenants_admission_policy.md, spec/17_watchdog_trace_debug.md, spec/19_states_combinations.md, R328,
R375, R519, R530, R537, R581, R589) -/
def Obligations.ControlAndTenantWritesComplete : Prop :=
  (∀ (rq : Req) (val : Word) (s : State), s.writes rq (pgWdt * 0x1000 + 0x58) →
      exec (.wdtService rq val) s = .next (s.logged rq (pgWdt * 0x1000 + 0x58) val ((s.onBus rq).writeSvc rq.iface val)))
    ∧ (∀ (rq : Req) (s : State), s.writes rq (traceCtl) →
      exec (.traceEnable rq) s = .next (s.logged rq (traceCtl) (s.reg traceCtl ||| 1) ((s.onBus rq).writeTraceCtl rq.iface (s.reg traceCtl ||| 1))))
    ∧ (∀ (rq : Req) (val : Word) (s : State), s.writes rq (pgTrace * 0x1000 + 0x8C) →
      exec (.traceFwRec rq val) s = .next (s.logged rq (pgTrace * 0x1000 + 0x8C) val ((s.onBus rq).writeFwRec 0x8C val)))
    ∧ (∀ (rq : Req) (s : State), s.writes rq (pgTrace * 0x1000 + 0x90) →
      exec (.traceDumpGo rq) s = .next (s.logged rq (pgTrace * 0x1000 + 0x90) 1 ((s.onBus rq).writeDump 1)))
    ∧ (∀ (rq : Req) (s : State), s.writes rq (pgTrace * 0x1000 + 0x9C) →
      exec (.traceDumpAck rq) s = .next (s.logged rq (pgTrace * 0x1000 + 0x9C) 1 ((s.onBus rq).writeDumpAck 1)))
    ∧ (∀ (rq : Req) (s : State), s.writes rq (pgPower * 0x1000 + 0xC0) →
      exec (.lpReqSleep rq) s = .next (s.logged rq (pgPower * 0x1000 + 0xC0) (BitVec.ofNat 32 (2 + s.fld pgPower R.power_LP_NAP_EN * 16)) ((s.onBus rq).writeLp rq.iface (BitVec.ofNat 32 (2 + s.fld pgPower R.power_LP_NAP_EN * 16)))))
    ∧ (∀ (rq : Req) (s : State), s.writes rq (pgPower * 0x1000 + 0xC0) →
      exec (.lpReqStandby rq) s = .next (s.logged rq (pgPower * 0x1000 + 0xC0) (BitVec.ofNat 32 (3 + s.fld pgPower R.power_LP_NAP_EN * 16)) ((s.onBus rq).writeLp rq.iface (BitVec.ofNat 32 (3 + s.fld pgPower R.power_LP_NAP_EN * 16)))))
    ∧ (∀ (rq : Req) (s : State), s.writes rq (pgPower * 0x1000 + 0xC0) →
      exec (.lpReqRun rq) s = .next (s.logged rq (pgPower * 0x1000 + 0xC0) (BitVec.ofNat 32 (0 + s.fld pgPower R.power_LP_NAP_EN * 16)) ((s.onBus rq).writeLp rq.iface (BitVec.ofNat 32 (0 + s.fld pgPower R.power_LP_NAP_EN * 16)))))
    ∧ (∀ (rq : Req) (s : State), s.writes rq (pgTop * 0x1000 + 0x54) →
      exec (.rstGrid rq) s = .next (s.logged rq (pgTop * 0x1000 + 0x54) (BitVec.ofNat 32 (0x100 + 0)) ((s.onBus rq).writeRst rq.iface (BitVec.ofNat 32 (0x100 + 0)))))
    ∧ (∀ (rq : Req) (s : State), s.writes rq (pgTop * 0x1000 + 0x54) →
      exec (.rstCluster rq) s = .next (s.logged rq (pgTop * 0x1000 + 0x54) (BitVec.ofNat 32 (0x100 + 1)) ((s.onBus rq).writeRst rq.iface (BitVec.ofNat 32 (0x100 + 1)))))
    ∧ (∀ (rq : Req) (s : State), s.writes rq (pgTop * 0x1000 + 0x54) →
      exec (.rstDevice rq) s = .next (s.logged rq (pgTop * 0x1000 + 0x54) (BitVec.ofNat 32 (0x100 + 2)) ((s.onBus rq).writeRst rq.iface (BitVec.ofNat 32 (0x100 + 2)))))
    ∧ (∀ (rq : Req) (t : Nat) (val : Word) (s : State), s.writes rq (pgTenant (t % 1024) * 0x1000 + 0x50) →
      exec (.qCtlEnWrite rq t val) s = .next (s.logged rq (pgTenant (t % 1024) * 0x1000 + 0x50) val ((s.onBus rq).writeTenant rq.iface (t % 1024) 0x50 0 0 val)))
    ∧ (∀ (rq : Req) (t : Nat) (s : State), s.writes rq (pgTenant (t % 1024) * 0x1000 + 0x50) →
      exec (.tenantQueueReset rq t) s = .next (s.logged rq (pgTenant (t % 1024) * 0x1000 + 0x50) 2 ((s.onBus rq).writeTenant rq.iface (t % 1024) 0x50 0 0 2)))
    ∧ (∀ (rq : Req) (t : Nat) (s : State), s.writes rq (pgTenant (t % 1024) * 0x1000 + 0x4C) →
      exec (.tenantCreate rq t) s = .next (s.logged rq (pgTenant (t % 1024) * 0x1000 + 0x4C) 1 ((s.onBus rq).writeTenant rq.iface (t % 1024) 0x4C 0 0 1)))
    ∧ (∀ (rq : Req) (t : Nat) (s : State), s.writes rq (pgTenant (t % 1024) * 0x1000 + 0x4C) →
      exec (.tenantDestroy rq t) s = .next (s.logged rq (pgTenant (t % 1024) * 0x1000 + 0x4C) 2 ((s.onBus rq).writeTenant rq.iface (t % 1024) 0x4C 0 0 2)))
    ∧ (∀ (rq : Req) (t : Nat) (val : Word) (s : State), s.writes rq (pgTenant (t % 1024) * 0x1000 + 0x90) →
      exec (.tenantFnWrite rq t val) s = .next (s.logged rq (pgTenant (t % 1024) * 0x1000 + 0x90) val ((s.onBus rq).writeTenant rq.iface (t % 1024) 0x90 0 0 val)))
    ∧ (∀ (rq : Req) (t : Nat) (val : Word) (s : State), s.writes rq (pgTenant (t % 1024) * 0x1000 + 0x84) →
      exec (.noticeAckWrite rq t val) s = .next (s.logged rq (pgTenant (t % 1024) * 0x1000 + 0x84) val ((s.onBus rq).writeTenant rq.iface (t % 1024) 0x84 0 0 val)))

/-- Where a row of the mesh, the scratchpad, the sequencer, the matrix or vector engine or STREAM_UNIT_SEND answers a next state, only
the grid, the runs, the free counter and what an error or an event reports into (registers, bus, RAS, control SRAM and caches with the
RAS log, trace, output) may differ: the timebase, modules, presses, stream engines, Tyzil and Ethernet, keys, calibration, flash, power
and accounting, boot state, watchdog, JTAG and the queue are as before. (spec/03_cells_mesh_reduction.md, spec/04_scratchpad.md,
spec/05_matrix_engine_formats.md, spec/06_vector_engine.md, spec/07_sections_contexts.md) -/
def Obligations.GridRowsLeaveTheRest : Prop :=
  let keeps := fun (s t : State) => { t with free := s.free, out := s.out, regs := s.regs, bus := s.bus, ras := s.ras, grid := s.grid, work := s.work, sram := s.sram, cl := s.cl, trace := s.trace };
    (∀ (pos n addr size : Nat) (write : Bool) (data : List Byte) (poison : List Nat) (hits : List Upset), Frame keeps (.spAccessGrant pos n write addr size data poison hits))
    ∧ (∀ (pos src region off size : Nat) (write : Bool) (data : List Byte) (poison : List Nat) (hits : List Upset),
      Frame keeps (.remoteAccessArrive pos src region write off size data poison hits))
    ∧ (∀ (pos n : Nat) (data : List Byte) (poison : List Nat) (err : Bool), Frame keeps (.remoteReadResponse pos n data poison err))
    ∧ (∀ (pos granule : Nat), Frame keeps (.ceWriteback pos granule))
    ∧ (∀ (pos : Nat) (hits : List Upset), Frame keeps (.scrubVisit pos hits))
    ∧ (∀ (pos : Nat), Frame keeps (.scrubLate pos) ∧ Frame keeps (.mcForward pos) ∧ Frame keeps (.vn0AgePromote pos)
      ∧ Frame keeps (.triggerFire pos) ∧ Frame keeps (.nop pos))
    ∧ (∀ (write : Bool) (off size : Nat) (data : TlpData) (hits : List Upset), Frame keeps (.bar4ScratchpadAccess write off size data hits))
    ∧ (∀ (pos port : Nat) (pkt : MeshPacket) (up : LinkUpset), Frame keeps (.meshPacketArrive pos port pkt up))
    ∧ (∀ (pos region tag seq : Nat), Frame keeps (.redMergeAddI32 pos region tag seq) ∧ Frame keeps (.redMergeAddF32 pos region tag seq)
      ∧ Frame keeps (.redMergeMaxF32 pos region tag seq) ∧ Frame keeps (.redMergeLse pos region tag seq))
    ∧ (∀ (pos port vn n : Nat), Frame keeps (.linkCreditReturn pos port vn n))
    ∧ (∀ (pos n ti v : Nat) (poison : Bool), Frame keeps (.tokenArrive pos n ti v poison))
    ∧ (∀ (pos n idx : Nat), Frame keeps (.streamUnitSend pos n idx))
    ∧ (∀ (pos n : Nat) (op : OpFields) (u : EngineUpset), Frame keeps (.mxLoadw pos n op u) ∧ Frame keeps (.mxSwap pos n op u) ∧ Frame keeps (.mxMac pos n op u)
      ∧ Frame keeps (.mxRead pos n op u) ∧ Frame keeps (.vxAdd pos n op u) ∧ Frame keeps (.vxSub pos n op u)
      ∧ Frame keeps (.vxMul pos n op u) ∧ Frame keeps (.vxFma pos n op u) ∧ Frame keeps (.vxMin pos n op u)
      ∧ Frame keeps (.vxMax pos n op u) ∧ Frame keeps (.vxAbs pos n op u) ∧ Frame keeps (.vxNeg pos n op u)
      ∧ Frame keeps (.vxAnd pos n op u) ∧ Frame keeps (.vxOr pos n op u) ∧ Frame keeps (.vxXor pos n op u)
      ∧ Frame keeps (.vxShl pos n op u) ∧ Frame keeps (.vxShra pos n op u) ∧ Frame keeps (.vxShrl pos n op u)
      ∧ Frame keeps (.vxCmpEq pos n op u) ∧ Frame keeps (.vxCmpNe pos n op u)
      ∧ Frame keeps (.vxCmpLt pos n op u) ∧ Frame keeps (.vxCmpLe pos n op u)
      ∧ Frame keeps (.vxSel pos n op u) ∧ Frame keeps (.vxCvt pos n op u) ∧ Frame keeps (.vxExp pos n op u)
      ∧ Frame keeps (.vxRcp pos n op u) ∧ Frame keeps (.vxRsqrt pos n op u) ∧ Frame keeps (.vxTanh pos n op u)
      ∧ Frame keeps (.vxErf pos n op u) ∧ Frame keeps (.vxMov pos n op u) ∧ Frame keeps (.vxBcast pos n op u)
      ∧ Frame keeps (.vxTrn pos n op u) ∧ Frame keeps (.vxLd pos n op u) ∧ Frame keeps (.vxSt pos n op u)
      ∧ Frame keeps (.vxQst pos n op u) ∧ Frame keeps (.vxMkrange pos n op u)
      ∧ Frame keeps (.vxMkand pos n op u) ∧ Frame keeps (.vxMkor pos n op u)
      ∧ Frame keeps (.vxMknot pos n op u) ∧ Frame keeps (.vxRed pos n op u) ∧ Frame keeps (.vxPop pos n op u)
      ∧ Frame keeps (.vxAccrd pos n op u) ∧ Frame keeps (.vxAccrel pos n op u)
      ∧ Frame keeps (.vxS2c pos n op u))

/-- Where CORE_LOAD, CORE_LR, CORE_SC, an eviction, an instruction miss or a row of the bus, a supply or a home timeout answers a next
state, only the cluster, control SRAM, the timebase, the free counter, the output and what errors report into (registers, bus state,
RAS, trace) may differ. CORE_STORE is not among them: it can write any register. (spec/15_control_cluster_coherence.md) -/
def Obligations.ClusterRowsLeaveTheRest : Prop :=
  let keeps := fun (s t : State) => { t with free := s.free, out := s.out, tb := s.tb, regs := s.regs, bus := s.bus, ras := s.ras, sram := s.sram, cl := s.cl, trace := s.trace };
    (∀ (k addr size : Nat) (hits : List Upset) (at_ : Dword), Frame keeps (.coreLoad k addr size hits at_) ∧ Frame keeps (.coreLr k addr size hits at_))
    ∧ (∀ (k addr : Nat) (data : List Byte) (hits : List Upset) (at_ : Dword), Frame keeps (.coreSc k addr data hits at_))
    ∧ (∀ (k line : Nat) (hits : List Upset) (at_ : Dword), Frame keeps (.l1dEvict k line hits at_))
    ∧ (∀ (k addr : Nat) (parity : Bool) (at_ : Dword), Frame keeps (.l1iMiss k addr parity at_))
    ∧ (∀ (hits : List Upset) (at_ : Dword), Frame keeps (.busRd hits at_) ∧ Frame keeps (.busRdx hits at_) ∧ Frame keeps (.busUpgr hits at_)
      ∧ Frame keeps (.busWb hits at_))
    ∧ (∀ (ap : Bool) (line : Nat) (hits : List Upset) (at_ : Dword), Frame keeps (.busRdcur ap line hits at_))
    ∧ (∀ (off : Nat) (data : List Byte) (hits : List Upset) (at_ : Dword), Frame keeps (.busWrinv off data hits at_) ∧ Frame keeps (.busWrmrg off data hits at_))
    ∧ (∀ (at_ : Dword), Frame keeps (.dataSupply at_) ∧ Frame keeps (.homeTimeout at_))

/-- Where a row of sessions, keys, fuses, lifecycle, calibration, attestation or NV storage answers a next state, only Rind,
calibration, flash with its queue, the watchdog, the timebase, the free counter, the output and what records and errors report into
(registers, bus state, RAS, control SRAM and caches, trace) may differ; NV_UPD_GO, which reads its image, also strikes modules and grid,
and changes neither calibration nor watchdog. NONCE_EXPIRE and LOCKOUT_EXPIRE change only the timebase and
Rind. (spec/18_roles_keys_calibration.md, spec/16_boot_images_nv.md) -/
def Obligations.SecurityRowsLeaveTheRest : Prop :=
  let keeps := fun (s t : State) => { t with free := s.free, out := s.out, tb := s.tb, regs := s.regs, bus := s.bus, ras := s.ras, rind := s.rind, cal := s.cal, sram := s.sram, cl := s.cl, nv := s.nv, trace := s.trace, wdt := s.wdt };
    let timer := fun (s t : State) => { t with tb := s.tb, rind := s.rind };
    let update := fun (s t : State) => { t with free := s.free, out := s.out, tb := s.tb, regs := s.regs, bus := s.bus, ras := s.ras, rind := s.rind, grid := s.grid, mods := s.mods, sram := s.sram, cl := s.cl, nv := s.nv, trace := s.trace };
    (∀ (rq : Req) (role key : Nat), Frame keeps (.sessOpen rq role key))
    ∧ (∀ (rq : Req) (val : Word), Frame keeps (.sessResp rq val) ∧ Frame keeps (.mfuseGo rq val) ∧ Frame keeps (.secVerMinWrite rq val)
      ∧ Frame keeps (.attestNonceWrite rq val) ∧ Frame keeps (.nvAcctAck rq val)
      ∧ Frame keeps (.nvAuditAck rq val) ∧ Frame keeps (.stageDataWrite rq val))
    ∧ (∀ (rq : Req), Frame keeps (.sessClose rq) ∧ Frame keeps (.keyClaim rq) ∧ Frame keeps (.calSave rq)
      ∧ Frame keeps (.calClearAll rq))
    ∧ (∀ (k : Nat) (at_ : Dword), Frame keeps (.sessIdleClose k at_))
    ∧ (∀ (rq : Req) (slot : Nat), Frame keeps (.keyWrite rq slot) ∧ Frame keeps (.keyRevoke rq slot))
    ∧ (∀ (ok : Bool), Frame keeps (.keyBurnComplete ok))
    ∧ (Frame keeps .lcBurnComplete)
    ∧ (∀ (rq : Req) (target : Nat), Frame keeps (.lcGo rq target))
    ∧ (∀ (rq : Req) (activate : Bool) (image : List Byte) (how : ReadEnd), Frame update (.nvUpdGo rq activate image how))
    ∧ (∀ (k : Nat) (at_ : Dword), Frame timer (.nonceExpire k at_) ∧ Frame timer (.lockoutExpire k at_))

/-- Where one of these rows answers a next state, only its own unit (modules with calibration and presses for the module rows, with the
grid for BAR4 and CXL accesses; presses and runs for the press rows; the runs for doorbells; the discipline for its rows; the meters
for energy rows), the timebase, the free counter, the output and what errors report into may differ. (spec/02_the_frame.md,
spec/09_modules_and_press.md, spec/10_host_link.md, spec/13_power_energy_tariffs.md) -/
def Obligations.MemoryHostAndMeterRowsLeaveTheRest : Prop :=
  let mem := fun (s t : State) => { t with free := s.free, out := s.out, tb := s.tb, regs := s.regs, bus := s.bus, ras := s.ras, cal := s.cal, grid := s.grid, mods := s.mods, modHeld := s.modHeld, press := s.press, work := s.work, sram := s.sram, cl := s.cl, trace := s.trace, meter := s.meter };
    let host := fun (s t : State) => { t with out := s.out, tb := s.tb, regs := s.regs, bus := s.bus, ras := s.ras, work := s.work, sram := s.sram, cl := s.cl };
    let train := fun (s t : State) => { t with out := s.out, tb := s.tb, regs := s.regs, bus := s.bus, ras := s.ras, sram := s.sram, cl := s.cl, sys := s.sys };
    let disc := fun (s t : State) => { t with out := s.out, tb := s.tb, regs := s.regs, bus := s.bus, ras := s.ras, sram := s.sram, cl := s.cl, disc := s.disc };
    let slew := fun (s t : State) => { t with free := s.free, out := s.out, tb := s.tb, regs := s.regs, bus := s.bus, ras := s.ras, sram := s.sram, cl := s.cl, disc := s.disc };
    let meter := fun (s t : State) => { t with out := s.out, tb := s.tb, regs := s.regs, bus := s.bus, ras := s.ras, work := s.work, sram := s.sram, cl := s.cl, meter := s.meter };
    (∀ (c : Nat) (spd : Spd) (trains : Bool), Frame mem (.channelBringup c spd trains))
    ∧ (∀ (c off : Nat) (again thrice : Bool), Frame mem (.memWcrcError c off again thrice))
    ∧ (∀ (c : Nat) (hits : List (Nat × Upset)), Frame mem (.moduleScrubVisit c hits))
    ∧ (∀ (fn slot off size : Nat) (write : Bool) (data : TlpData) (hits : List (Nat × Upset)), Frame mem (.bar4MemoryAccess fn slot write off size data hits))
    ∧ (∀ (write poison : Bool) (off size : Nat) (data : List Byte) (hits : List (Nat × Upset)), Frame mem (.cxlMemRequest write off size data poison hits))
    ∧ (∀ (c : Nat) (at_ : Dword) (hits : List (Nat × Upset)), Frame mem (.pressBurstStart c at_ hits))
    ∧ (∀ (c q : Nat) (at_ : Dword), Frame mem (.pressTimeout c q at_))
    ∧ (∀ (rate width cxl : Nat) (flit : Bool) (at_ : Dword), Frame train (.hostLinkTrain rate width flit cxl at_))
    ∧ (∀ (vf page size : Nat) (val : Word) (at_ : Dword), Frame host (.dbSqTail vf page size val at_) ∧ Frame host (.dbCqHead vf page size val at_))
    ∧ (∀ (at_ : Dword), Frame disc (.tbSrcLost at_) ∧ Frame disc (.holdoverExpire at_) ∧ Frame slew (.syncEdgeSelect at_))
    ∧ (∀ (k : Nat) (at_ : Dword) (offset : Int), Frame slew (.ptpMessage k at_ offset))
    ∧ (∀ (mw : List Nat) (at_ : Dword), Frame meter (.railSample mw at_))
    ∧ (∀ (sensors : List Int) (at_ : Dword), Frame meter (.emergThrottle sensors at_))

/-- Where one of these rows answers a next state, nothing but the pieces of state named for it may differ: every register (but for the
rows whose registers are named), memory, key, counter and queue is as before. (spec/07_sections_contexts.md,
spec/08_streams_credits.md, spec/09_modules_and_press.md, spec/10_host_link.md, spec/11_tyzil_ethernet.md,
spec/17_watchdog_trace_debug.md) -/
def Obligations.SmallRowsChangeOnlyTheirState : Prop :=
  let ses := fun (s t : State) => { t with ses := s.ses };
    let sys := fun (s t : State) => { t with sys := s.sys };
    let jtag := fun (s t : State) => { t with out := s.out, jtag := s.jtag };
    let nv := fun (s t : State) => { t with nv := s.nv };
    let work := fun (s t : State) => { t with work := s.work };
    let out := fun (s t : State) => { t with out := s.out };
    let tyz := fun (s t : State) => { t with out := s.out, tyz := s.tyz };
    let mods := fun (s t : State) => { t with mods := s.mods };
    let align := fun (s t : State) => { t with out := s.out, tb := s.tb };
    let edge := fun (s t : State) => { t with tb := s.tb, disc := s.disc };
    let press := fun (s t : State) => { t with free := s.free, tb := s.tb, regs := s.regs, mods := s.mods, press := s.press };
    let crd := fun (s t : State) => { t with tb := s.tb, grid := s.grid, work := s.work, ses := s.ses };
    let desc := fun (s t : State) => { t with free := s.free, out := s.out, regs := s.regs, bus := s.bus, ras := s.ras, grid := s.grid, work := s.work, mods := s.mods, sram := s.sram, cl := s.cl, trace := s.trace };
    let fetch := fun (s t : State) => { t with out := s.out, tb := s.tb, regs := s.regs, work := s.work };
    let runs := fun (s t : State) => { t with tb := s.tb, grid := s.grid, work := s.work, meter := s.meter };
    let debug := fun (s t : State) => { t with tb := s.tb, regs := s.regs, cl := s.cl, wdt := s.wdt };
    let rma := fun (s t : State) => { t with tb := s.tb, work := s.work, ses := s.ses, tyz := s.tyz, meter := s.meter };
    let trip := fun (s t : State) => { t with out := s.out, tb := s.tb, regs := s.regs, sys := s.sys };
    let power := fun (s t : State) => { t with out := s.out, sys := s.sys };
    (∀ (k idx : Nat) (answer : HostAnswer), Frame ses (.bisnpResponse k idx answer))
    ∧ (∀ (k : Nat), Frame ses (.migrationResume k))
    ∧ (Frame sys .refclkSysLost)
    ∧ (∀ (commit : Bool), Frame sys (.hdmDecoderCommit commit))
    ∧ (Frame jtag .jtagIdcode ∧ Frame jtag .jtagBypass ∧ Frame jtag .jtagExtest ∧ Frame jtag .jtagClamp
      ∧ Frame jtag .jtagHighz)
    ∧ (∀ (pins preload : List Bool), Frame jtag (.jtagSamplePreload pins preload))
    ∧ (Frame nv .flashOpStart)
    ∧ (∀ (d : Nat) (place : Placement) (image : List Byte), Frame desc (.descLoad d place image))
    ∧ (∀ (d : Nat), Frame work (.descRun d) ∧ Frame work (.descUnload d))
    ∧ (∀ (sid : Nat), Frame work (.heldRelease sid))
    ∧ (∀ (sensor : Nat), Frame out (.pldmSensorRead sensor))
    ∧ (∀ (reach : List (Nat × Bool)), Frame tyz (.tyzMgmt reach))
    ∧ (∀ (n : Nat), Frame tyz (.tc0AgePromote n))
    ∧ (∀ (c granule : Nat), Frame mods (.moduleCeWriteback c granule))
    ∧ (∀ (n : Nat) (at_ : Dword), Frame align (.alignFlitSend n at_))
    ∧ (∀ (at_ : Dword), Frame edge (.frameSyncInEdge at_))
    ∧ (∀ (c q : Nat), Frame press (.pressAttn c q) ∧ Frame press (.pressQueueReset c q))
    ∧ (∀ (c q : Nat) (at_ : Dword), Frame press (.pressCmdComplete c q at_))
    ∧ (∀ (c : Nat) (temp : Int), Frame press (.pressHot c temp))
    ∧ (∀ (pos n idx : Nat), Frame crd (.crdTimerReturn pos n idx))
    ∧ (Frame work .policyAdaptWindow)
    ∧ (∀ (t : Nat), Frame fetch (.sqFetch t))
    ∧ (∀ (t : Nat) (sq host : List Byte) (sqEnd hostEnd : ReadEnd) (at_ : Dword), Frame fetch (.sqFetchComplete t sq host sqEnd hostEnd at_))
    ∧ (∀ (sid : Nat) (at_ : Dword), Frame runs (.runComplete sid at_))
    ∧ (∀ (sid : Nat), Frame runs (.runIdleTimeout sid))
    ∧ (∀ (k : Nat) (at_ : Dword), Frame debug (.debugCoreHalt k at_) ∧ Frame debug (.debugCoreResume k at_))
    ∧ (∀ (tag : Nat) (at_ : Dword), Frame rma (.tyzRmaTimeout tag at_))
    ∧ (Frame rma .tyzWrAck)
    ∧ (∀ (idx : Nat) (raw : Int) (at_ : Dword), Frame trip (.thermtrip idx raw at_))
    ∧ (Frame power .powerUpSequence)

/-- After bytes are stored at an offset of the slice of a position, each byte of that slice at the offset and beyond, as long as the
data, reads the byte stored; every other byte of the slice and every byte of every other slice reads as before. A granted local write
of SP_ACCESS_GRANT is such a store at the offset to which the context's base and bound map its address. (spec/04_scratchpad.md, R106,
R119) -/
def Obligations.ScratchpadStoreWritesItsBytes : Prop :=
  (∀ (pos off p i : Nat) (bs : List Byte) (poison : List Nat) (s : State),
      mapGet 0 ((s.spWrite pos off bs poison).cell p).slice.bytes i
        = if p = pos ∧ off ≤ i ∧ i < off + bs.length then bs.getD (i - off) 0 else mapGet 0 (s.cell p).slice.bytes i)
    ∧ (∀ (pos n addr size off p i : Nat) (data : List Byte) (poison : List Nat) (s t : State),
      (s.ctx pos n).access addr size = .slice off → exec (.spAccessGrant pos n true addr size data poison []) s = .next t →
      ¬ (p = pos ∧ off ≤ i ∧ i < off + size) → mapGet 0 (t.cell p).slice.bytes i = mapGet 0 (s.cell p).slice.bytes i)

/-- Programming bytes at an address leaves each of them the and of what it held and what is programmed, and every other byte as it is;
erasing a sector leaves its bytes 0xFF and every other sector as it is. FLASH_PROGRAM_COMPLETE of a page ends with its bytes so
programmed or, failed, with the flash as it was. (spec/16_boot_images_nv.md, R489, R508, R511) -/
def Obligations.FlashProgramsOnlyClearBits : Prop :=
  (∀ (f : SMap Byte) (a i : Nat) (bs : List Byte), mapGet 0xFF (flashProgram f a bs) i
      = if a ≤ i ∧ i < a + bs.length then mapGet 0xFF f i &&& bs.getD (i - a) 0xFF else mapGet 0xFF f i)
    ∧ (∀ (f : SMap Byte) (sec i : Nat), mapGet 0xFF (flashErase f sec) i = if i / secSize = sec then 0xFF else mapGet 0xFF f i)
    ∧ (∀ (o : FlashOp) (s t : State), (s.nv.cur = some o → o.erase = false → exec (.flashProgramComplete false) s = .next t → t.nv.flash = s.nv.flash)
      ∧ (s.nv.cur = some o → o.erase = false → exec (.flashProgramComplete true) s = .next t →
        t.nv.flash = flashProgram s.nv.flash o.addr (o.bytes.take (256 - o.addr % 256))))

/-- Where a register write, a latch or window read, a register row of the frame engine, power, resets, streams, Tyzil, accounting,
tenants, trace, repair, images or the watchdog, a VF window write, an MSI-X unmask or an Ethernet link change answers a next state,
only the pieces of state named for its group may differ. A plain register write, CORE_STORE, a UART access and PLDM_EFFECTER_WRITE
change no press, peer, meter, JTAG or in-force value; a latch or window read changes no grid, memory, key or flash; the tenant rows no
calibration, link, power, meter, watchdog or accounting state; the queue stays in all. (spec/20_register_reference_system.md,
spec/21_register_reference_data.md, spec/12_tenants_admission_policy.md, spec/17_watchdog_trace_debug.md) -/
def Obligations.RegisterRowsLeaveTheRest : Prop :=
  let bus := fun (s t : State) => { t with free := s.free, out := s.out, tb := s.tb, regs := s.regs, bus := s.bus, ras := s.ras, rind := s.rind, cal := s.cal, calSel := s.calSel, grid := s.grid, work := s.work, mods := s.mods, modHeld := s.modHeld, ses := s.ses, sram := s.sram, cl := s.cl, nv := s.nv, tyz := s.tyz, eth := s.eth, disc := s.disc, sys := s.sys, acct := s.acct, trace := s.trace, wdt := s.wdt };
    let read := fun (s t : State) => { t with out := s.out, tb := s.tb, regs := s.regs, bus := s.bus, ras := s.ras, rind := s.rind, sram := s.sram, cl := s.cl, trace := s.trace };
    let frame := fun (s t : State) => { t with out := s.out, tb := s.tb, regs := s.regs, bus := s.bus, ras := s.ras, rind := s.rind, sram := s.sram, cl := s.cl, nv := s.nv, sys := s.sys, trace := s.trace };
    let step := fun (s t : State) => { t with out := s.out, tb := s.tb, regs := s.regs, bus := s.bus, ras := s.ras, rind := s.rind, sram := s.sram, cl := s.cl, nv := s.nv, trace := s.trace, wdt := s.wdt };
    let power := fun (s t : State) => { t with out := s.out, tb := s.tb, regs := s.regs, bus := s.bus, ras := s.ras, rind := s.rind, grid := s.grid, sram := s.sram, cl := s.cl, nv := s.nv, sys := s.sys, trace := s.trace };
    let links := fun (s t : State) => { t with out := s.out, tb := s.tb, regs := s.regs, bus := s.bus, ras := s.ras, rind := s.rind, work := s.work, ses := s.ses, sram := s.sram, cl := s.cl, nv := s.nv, tyz := s.tyz, acct := s.acct, trace := s.trace };
    let tenant := fun (s t : State) => { t with free := s.free, out := s.out, tb := s.tb, regs := s.regs, bus := s.bus, ras := s.ras, rind := s.rind, grid := s.grid, work := s.work, mods := s.mods, ses := s.ses, sram := s.sram, cl := s.cl, nv := s.nv, trace := s.trace };
    let trace := fun (s t : State) => { t with free := s.free, out := s.out, tb := s.tb, regs := s.regs, bus := s.bus, ras := s.ras, rind := s.rind, grid := s.grid, mods := s.mods, modHeld := s.modHeld, sram := s.sram, cl := s.cl, nv := s.nv, trace := s.trace };
    let stage := fun (s t : State) => { t with out := s.out, tb := s.tb, regs := s.regs, bus := s.bus, ras := s.ras, rind := s.rind, grid := s.grid, work := s.work, ses := s.ses, sram := s.sram, cl := s.cl, nv := s.nv, tyz := s.tyz, sys := s.sys, trace := s.trace };
    let wdt := fun (s t : State) => { t with free := s.free, out := s.out, tb := s.tb, regs := s.regs, bus := s.bus, ras := s.ras, rind := s.rind, cal := s.cal, grid := s.grid, mods := s.mods, modHeld := s.modHeld, sram := s.sram, cl := s.cl, nv := s.nv, trace := s.trace, wdt := s.wdt };
    let small := fun (s t : State) => { t with out := s.out, regs := s.regs, bus := s.bus, ras := s.ras, sram := s.sram, cl := s.cl };
    (∀ (rq : Req) (addr : Nat) (val : Word) (image : List Byte) (how : ReadEnd) (places : List Placement), Frame bus (.regWrite rq addr val image how places))
    ∧ (∀ (rq : Req) (addr : Nat) (val : Word), Frame bus (.writeHighWordCommit rq addr val) ∧ Frame bus (.recordWindowIdxWrite rq addr val) ∧ Frame bus (.tableWindowCommit rq addr val))
    ∧ (∀ (rq : Req) (pg : Nat), Frame bus (.errLogClear rq pg) ∧ Frame bus (.pageCtlReset rq pg) ∧ Frame bus (.pageCtlLock rq pg))
    ∧ (∀ (rq : Req) (addr : Nat), Frame bus (.counterClear rq addr))
    ∧ (∀ (write : Bool) (addr : Nat) (val : Word) (at_ : Dword) (image : List Byte) (how : ReadEnd) (places : List Placement), Frame bus (.uartRegAccess write addr val at_ image how places))
    ∧ (∀ (w : Nat) (at_ : Dword), Frame bus (.pldmEffecterWrite w at_))
    ∧ (∀ (k addr : Nat) (data : List Byte) (hits : List Upset) (image : List Byte) (how : ReadEnd) (places : List Placement) (at_ : Dword), Frame bus (.coreStore k addr data hits image how places at_))
    ∧ (∀ (rq : Req) (addr : Nat), Frame read (.readLowWordLatch rq addr) ∧ Frame read (.recordWindowDataRead rq addr))
    ∧ (∀ (rq : Req) (val : Dword), Frame step (.timebaseWrite rq val) ∧ Frame frame (.epochWrite rq val))
    ∧ (∀ (rq : Req), Frame frame (.frameDisable rq) ∧ Frame frame (.traceDumpAck rq) ∧ Frame frame (.frameEnable rq) ∧ Frame frame (.rstGrid rq) ∧ Frame frame (.rstCluster rq) ∧ Frame frame (.rstDevice rq))
    ∧ (∀ (rq : Req) (val : Word), Frame frame (.repairClear rq val) ∧ Frame frame (.chanRestoredWrite rq val))
    ∧ (∀ (rq : Req), Frame power (.lpReqSleep rq) ∧ Frame power (.lpReqStandby rq) ∧ Frame power (.lpReqRun rq))
    ∧ (∀ (rq : Req) (n : Nat) (val : Word), Frame links (.tyzPortEnable rq n val))
    ∧ (∀ (rq : Req), Frame links (.rtCopy rq))
    ∧ (∀ (rq : Req) (k : Nat) (tail : Word), Frame links (.streamDbWrite rq k tail))
    ∧ (∀ (rq : Req) (val : Dword), Frame links (.wallOfsWrite rq val))
    ∧ (∀ (rq : Req) (t : Nat) (val : Word), Frame tenant (.qCtlEnWrite rq t val) ∧ Frame tenant (.tenantFnWrite rq t val) ∧ Frame tenant (.noticeAckWrite rq t val))
    ∧ (∀ (rq : Req) (t : Nat), Frame tenant (.tenantQueueReset rq t) ∧ Frame tenant (.tenantCreate rq t) ∧ Frame tenant (.tenantDestroy rq t))
    ∧ (∀ (vf k off : Nat) (val : Word) (at_ : Dword), Frame tenant (.vfWindowWrite vf k off val at_))
    ∧ (∀ (rq : Req), Frame trace (.traceEnable rq) ∧ Frame trace (.traceDumpGo rq))
    ∧ (∀ (rq : Req) (val : Word), Frame trace (.traceFwRec rq val) ∧ Frame trace (.repairApplyWrite rq val))
    ∧ (∀ (rq : Req) (places : List Placement), Frame stage (.stageGo rq places))
    ∧ (∀ (rq : Req) (val : Word), Frame wdt (.wdtService rq val))
    ∧ (∀ (fn vec : Nat) (addr : Dword) (data : Word), Frame small (.msixVectorUnmask fn vec addr data))
    ∧ (Frame small .alignRecover)
    ∧ (∀ (k : Nat), Frame small (.ethLinkDown k) ∧ Frame small (.ethLinkUp k))
    ∧ (∀ (n : Nat) (on_ : Bool), Frame small (.sriovVfEnable n on_))

/-- Where a row of runs, sections, streams, stream engines, channels, presses, Tyzil links and packets, Ethernet datagrams, host link
resets, power cuts, repair, the watchdog's first stage, NAP and SLEEP or a page program answers a next state, only the pieces of state
named for its group may differ: runs change no module memory, key, flash, link or power state; stream engine and press rows no key,
calibration, flash or watchdog; Tyzil packets no key, flash, calibration, power, accounting or watchdog state; host link and function
resets no calibration, flash, link or meter; a copy and a retry no run, press or key; a swap or its expiry, with which the tick that waited
goes on, no calibration selection, Ethernet setting, discipline, watchdog or JTAG. (spec/07_sections_contexts.md, spec/08_streams_credits.md, spec/09_modules_and_press.md,
spec/11_tyzil_ethernet.md, spec/10_host_link.md, spec/14_faults_repair_degraded.md) -/
def Obligations.EventRowsLeaveTheRest : Prop :=
  let runs := fun (s t : State) => { t with out := s.out, tb := s.tb, regs := s.regs, bus := s.bus, ras := s.ras, grid := s.grid, work := s.work, ses := s.ses, sram := s.sram, cl := s.cl, meter := s.meter, trace := s.trace };
    let load := fun (s t : State) => { t with regs := s.regs, grid := s.grid, work := s.work, press := s.press, ses := s.ses, tyz := s.tyz };
    let kv := fun (s t : State) => { t with free := s.free, out := s.out, regs := s.regs, bus := s.bus, ras := s.ras, grid := s.grid, work := s.work, mods := s.mods, ses := s.ses, sram := s.sram, cl := s.cl, trace := s.trace };
    let plane := fun (s t : State) => { t with out := s.out, regs := s.regs, bus := s.bus, ras := s.ras, cal := s.cal, grid := s.grid, work := s.work, press := s.press, ses := s.ses, sram := s.sram, cl := s.cl, tyz := s.tyz, sys := s.sys, meter := s.meter, trace := s.trace };
    let flow := fun (s t : State) => { t with free := s.free, out := s.out, regs := s.regs, bus := s.bus, ras := s.ras, grid := s.grid, work := s.work, ses := s.ses, sram := s.sram, cl := s.cl, tyz := s.tyz, peers := s.peers, meter := s.meter, trace := s.trace };
    let engine := fun (s t : State) => { t with free := s.free, out := s.out, regs := s.regs, bus := s.bus, ras := s.ras, grid := s.grid, work := s.work, mods := s.mods, modHeld := s.modHeld, ses := s.ses, sram := s.sram, cl := s.cl, tyz := s.tyz, peers := s.peers, meter := s.meter, trace := s.trace };
    let chan := fun (s t : State) => { t with out := s.out, regs := s.regs, bus := s.bus, ras := s.ras, work := s.work, ses := s.ses, sram := s.sram, cl := s.cl, sys := s.sys, trace := s.trace };
    let press := fun (s t : State) => { t with out := s.out, tb := s.tb, regs := s.regs, bus := s.bus, ras := s.ras, grid := s.grid, work := s.work, press := s.press, ses := s.ses, sram := s.sram, cl := s.cl, meter := s.meter };
    let link := fun (s t : State) => { t with out := s.out, tb := s.tb, regs := s.regs, bus := s.bus, ras := s.ras, cal := s.cal, sram := s.sram, cl := s.cl, nv := s.nv, tyz := s.tyz, trace := s.trace };
    let packet := fun (s t : State) => { t with free := s.free, out := s.out, regs := s.regs, bus := s.bus, ras := s.ras, grid := s.grid, work := s.work, mods := s.mods, modHeld := s.modHeld, ses := s.ses, sram := s.sram, cl := s.cl, tyz := s.tyz, peers := s.peers, meter := s.meter, trace := s.trace };
    let disc := fun (s t : State) => { t with free := s.free, out := s.out, tb := s.tb, regs := s.regs, bus := s.bus, ras := s.ras, sram := s.sram, cl := s.cl, tyz := s.tyz, disc := s.disc };
    let host := fun (s t : State) => { t with free := s.free, out := s.out, tb := s.tb, regs := s.regs, bus := s.bus, ras := s.ras, grid := s.grid, work := s.work, mods := s.mods, ses := s.ses, sram := s.sram, cl := s.cl, sys := s.sys, trace := s.trace };
    let pf0 := fun (s t : State) => { t with out := s.out, tb := s.tb, regs := s.regs, bus := s.bus, ras := s.ras, rind := s.rind, sram := s.sram, cl := s.cl, nv := s.nv, trace := s.trace, wdt := s.wdt };
    let cut := fun (s t : State) => { t with free := s.free, out := s.out, tb := s.tb, regs := s.regs, bus := s.bus, ras := s.ras, work := s.work, sram := s.sram, cl := s.cl, nv := s.nv, sys := s.sys, meter := s.meter, acct := s.acct };
    let repair := fun (s t : State) => { t with out := s.out, tb := s.tb, regs := s.regs, bus := s.bus, ras := s.ras, grid := s.grid, sram := s.sram, cl := s.cl, nv := s.nv, trace := s.trace };
    let swap := fun (s t : State) => { t with free := s.free, out := s.out, tb := s.tb, regs := s.regs, bus := s.bus, ras := s.ras, rind := s.rind, cal := s.cal, eff := s.eff, grid := s.grid, work := s.work, mods := s.mods, modHeld := s.modHeld, press := s.press, ses := s.ses, sram := s.sram, cl := s.cl, nv := s.nv, tyz := s.tyz, peers := s.peers, sys := s.sys, meter := s.meter, acct := s.acct, trace := s.trace };
    let watch := fun (s t : State) => { t with free := s.free, out := s.out, tb := s.tb, regs := s.regs, bus := s.bus, ras := s.ras, grid := s.grid, mods := s.mods, modHeld := s.modHeld, sram := s.sram, cl := s.cl, sys := s.sys, trace := s.trace, wdt := s.wdt };
    let sleep := fun (s t : State) => { t with out := s.out, tb := s.tb, regs := s.regs, bus := s.bus, ras := s.ras, grid := s.grid, work := s.work, mods := s.mods, modHeld := s.modHeld, press := s.press, ses := s.ses, sram := s.sram, cl := s.cl, tyz := s.tyz, sys := s.sys, meter := s.meter, acct := s.acct, trace := s.trace };
    let flash := fun (s t : State) => { t with out := s.out, regs := s.regs, bus := s.bus, ras := s.ras, rind := s.rind, sram := s.sram, cl := s.cl, nv := s.nv, acct := s.acct, trace := s.trace };
    (Frame runs .guardStart)
    ∧ (∀ (sid : Nat), Frame runs (.runStart sid) ∧ Frame runs (.budgetExpire sid) ∧ Frame runs (.drainTimeout sid))
    ∧ (∀ (sid : Nat) (end_ : DrainEnd), Frame runs (.drainComplete sid end_))
    ∧ (∀ (d : Nat) (at_ : Dword), Frame runs (.imageVerifyComplete d at_))
    ∧ (∀ (d : Nat) (how : ReadEnd) (at_ : Dword), Frame runs (.imageReadFail d how at_))
    ∧ (∀ (d : Nat), Frame load (.loadAccept d))
    ∧ (∀ (d : Nat), Frame kv (.kvIdleEvict d))
    ∧ (∀ (pos : Nat), Frame plane (.routerPlaneFault pos))
    ∧ (∀ (pos : Nat) (pkt : MeshPacket), Frame flow (.streamDataArrive pos pkt) ∧ Frame flow (.crdArrive pos pkt))
    ∧ (∀ (k idx : Nat), Frame engine (.seRead k idx) ∧ Frame engine (.seDescComplete k idx))
    ∧ (∀ (k idx : Nat) (hits : List (Nat × Upset)), Frame engine (.seWrite k idx hits) ∧ Frame engine (.seMigrateIn k idx hits))
    ∧ (∀ (k idx : Nat) (strike : List Upset) (hits : List (Nat × Upset)), Frame engine (.seMigrateOut k idx strike hits))
    ∧ (∀ (k idx u : Nat) (data : List Byte) (how : ReadEnd) (hits : List (Nat × Upset)), Frame engine (.moduleReadReturn k idx u data how hits))
    ∧ (∀ (c why : Nat), Frame chan (.channelLost c why))
    ∧ (∀ (c q : Nat) (at_ : Dword), Frame press (.pressCmdIssue c q at_) ∧ Frame press (.pressQcompPoll c q at_))
    ∧ (∀ (c q slot : Nat) (at_ : Dword), Frame press (.pressCmdAccept c q slot at_))
    ∧ (∀ (n peerGen : Nat), Frame link (.tyzTrainComplete n peerGen))
    ∧ (∀ (n : Nat), Frame link (.tyzTrainTimeout n) ∧ Frame link (.tyzAckTimeout n))
    ∧ (∀ (n : Nat) (ok : Bool) (peerGen : Nat), Frame link (.tyzLostRetrain n ok peerGen))
    ∧ (∀ (n lane : Nat), Frame link (.tyzLaneFail n lane))
    ∧ (∀ (n map : Nat), Frame link (.tyzLanemapFlit n map))
    ∧ (∀ (n : Nat) (b : List Byte), Frame link (.tyzDataFlit n b) ∧ Frame link (.tyzIdleFlit n b))
    ∧ (∀ (n : Nat) (b : List Byte) (at_ : Dword), Frame link (.tyzNakFlit n b at_))
    ∧ (Frame packet .tyzPacketRoute ∧ Frame packet .tyzRdRsp ∧ Frame packet .tyzStream ∧ Frame packet .tyzCrd ∧ Frame packet .tyzAddI32 ∧ Frame packet .tyzAddF32 ∧ Frame packet .tyzMaxF32 ∧ Frame packet .tyzLseMerge ∧ Frame packet .tyzCollRes)
    ∧ (∀ (k : Nat) (b : List Byte) (fcsOk : Bool), Frame packet (.ethDgramReceive k b fcsOk))
    ∧ (∀ (d : Nat), Frame packet (.ethRtoExpire d))
    ∧ (∀ (hits : List (Nat × Upset)), Frame packet (.tyzRdReq hits) ∧ Frame packet (.tyzWr hits))
    ∧ (∀ (n : Nat) (at_ : Dword) (f : AlignFlit), Frame disc (.alignFlitReceive n at_ f))
    ∧ (∀ (at_ : Dword), Frame host (.hostLinkDown at_) ∧ Frame host (.hotReset at_) ∧ Frame host (.flrPf1 at_))
    ∧ (∀ (v : Nat) (at_ : Dword), Frame host (.flrVf v at_))
    ∧ (∀ (at_ : Dword), Frame pf0 (.flrPf0 at_))
    ∧ (∀ (at_ : Dword), Frame cut (.pwrfailAssert at_) ∧ Frame cut (.acctBoundaryInSleep at_))
    ∧ (∀ (k : Nat) (raw : Int) (at_ : Dword), Frame cut (.railFault k raw at_))
    ∧ (∀ (q y : Nat) (at_ : Dword), Frame repair (.repairCopy q y at_))
    ∧ (∀ (at_ : Dword), Frame swap (.repairSwap at_) ∧ Frame repair (.repairNvRetry at_))
    ∧ (∀ (at_ : Dword), Frame swap (.swapWaitExpire at_))
    ∧ (∀ (at_ : Dword), Frame watch (.wdtExpire at_))
    ∧ (∀ (count : Nat) (at_ : Dword), Frame watch (.wdtClockExpire count at_))
    ∧ (Frame watch .traceRingWrite)
    ∧ (∀ (k : Nat) (at_ : Dword), Frame watch (.coreHeartbeatMiss k at_))
    ∧ (Frame sleep .napEnter ∧ Frame sleep .sleepEnter)
    ∧ (∀ (ok : Bool), Frame flash (.flashProgramComplete ok))
end

