-- ==== Sys2Proof/Laws/Bus.lean ====
section
/-! SUPPORT. What the shared operations of the rows answer, said once for every row over them: a performed register write, a row whose
clocks run or are stopped, a grant of the cluster bus, an access of a core. -/
namespace Sys2Proof.Machine

/-- A write that is performed leaves its body's effect, and its audit record where the write is audited. -/
theorem State.busWrite_of_writes {s : State} {rq : Req} {addr : Nat} (val : Word) (body : State → State × Nat) (h : s.writes rq addr) :
    s.busWrite rq addr val body = s.logged rq addr val (body (s.onBus rq)) := by
  obtain ⟨-, ha, hw, hf, k, hk, hc⟩ := h
  unfold State.busWrite State.logged
  simp only [State.onBus] at *
  simp only [ha, if_true, hk, hw, hf, Bool.not_true, Bool.false_eq_true, if_false]
  rw [if_neg (by rintro ⟨h1, h2, h3⟩; rcases hc h1 with h | h <;> simp_all)]
  rfl
/-- Any word but an MSI-X table's, written by its page's rule. -/
theorem State.writeReg_of_writes {s : State} {rq : Req} {addr : Nat} (val : Word) (image : List Byte) (how : ReadEnd) (places : List Placement)
    (hx : ¬ (0x28000 ≤ addr ∧ addr < 0x30000)) (h : s.writes rq addr) :
    s.writeReg rq addr val image how places = s.logged rq addr val
      ((s.onBus rq).writeBody rq.iface (addr / 0x1000) (addr % 0x1000) val image how places) := by
  unfold State.writeReg
  rw [h.1]
  simp only [hx, if_false]
  exact State.busWrite_of_writes val _ h

/-- A row of a grid unit acts while the grid runs, and else changes nothing. -/
theorem State.onGrid_of_runs {s : State} (k : Host.Outcome State Fault Refusal) (h : s.gridRuns = true) : s.onGrid k = k := by
  simp [State.onGrid, h]
theorem State.onGrid_of_stopped {s : State} (k : Host.Outcome State Fault Refusal) (h : s.gridRuns = false) : s.onGrid k = .next s := by
  simp [State.onGrid, h, State.passOver]
/-- A row of a clocked unit acts while the clocks run, and else changes nothing. -/
theorem State.onClock_of_runs {s : State} (k : Host.Outcome State Fault Refusal) (h : s.clocked = true) : s.onClock k = k := by
  simp [State.onClock, h]
theorem State.onClock_of_stopped {s : State} (k : Host.Outcome State Fault Refusal) (h : s.clocked = false) : s.onClock k = .next s := by
  simp [State.onClock, h, State.passOver]
/-- The grid runs only while the clocks do. -/
theorem State.clocked_of_gridRuns {s : State} (h : s.gridRuns = true) : s.clocked = true := by
  simp only [State.gridRuns, Bool.and_eq_true] at h; exact h.2

/-- The winner's oldest request, of the row's kind, is granted. -/
theorem State.grantCore_of_winner {s : State} {k : Nat} {r : BusReq} {kind : BusKind} (at_ : Dword) (f : State → BusReq → State)
    (ha : (s.advance at_).flushNotes.busAlive = true) (hw : (s.advance at_).flushNotes.cl.winner false = some k)
    (hr : (s.advance at_).flushNotes.cl.oldest k = some r) (hk : r.kind = kind) :
    s.grantCore kind at_ f = .next (f ((s.advance at_).flushNotes.granted k r) r).flushNotes := by
  simp [State.grantCore, hw, hr, hk, ha]
/-- AP is granted where it wins. -/
theorem State.grantAp_of_winner {s : State} (at_ : Dword) (f : State → State)
    (ha : (s.advance at_).flushNotes.busAlive = true) (hw : (s.advance at_).flushNotes.cl.winner true = some 8) :
    s.grantAp at_ f = .next (f { (s.advance at_).flushNotes with cl := { (s.advance at_).flushNotes.cl with last := 8 } }).flushNotes := by
  simp [State.grantAp, hw, ha]
/-- A core that runs and waits for nothing makes its access. -/
theorem State.coreAccess_of_runs {s : State} {k : Nat} (at_ : Dword) (f : State → State)
    (hr : (s.advance at_).flushNotes.coreRuns k = true) (hw : (s.advance at_).flushNotes.coreWaits k false = false) :
    s.coreAccess k at_ f = .next (f (s.advance at_).flushNotes) := by
  simp [State.coreAccess, hr, hw]

end Sys2Proof.Machine
end

