-- ==== Sys2Proof/Laws/Bytes.lean ====
section
/-! SUPPORT. Laws of little-endian fields and of the CRC-32. -/
namespace Sys2Proof.Machine

/-- A little-endian field reads back its number, within its width. -/
theorem leNat_leBytes (k n : Nat) : leNat (leBytes k n) = n % 256 ^ k := by
  induction k generalizing n with
  | zero => simp [leBytes, leNat, Nat.mod_one]
  | succ k ih =>
    have h : (256 : Nat) ^ (k + 1) = 256 * 256 ^ k := by rw [Nat.pow_succ, Nat.mul_comm]
    rw [leBytes, leNat, ih, h, Nat.mod_mul, BitVec.toNat_ofNat]

/-- A CRC-32 has 32 bits. -/
theorem crc32_lt (bs : List Byte) : crc32 bs < 2 ^ 32 := by
  have step : ∀ (l : List Nat) (x : Nat), x < 2 ^ 32 → l.foldl (fun x _ => if bitOf x 0 then (x / 2) ^^^ 0xEDB88320 else x / 2) x < 2 ^ 32 := by
    intro l; induction l with
    | nil => exact fun x h => h
    | cons _ l ih => exact fun x h => ih _ (by
        show (if bitOf x 0 then (x / 2) ^^^ 0xEDB88320 else x / 2) < 2 ^ 32
        split
        · exact Nat.xor_lt_two_pow (by omega) (by decide)
        · omega)
  have all : ∀ (l : List Byte) (x : Nat), x < 2 ^ 32 → l.foldl crc32Step x < 2 ^ 32 := by
    intro l; induction l with
    | nil => exact fun x h => h
    | cons b l ih => exact fun x h => ih _ (step _ _ (Nat.xor_lt_two_pow h (by have := b.isLt; omega)))
  exact Nat.xor_lt_two_pow (all _ _ (by decide)) (by decide)

end Sys2Proof.Machine
end

