-- ==== Sys2Proof/Laws/Maps.lean ====
section
/-! SUPPORT. What reading, writing and dropping entries of a sparse map do: every memory, register file and table of the block is one. -/
namespace Sys2Proof.Machine

variable {α : Type}

theorem mapGet_mapErase (d : α) (m : SMap α) (a b : Nat) :
    mapGet d (mapErase m a) b = if b = a then d else mapGet d m b := by
  induction m with
  | nil => simp [mapErase, mapGet]
  | cons e r ih =>
    obtain ⟨k, w⟩ := e
    by_cases h : a = k
    · subst h
      by_cases hb : b = a <;> simp_all [mapErase, mapGet]
    · by_cases hb : b = k
      · subst hb; simp [mapErase, mapGet, h, Ne.symm h]
      · simp [mapErase, mapGet, h, hb, ih]

theorem mapGet_mapPut (d : α) (m : SMap α) (a b : Nat) (v : α) :
    mapGet d (mapPut m a v) b = if b = a then v else mapGet d m b := by
  induction m with
  | nil => simp [mapPut, mapGet]
  | cons e r ih =>
    obtain ⟨k, w⟩ := e
    rcases Nat.lt_trichotomy a k with h | h | h
    · simp [mapPut, mapGet, h]
    · subst h
      by_cases hb : b = a <;> simp [mapPut, mapGet, hb]
    · have h1 : ¬ a < k := by omega
      have h2 : ¬ a = k := by omega
      by_cases hb : b = k
      · subst hb; simp [mapPut, mapGet, h1, h2, Ne.symm h2]
      · simp [mapPut, mapGet, h1, h2, hb, ih]

/-- A write reads back at its key and leaves every other key as it was; the unlisted value read elsewhere may be another one. -/
theorem mapGet_mapSet_self [DecidableEq α] (d : α) (m : SMap α) (a : Nat) (v : α) : mapGet d (mapSet d m a v) a = v := by
  unfold mapSet; split
  · simp [mapGet_mapErase, *]
  · simp [mapGet_mapPut]

theorem mapGet_mapSet_of_ne [DecidableEq α] (c d : α) (m : SMap α) (a b : Nat) (v : α) (h : b ≠ a) :
    mapGet c (mapSet d m a v) b = mapGet c m b := by
  unfold mapSet; split
  · simp [mapGet_mapErase, h]
  · simp [mapGet_mapPut, h]

theorem mapGet_mapSet [DecidableEq α] (d : α) (m : SMap α) (a b : Nat) (v : α) :
    mapGet d (mapSet d m a v) b = if b = a then v else mapGet d m b := by
  split
  · subst b; exact mapGet_mapSet_self d m a v
  · exact mapGet_mapSet_of_ne d d m a b v ‹_›

theorem mapGet_mapWrite [DecidableEq α] (d : α) (vs : List α) (m : SMap α) (a b : Nat) :
    mapGet d (mapWrite d m a vs) b = if a ≤ b ∧ b < a + vs.length then vs.getD (b - a) d else mapGet d m b := by
  induction vs generalizing m a with
  | nil => simp [mapWrite]
  | cons v vs ih =>
    rw [mapWrite, ih, mapGet_mapSet]
    by_cases h : b = a
    · subst h; simp
    · by_cases h1 : a + 1 ≤ b ∧ b < a + 1 + vs.length
      · have h2 : a ≤ b ∧ b < a + (v :: vs).length := by simp; omega
        rw [if_pos h1, if_pos h2, show b - a = (b - (a + 1)) + 1 by omega]; simp
      · have h2 : ¬ (a ≤ b ∧ b < a + (v :: vs).length) := by simp; omega
        rw [if_neg h1, if_neg h2, if_neg h]

/-! ### The canonical form is kept -/

theorem mapWfFrom_mono [DecidableEq α] {d : α} {l k : Nat} {m : SMap α} (h : mapWfFrom d (some k) m = true) (hl : l ≤ k) :
    mapWfFrom d (some l) m = true := by
  cases m with
  | nil => rfl
  | cons e r =>
    obtain ⟨j, w⟩ := e
    simp [mapWfFrom] at h ⊢
    exact ⟨⟨by omega, h.1.2⟩, h.2⟩

theorem mapWfFrom_none [DecidableEq α] {d : α} {k : Nat} {m : SMap α} (h : mapWfFrom d (some k) m = true) :
    mapWfFrom d none m = true := by
  cases m with
  | nil => rfl
  | cons e r => obtain ⟨j, w⟩ := e; simp_all [mapWfFrom]

theorem mapWfFrom_mapErase [DecidableEq α] {d : α} {lo : Option Nat} {m : SMap α} (a : Nat) (h : mapWfFrom d lo m = true) :
    mapWfFrom d lo (mapErase m a) = true := by
  induction m generalizing lo with
  | nil => simp [mapErase, mapWfFrom]
  | cons e r ih =>
    obtain ⟨k, w⟩ := e
    by_cases hk : a = k
    · subst hk
      rw [mapErase, if_pos rfl]
      cases lo with
      | none => exact ih (mapWfFrom_none (k := a) (by simp [mapWfFrom] at h; exact h.2))
      | some l =>
        simp [mapWfFrom] at h
        exact ih (mapWfFrom_mono h.2 (by omega))
    · rw [mapErase, if_neg hk]
      cases lo <;> simp [mapWfFrom] at h ⊢ <;> exact ⟨h.1, ih h.2⟩

theorem mapWfFrom_mapPut [DecidableEq α] {d : α} {lo : Option Nat} {m : SMap α} {a : Nat} {v : α} (hv : v ≠ d)
    (ha : ∀ l, lo = some l → l < a) (h : mapWfFrom d lo m = true) : mapWfFrom d lo (mapPut m a v) = true := by
  induction m generalizing lo with
  | nil => cases lo <;> simp_all [mapPut, mapWfFrom]
  | cons e r ih =>
    obtain ⟨k, w⟩ := e
    rcases Nat.lt_trichotomy a k with hk | hk | hk
    · cases lo <;> simp_all [mapPut, mapWfFrom]
    · subst hk; cases lo <;> simp_all [mapPut, mapWfFrom]
    · have h1 : ¬ a < k := by omega
      have h2 : ¬ a = k := by omega
      have h3 : mapWfFrom d (some k) (mapPut r a v) = true :=
        ih (fun l hl => by cases hl; exact hk) (by cases lo <;> simp [mapWfFrom] at h <;> exact h.2)
      rw [mapPut, if_neg h1, if_neg h2]
      cases lo <;> simp [mapWfFrom] at h ⊢ <;> exact ⟨h.1, h3⟩

/-- Every write keeps the canonical form. -/
theorem mapWf_mapSet [DecidableEq α] {d : α} {m : SMap α} (a : Nat) (v : α) (h : mapWf d m = true) : mapWf d (mapSet d m a v) = true := by
  unfold mapSet; split
  · exact mapWfFrom_mapErase a h
  · exact mapWfFrom_mapPut ‹_› (fun _ h => nomatch h) h

theorem mapWf_mapWrite [DecidableEq α] {d : α} (vs : List α) {m : SMap α} (a : Nat) (h : mapWf d m = true) :
    mapWf d (mapWrite d m a vs) = true := by
  induction vs generalizing m a with
  | nil => exact h
  | cons v vs ih => exact ih (a + 1) (mapWf_mapSet a v h)

theorem mapWf_nil [DecidableEq α] (d : α) : mapWf d ([] : SMap α) = true := rfl

end Sys2Proof.Machine
end

