-- ==== Sys2Proof/Laws/State.lean ====
section
/-! SUPPORT. What each primitive update of the state leaves of every other piece of it, and that it reads back. -/
namespace Sys2Proof.Machine
set_option Elab.async false

@[simp] theorem State.setReg_pending (s : State) (addr : Nat) (v : Word) : (s.setReg addr v).pending = s.pending := rfl
@[simp] theorem State.setReg_free (s : State) (addr : Nat) (v : Word) : (s.setReg addr v).free = s.free := rfl
@[simp] theorem State.setReg_out (s : State) (addr : Nat) (v : Word) : (s.setReg addr v).out = s.out := rfl
@[simp] theorem State.setReg_tb (s : State) (addr : Nat) (v : Word) : (s.setReg addr v).tb = s.tb := rfl
@[simp] theorem State.setReg_bus (s : State) (addr : Nat) (v : Word) : (s.setReg addr v).bus = s.bus := rfl
@[simp] theorem State.setReg_ras (s : State) (addr : Nat) (v : Word) : (s.setReg addr v).ras = s.ras := rfl
@[simp] theorem State.setReg_rind (s : State) (addr : Nat) (v : Word) : (s.setReg addr v).rind = s.rind := rfl
@[simp] theorem State.setReg_cal (s : State) (addr : Nat) (v : Word) : (s.setReg addr v).cal = s.cal := rfl
@[simp] theorem State.setReg_calSel (s : State) (addr : Nat) (v : Word) : (s.setReg addr v).calSel = s.calSel := rfl
@[simp] theorem State.setReg_eff (s : State) (addr : Nat) (v : Word) : (s.setReg addr v).eff = s.eff := rfl
@[simp] theorem State.setReg_grid (s : State) (addr : Nat) (v : Word) : (s.setReg addr v).grid = s.grid := rfl
@[simp] theorem State.setReg_work (s : State) (addr : Nat) (v : Word) : (s.setReg addr v).work = s.work := rfl
@[simp] theorem State.setReg_mods (s : State) (addr : Nat) (v : Word) : (s.setReg addr v).mods = s.mods := rfl
@[simp] theorem State.setReg_modHeld (s : State) (addr : Nat) (v : Word) : (s.setReg addr v).modHeld = s.modHeld := rfl
@[simp] theorem State.setReg_press (s : State) (addr : Nat) (v : Word) : (s.setReg addr v).press = s.press := rfl
@[simp] theorem State.setReg_ses (s : State) (addr : Nat) (v : Word) : (s.setReg addr v).ses = s.ses := rfl
@[simp] theorem State.setReg_sram (s : State) (addr : Nat) (v : Word) : (s.setReg addr v).sram = s.sram := rfl
@[simp] theorem State.setReg_cl (s : State) (addr : Nat) (v : Word) : (s.setReg addr v).cl = s.cl := rfl
@[simp] theorem State.setReg_nv (s : State) (addr : Nat) (v : Word) : (s.setReg addr v).nv = s.nv := rfl
@[simp] theorem State.setReg_tyz (s : State) (addr : Nat) (v : Word) : (s.setReg addr v).tyz = s.tyz := rfl
@[simp] theorem State.setReg_eth (s : State) (addr : Nat) (v : Word) : (s.setReg addr v).eth = s.eth := rfl
@[simp] theorem State.setReg_peers (s : State) (addr : Nat) (v : Word) : (s.setReg addr v).peers = s.peers := rfl
@[simp] theorem State.setReg_disc (s : State) (addr : Nat) (v : Word) : (s.setReg addr v).disc = s.disc := rfl
@[simp] theorem State.setReg_sys (s : State) (addr : Nat) (v : Word) : (s.setReg addr v).sys = s.sys := rfl
@[simp] theorem State.setReg_meter (s : State) (addr : Nat) (v : Word) : (s.setReg addr v).meter = s.meter := rfl
@[simp] theorem State.setReg_acct (s : State) (addr : Nat) (v : Word) : (s.setReg addr v).acct = s.acct := rfl
@[simp] theorem State.setReg_trace (s : State) (addr : Nat) (v : Word) : (s.setReg addr v).trace = s.trace := rfl
@[simp] theorem State.setReg_wdt (s : State) (addr : Nat) (v : Word) : (s.setReg addr v).wdt = s.wdt := rfl
@[simp] theorem State.setReg_jtag (s : State) (addr : Nat) (v : Word) : (s.setReg addr v).jtag = s.jtag := rfl

@[simp] theorem State.setFld_pending (s : State) (pg : Nat) (f : Fld) (v : Nat) : (s.setFld pg f v).pending = s.pending := rfl
@[simp] theorem State.setFld_free (s : State) (pg : Nat) (f : Fld) (v : Nat) : (s.setFld pg f v).free = s.free := rfl
@[simp] theorem State.setFld_out (s : State) (pg : Nat) (f : Fld) (v : Nat) : (s.setFld pg f v).out = s.out := rfl
@[simp] theorem State.setFld_tb (s : State) (pg : Nat) (f : Fld) (v : Nat) : (s.setFld pg f v).tb = s.tb := rfl
@[simp] theorem State.setFld_bus (s : State) (pg : Nat) (f : Fld) (v : Nat) : (s.setFld pg f v).bus = s.bus := rfl
@[simp] theorem State.setFld_ras (s : State) (pg : Nat) (f : Fld) (v : Nat) : (s.setFld pg f v).ras = s.ras := rfl
@[simp] theorem State.setFld_rind (s : State) (pg : Nat) (f : Fld) (v : Nat) : (s.setFld pg f v).rind = s.rind := rfl
@[simp] theorem State.setFld_cal (s : State) (pg : Nat) (f : Fld) (v : Nat) : (s.setFld pg f v).cal = s.cal := rfl
@[simp] theorem State.setFld_calSel (s : State) (pg : Nat) (f : Fld) (v : Nat) : (s.setFld pg f v).calSel = s.calSel := rfl
@[simp] theorem State.setFld_eff (s : State) (pg : Nat) (f : Fld) (v : Nat) : (s.setFld pg f v).eff = s.eff := rfl
@[simp] theorem State.setFld_grid (s : State) (pg : Nat) (f : Fld) (v : Nat) : (s.setFld pg f v).grid = s.grid := rfl
@[simp] theorem State.setFld_work (s : State) (pg : Nat) (f : Fld) (v : Nat) : (s.setFld pg f v).work = s.work := rfl
@[simp] theorem State.setFld_mods (s : State) (pg : Nat) (f : Fld) (v : Nat) : (s.setFld pg f v).mods = s.mods := rfl
@[simp] theorem State.setFld_modHeld (s : State) (pg : Nat) (f : Fld) (v : Nat) : (s.setFld pg f v).modHeld = s.modHeld := rfl
@[simp] theorem State.setFld_press (s : State) (pg : Nat) (f : Fld) (v : Nat) : (s.setFld pg f v).press = s.press := rfl
@[simp] theorem State.setFld_ses (s : State) (pg : Nat) (f : Fld) (v : Nat) : (s.setFld pg f v).ses = s.ses := rfl
@[simp] theorem State.setFld_sram (s : State) (pg : Nat) (f : Fld) (v : Nat) : (s.setFld pg f v).sram = s.sram := rfl
@[simp] theorem State.setFld_cl (s : State) (pg : Nat) (f : Fld) (v : Nat) : (s.setFld pg f v).cl = s.cl := rfl
@[simp] theorem State.setFld_nv (s : State) (pg : Nat) (f : Fld) (v : Nat) : (s.setFld pg f v).nv = s.nv := rfl
@[simp] theorem State.setFld_tyz (s : State) (pg : Nat) (f : Fld) (v : Nat) : (s.setFld pg f v).tyz = s.tyz := rfl
@[simp] theorem State.setFld_eth (s : State) (pg : Nat) (f : Fld) (v : Nat) : (s.setFld pg f v).eth = s.eth := rfl
@[simp] theorem State.setFld_peers (s : State) (pg : Nat) (f : Fld) (v : Nat) : (s.setFld pg f v).peers = s.peers := rfl
@[simp] theorem State.setFld_disc (s : State) (pg : Nat) (f : Fld) (v : Nat) : (s.setFld pg f v).disc = s.disc := rfl
@[simp] theorem State.setFld_sys (s : State) (pg : Nat) (f : Fld) (v : Nat) : (s.setFld pg f v).sys = s.sys := rfl
@[simp] theorem State.setFld_meter (s : State) (pg : Nat) (f : Fld) (v : Nat) : (s.setFld pg f v).meter = s.meter := rfl
@[simp] theorem State.setFld_acct (s : State) (pg : Nat) (f : Fld) (v : Nat) : (s.setFld pg f v).acct = s.acct := rfl
@[simp] theorem State.setFld_trace (s : State) (pg : Nat) (f : Fld) (v : Nat) : (s.setFld pg f v).trace = s.trace := rfl
@[simp] theorem State.setFld_wdt (s : State) (pg : Nat) (f : Fld) (v : Nat) : (s.setFld pg f v).wdt = s.wdt := rfl
@[simp] theorem State.setFld_jtag (s : State) (pg : Nat) (f : Fld) (v : Nat) : (s.setFld pg f v).jtag = s.jtag := rfl

@[simp] theorem State.setRegBit_pending (s : State) (addr k : Nat) (b : Bool) : (s.setRegBit addr k b).pending = s.pending := rfl
@[simp] theorem State.setRegBit_free (s : State) (addr k : Nat) (b : Bool) : (s.setRegBit addr k b).free = s.free := rfl
@[simp] theorem State.setRegBit_out (s : State) (addr k : Nat) (b : Bool) : (s.setRegBit addr k b).out = s.out := rfl
@[simp] theorem State.setRegBit_tb (s : State) (addr k : Nat) (b : Bool) : (s.setRegBit addr k b).tb = s.tb := rfl
@[simp] theorem State.setRegBit_bus (s : State) (addr k : Nat) (b : Bool) : (s.setRegBit addr k b).bus = s.bus := rfl
@[simp] theorem State.setRegBit_ras (s : State) (addr k : Nat) (b : Bool) : (s.setRegBit addr k b).ras = s.ras := rfl
@[simp] theorem State.setRegBit_rind (s : State) (addr k : Nat) (b : Bool) : (s.setRegBit addr k b).rind = s.rind := rfl
@[simp] theorem State.setRegBit_cal (s : State) (addr k : Nat) (b : Bool) : (s.setRegBit addr k b).cal = s.cal := rfl
@[simp] theorem State.setRegBit_calSel (s : State) (addr k : Nat) (b : Bool) : (s.setRegBit addr k b).calSel = s.calSel := rfl
@[simp] theorem State.setRegBit_eff (s : State) (addr k : Nat) (b : Bool) : (s.setRegBit addr k b).eff = s.eff := rfl
@[simp] theorem State.setRegBit_grid (s : State) (addr k : Nat) (b : Bool) : (s.setRegBit addr k b).grid = s.grid := rfl
@[simp] theorem State.setRegBit_work (s : State) (addr k : Nat) (b : Bool) : (s.setRegBit addr k b).work = s.work := rfl
@[simp] theorem State.setRegBit_mods (s : State) (addr k : Nat) (b : Bool) : (s.setRegBit addr k b).mods = s.mods := rfl
@[simp] theorem State.setRegBit_modHeld (s : State) (addr k : Nat) (b : Bool) : (s.setRegBit addr k b).modHeld = s.modHeld := rfl
@[simp] theorem State.setRegBit_press (s : State) (addr k : Nat) (b : Bool) : (s.setRegBit addr k b).press = s.press := rfl
@[simp] theorem State.setRegBit_ses (s : State) (addr k : Nat) (b : Bool) : (s.setRegBit addr k b).ses = s.ses := rfl
@[simp] theorem State.setRegBit_sram (s : State) (addr k : Nat) (b : Bool) : (s.setRegBit addr k b).sram = s.sram := rfl
@[simp] theorem State.setRegBit_cl (s : State) (addr k : Nat) (b : Bool) : (s.setRegBit addr k b).cl = s.cl := rfl
@[simp] theorem State.setRegBit_nv (s : State) (addr k : Nat) (b : Bool) : (s.setRegBit addr k b).nv = s.nv := rfl
@[simp] theorem State.setRegBit_tyz (s : State) (addr k : Nat) (b : Bool) : (s.setRegBit addr k b).tyz = s.tyz := rfl
@[simp] theorem State.setRegBit_eth (s : State) (addr k : Nat) (b : Bool) : (s.setRegBit addr k b).eth = s.eth := rfl
@[simp] theorem State.setRegBit_peers (s : State) (addr k : Nat) (b : Bool) : (s.setRegBit addr k b).peers = s.peers := rfl
@[simp] theorem State.setRegBit_disc (s : State) (addr k : Nat) (b : Bool) : (s.setRegBit addr k b).disc = s.disc := rfl
@[simp] theorem State.setRegBit_sys (s : State) (addr k : Nat) (b : Bool) : (s.setRegBit addr k b).sys = s.sys := rfl
@[simp] theorem State.setRegBit_meter (s : State) (addr k : Nat) (b : Bool) : (s.setRegBit addr k b).meter = s.meter := rfl
@[simp] theorem State.setRegBit_acct (s : State) (addr k : Nat) (b : Bool) : (s.setRegBit addr k b).acct = s.acct := rfl
@[simp] theorem State.setRegBit_trace (s : State) (addr k : Nat) (b : Bool) : (s.setRegBit addr k b).trace = s.trace := rfl
@[simp] theorem State.setRegBit_wdt (s : State) (addr k : Nat) (b : Bool) : (s.setRegBit addr k b).wdt = s.wdt := rfl
@[simp] theorem State.setRegBit_jtag (s : State) (addr k : Nat) (b : Bool) : (s.setRegBit addr k b).jtag = s.jtag := rfl

@[simp] theorem State.emit_pending (s : State) (e : Emit) : (s.emit e).pending = s.pending := rfl
@[simp] theorem State.emit_free (s : State) (e : Emit) : (s.emit e).free = s.free := rfl
@[simp] theorem State.emit_tb (s : State) (e : Emit) : (s.emit e).tb = s.tb := rfl
@[simp] theorem State.emit_regs (s : State) (e : Emit) : (s.emit e).regs = s.regs := rfl
@[simp] theorem State.emit_bus (s : State) (e : Emit) : (s.emit e).bus = s.bus := rfl
@[simp] theorem State.emit_ras (s : State) (e : Emit) : (s.emit e).ras = s.ras := rfl
@[simp] theorem State.emit_rind (s : State) (e : Emit) : (s.emit e).rind = s.rind := rfl
@[simp] theorem State.emit_cal (s : State) (e : Emit) : (s.emit e).cal = s.cal := rfl
@[simp] theorem State.emit_calSel (s : State) (e : Emit) : (s.emit e).calSel = s.calSel := rfl
@[simp] theorem State.emit_eff (s : State) (e : Emit) : (s.emit e).eff = s.eff := rfl
@[simp] theorem State.emit_grid (s : State) (e : Emit) : (s.emit e).grid = s.grid := rfl
@[simp] theorem State.emit_work (s : State) (e : Emit) : (s.emit e).work = s.work := rfl
@[simp] theorem State.emit_mods (s : State) (e : Emit) : (s.emit e).mods = s.mods := rfl
@[simp] theorem State.emit_modHeld (s : State) (e : Emit) : (s.emit e).modHeld = s.modHeld := rfl
@[simp] theorem State.emit_press (s : State) (e : Emit) : (s.emit e).press = s.press := rfl
@[simp] theorem State.emit_ses (s : State) (e : Emit) : (s.emit e).ses = s.ses := rfl
@[simp] theorem State.emit_sram (s : State) (e : Emit) : (s.emit e).sram = s.sram := rfl
@[simp] theorem State.emit_cl (s : State) (e : Emit) : (s.emit e).cl = s.cl := rfl
@[simp] theorem State.emit_nv (s : State) (e : Emit) : (s.emit e).nv = s.nv := rfl
@[simp] theorem State.emit_tyz (s : State) (e : Emit) : (s.emit e).tyz = s.tyz := rfl
@[simp] theorem State.emit_eth (s : State) (e : Emit) : (s.emit e).eth = s.eth := rfl
@[simp] theorem State.emit_peers (s : State) (e : Emit) : (s.emit e).peers = s.peers := rfl
@[simp] theorem State.emit_disc (s : State) (e : Emit) : (s.emit e).disc = s.disc := rfl
@[simp] theorem State.emit_sys (s : State) (e : Emit) : (s.emit e).sys = s.sys := rfl
@[simp] theorem State.emit_meter (s : State) (e : Emit) : (s.emit e).meter = s.meter := rfl
@[simp] theorem State.emit_acct (s : State) (e : Emit) : (s.emit e).acct = s.acct := rfl
@[simp] theorem State.emit_trace (s : State) (e : Emit) : (s.emit e).trace = s.trace := rfl
@[simp] theorem State.emit_wdt (s : State) (e : Emit) : (s.emit e).wdt = s.wdt := rfl
@[simp] theorem State.emit_jtag (s : State) (e : Emit) : (s.emit e).jtag = s.jtag := rfl

@[simp] theorem State.setCell_pending (s : State) (pos : Nat) (c : Cell) : (s.setCell pos c).pending = s.pending := rfl
@[simp] theorem State.setCell_free (s : State) (pos : Nat) (c : Cell) : (s.setCell pos c).free = s.free := rfl
@[simp] theorem State.setCell_out (s : State) (pos : Nat) (c : Cell) : (s.setCell pos c).out = s.out := rfl
@[simp] theorem State.setCell_tb (s : State) (pos : Nat) (c : Cell) : (s.setCell pos c).tb = s.tb := rfl
@[simp] theorem State.setCell_regs (s : State) (pos : Nat) (c : Cell) : (s.setCell pos c).regs = s.regs := rfl
@[simp] theorem State.setCell_bus (s : State) (pos : Nat) (c : Cell) : (s.setCell pos c).bus = s.bus := rfl
@[simp] theorem State.setCell_ras (s : State) (pos : Nat) (c : Cell) : (s.setCell pos c).ras = s.ras := rfl
@[simp] theorem State.setCell_rind (s : State) (pos : Nat) (c : Cell) : (s.setCell pos c).rind = s.rind := rfl
@[simp] theorem State.setCell_cal (s : State) (pos : Nat) (c : Cell) : (s.setCell pos c).cal = s.cal := rfl
@[simp] theorem State.setCell_calSel (s : State) (pos : Nat) (c : Cell) : (s.setCell pos c).calSel = s.calSel := rfl
@[simp] theorem State.setCell_eff (s : State) (pos : Nat) (c : Cell) : (s.setCell pos c).eff = s.eff := rfl
@[simp] theorem State.setCell_work (s : State) (pos : Nat) (c : Cell) : (s.setCell pos c).work = s.work := rfl
@[simp] theorem State.setCell_mods (s : State) (pos : Nat) (c : Cell) : (s.setCell pos c).mods = s.mods := rfl
@[simp] theorem State.setCell_modHeld (s : State) (pos : Nat) (c : Cell) : (s.setCell pos c).modHeld = s.modHeld := rfl
@[simp] theorem State.setCell_press (s : State) (pos : Nat) (c : Cell) : (s.setCell pos c).press = s.press := rfl
@[simp] theorem State.setCell_ses (s : State) (pos : Nat) (c : Cell) : (s.setCell pos c).ses = s.ses := rfl
@[simp] theorem State.setCell_sram (s : State) (pos : Nat) (c : Cell) : (s.setCell pos c).sram = s.sram := rfl
@[simp] theorem State.setCell_cl (s : State) (pos : Nat) (c : Cell) : (s.setCell pos c).cl = s.cl := rfl
@[simp] theorem State.setCell_nv (s : State) (pos : Nat) (c : Cell) : (s.setCell pos c).nv = s.nv := rfl
@[simp] theorem State.setCell_tyz (s : State) (pos : Nat) (c : Cell) : (s.setCell pos c).tyz = s.tyz := rfl
@[simp] theorem State.setCell_eth (s : State) (pos : Nat) (c : Cell) : (s.setCell pos c).eth = s.eth := rfl
@[simp] theorem State.setCell_peers (s : State) (pos : Nat) (c : Cell) : (s.setCell pos c).peers = s.peers := rfl
@[simp] theorem State.setCell_disc (s : State) (pos : Nat) (c : Cell) : (s.setCell pos c).disc = s.disc := rfl
@[simp] theorem State.setCell_sys (s : State) (pos : Nat) (c : Cell) : (s.setCell pos c).sys = s.sys := rfl
@[simp] theorem State.setCell_meter (s : State) (pos : Nat) (c : Cell) : (s.setCell pos c).meter = s.meter := rfl
@[simp] theorem State.setCell_acct (s : State) (pos : Nat) (c : Cell) : (s.setCell pos c).acct = s.acct := rfl
@[simp] theorem State.setCell_trace (s : State) (pos : Nat) (c : Cell) : (s.setCell pos c).trace = s.trace := rfl
@[simp] theorem State.setCell_wdt (s : State) (pos : Nat) (c : Cell) : (s.setCell pos c).wdt = s.wdt := rfl
@[simp] theorem State.setCell_jtag (s : State) (pos : Nat) (c : Cell) : (s.setCell pos c).jtag = s.jtag := rfl

@[simp] theorem State.setRouter_pending (s : State) (pos : Nat) (r : Router) : (s.setRouter pos r).pending = s.pending := rfl
@[simp] theorem State.setRouter_free (s : State) (pos : Nat) (r : Router) : (s.setRouter pos r).free = s.free := rfl
@[simp] theorem State.setRouter_out (s : State) (pos : Nat) (r : Router) : (s.setRouter pos r).out = s.out := rfl
@[simp] theorem State.setRouter_tb (s : State) (pos : Nat) (r : Router) : (s.setRouter pos r).tb = s.tb := rfl
@[simp] theorem State.setRouter_regs (s : State) (pos : Nat) (r : Router) : (s.setRouter pos r).regs = s.regs := rfl
@[simp] theorem State.setRouter_bus (s : State) (pos : Nat) (r : Router) : (s.setRouter pos r).bus = s.bus := rfl
@[simp] theorem State.setRouter_ras (s : State) (pos : Nat) (r : Router) : (s.setRouter pos r).ras = s.ras := rfl
@[simp] theorem State.setRouter_rind (s : State) (pos : Nat) (r : Router) : (s.setRouter pos r).rind = s.rind := rfl
@[simp] theorem State.setRouter_cal (s : State) (pos : Nat) (r : Router) : (s.setRouter pos r).cal = s.cal := rfl
@[simp] theorem State.setRouter_calSel (s : State) (pos : Nat) (r : Router) : (s.setRouter pos r).calSel = s.calSel := rfl
@[simp] theorem State.setRouter_eff (s : State) (pos : Nat) (r : Router) : (s.setRouter pos r).eff = s.eff := rfl
@[simp] theorem State.setRouter_work (s : State) (pos : Nat) (r : Router) : (s.setRouter pos r).work = s.work := rfl
@[simp] theorem State.setRouter_mods (s : State) (pos : Nat) (r : Router) : (s.setRouter pos r).mods = s.mods := rfl
@[simp] theorem State.setRouter_modHeld (s : State) (pos : Nat) (r : Router) : (s.setRouter pos r).modHeld = s.modHeld := rfl
@[simp] theorem State.setRouter_press (s : State) (pos : Nat) (r : Router) : (s.setRouter pos r).press = s.press := rfl
@[simp] theorem State.setRouter_ses (s : State) (pos : Nat) (r : Router) : (s.setRouter pos r).ses = s.ses := rfl
@[simp] theorem State.setRouter_sram (s : State) (pos : Nat) (r : Router) : (s.setRouter pos r).sram = s.sram := rfl
@[simp] theorem State.setRouter_cl (s : State) (pos : Nat) (r : Router) : (s.setRouter pos r).cl = s.cl := rfl
@[simp] theorem State.setRouter_nv (s : State) (pos : Nat) (r : Router) : (s.setRouter pos r).nv = s.nv := rfl
@[simp] theorem State.setRouter_tyz (s : State) (pos : Nat) (r : Router) : (s.setRouter pos r).tyz = s.tyz := rfl
@[simp] theorem State.setRouter_eth (s : State) (pos : Nat) (r : Router) : (s.setRouter pos r).eth = s.eth := rfl
@[simp] theorem State.setRouter_peers (s : State) (pos : Nat) (r : Router) : (s.setRouter pos r).peers = s.peers := rfl
@[simp] theorem State.setRouter_disc (s : State) (pos : Nat) (r : Router) : (s.setRouter pos r).disc = s.disc := rfl
@[simp] theorem State.setRouter_sys (s : State) (pos : Nat) (r : Router) : (s.setRouter pos r).sys = s.sys := rfl
@[simp] theorem State.setRouter_meter (s : State) (pos : Nat) (r : Router) : (s.setRouter pos r).meter = s.meter := rfl
@[simp] theorem State.setRouter_acct (s : State) (pos : Nat) (r : Router) : (s.setRouter pos r).acct = s.acct := rfl
@[simp] theorem State.setRouter_trace (s : State) (pos : Nat) (r : Router) : (s.setRouter pos r).trace = s.trace := rfl
@[simp] theorem State.setRouter_wdt (s : State) (pos : Nat) (r : Router) : (s.setRouter pos r).wdt = s.wdt := rfl
@[simp] theorem State.setRouter_jtag (s : State) (pos : Nat) (r : Router) : (s.setRouter pos r).jtag = s.jtag := rfl

@[simp] theorem State.setCtx_pending (s : State) (pos n : Nat) (x : Ctx) : (s.setCtx pos n x).pending = s.pending := rfl
@[simp] theorem State.setCtx_free (s : State) (pos n : Nat) (x : Ctx) : (s.setCtx pos n x).free = s.free := rfl
@[simp] theorem State.setCtx_out (s : State) (pos n : Nat) (x : Ctx) : (s.setCtx pos n x).out = s.out := rfl
@[simp] theorem State.setCtx_tb (s : State) (pos n : Nat) (x : Ctx) : (s.setCtx pos n x).tb = s.tb := rfl
@[simp] theorem State.setCtx_regs (s : State) (pos n : Nat) (x : Ctx) : (s.setCtx pos n x).regs = s.regs := rfl
@[simp] theorem State.setCtx_bus (s : State) (pos n : Nat) (x : Ctx) : (s.setCtx pos n x).bus = s.bus := rfl
@[simp] theorem State.setCtx_ras (s : State) (pos n : Nat) (x : Ctx) : (s.setCtx pos n x).ras = s.ras := rfl
@[simp] theorem State.setCtx_rind (s : State) (pos n : Nat) (x : Ctx) : (s.setCtx pos n x).rind = s.rind := rfl
@[simp] theorem State.setCtx_cal (s : State) (pos n : Nat) (x : Ctx) : (s.setCtx pos n x).cal = s.cal := rfl
@[simp] theorem State.setCtx_calSel (s : State) (pos n : Nat) (x : Ctx) : (s.setCtx pos n x).calSel = s.calSel := rfl
@[simp] theorem State.setCtx_eff (s : State) (pos n : Nat) (x : Ctx) : (s.setCtx pos n x).eff = s.eff := rfl
@[simp] theorem State.setCtx_work (s : State) (pos n : Nat) (x : Ctx) : (s.setCtx pos n x).work = s.work := rfl
@[simp] theorem State.setCtx_mods (s : State) (pos n : Nat) (x : Ctx) : (s.setCtx pos n x).mods = s.mods := rfl
@[simp] theorem State.setCtx_modHeld (s : State) (pos n : Nat) (x : Ctx) : (s.setCtx pos n x).modHeld = s.modHeld := rfl
@[simp] theorem State.setCtx_press (s : State) (pos n : Nat) (x : Ctx) : (s.setCtx pos n x).press = s.press := rfl
@[simp] theorem State.setCtx_ses (s : State) (pos n : Nat) (x : Ctx) : (s.setCtx pos n x).ses = s.ses := rfl
@[simp] theorem State.setCtx_sram (s : State) (pos n : Nat) (x : Ctx) : (s.setCtx pos n x).sram = s.sram := rfl
@[simp] theorem State.setCtx_cl (s : State) (pos n : Nat) (x : Ctx) : (s.setCtx pos n x).cl = s.cl := rfl
@[simp] theorem State.setCtx_nv (s : State) (pos n : Nat) (x : Ctx) : (s.setCtx pos n x).nv = s.nv := rfl
@[simp] theorem State.setCtx_tyz (s : State) (pos n : Nat) (x : Ctx) : (s.setCtx pos n x).tyz = s.tyz := rfl
@[simp] theorem State.setCtx_eth (s : State) (pos n : Nat) (x : Ctx) : (s.setCtx pos n x).eth = s.eth := rfl
@[simp] theorem State.setCtx_peers (s : State) (pos n : Nat) (x : Ctx) : (s.setCtx pos n x).peers = s.peers := rfl
@[simp] theorem State.setCtx_disc (s : State) (pos n : Nat) (x : Ctx) : (s.setCtx pos n x).disc = s.disc := rfl
@[simp] theorem State.setCtx_sys (s : State) (pos n : Nat) (x : Ctx) : (s.setCtx pos n x).sys = s.sys := rfl
@[simp] theorem State.setCtx_meter (s : State) (pos n : Nat) (x : Ctx) : (s.setCtx pos n x).meter = s.meter := rfl
@[simp] theorem State.setCtx_acct (s : State) (pos n : Nat) (x : Ctx) : (s.setCtx pos n x).acct = s.acct := rfl
@[simp] theorem State.setCtx_trace (s : State) (pos n : Nat) (x : Ctx) : (s.setCtx pos n x).trace = s.trace := rfl
@[simp] theorem State.setCtx_wdt (s : State) (pos n : Nat) (x : Ctx) : (s.setCtx pos n x).wdt = s.wdt := rfl
@[simp] theorem State.setCtx_jtag (s : State) (pos n : Nat) (x : Ctx) : (s.setCtx pos n x).jtag = s.jtag := rfl

@[simp] theorem State.setModule_pending (s : State) (c : Nat) (m : Module) : (s.setModule c m).pending = s.pending := rfl
@[simp] theorem State.setModule_free (s : State) (c : Nat) (m : Module) : (s.setModule c m).free = s.free := rfl
@[simp] theorem State.setModule_out (s : State) (c : Nat) (m : Module) : (s.setModule c m).out = s.out := rfl
@[simp] theorem State.setModule_tb (s : State) (c : Nat) (m : Module) : (s.setModule c m).tb = s.tb := rfl
@[simp] theorem State.setModule_regs (s : State) (c : Nat) (m : Module) : (s.setModule c m).regs = s.regs := rfl
@[simp] theorem State.setModule_bus (s : State) (c : Nat) (m : Module) : (s.setModule c m).bus = s.bus := rfl
@[simp] theorem State.setModule_ras (s : State) (c : Nat) (m : Module) : (s.setModule c m).ras = s.ras := rfl
@[simp] theorem State.setModule_rind (s : State) (c : Nat) (m : Module) : (s.setModule c m).rind = s.rind := rfl
@[simp] theorem State.setModule_cal (s : State) (c : Nat) (m : Module) : (s.setModule c m).cal = s.cal := rfl
@[simp] theorem State.setModule_modHeld (s : State) (c : Nat) (m : Module) : (s.setModule c m).modHeld = s.modHeld := rfl
@[simp] theorem State.setModule_calSel (s : State) (c : Nat) (m : Module) : (s.setModule c m).calSel = s.calSel := rfl
@[simp] theorem State.setModule_eff (s : State) (c : Nat) (m : Module) : (s.setModule c m).eff = s.eff := rfl
@[simp] theorem State.setModule_grid (s : State) (c : Nat) (m : Module) : (s.setModule c m).grid = s.grid := rfl
@[simp] theorem State.setModule_work (s : State) (c : Nat) (m : Module) : (s.setModule c m).work = s.work := rfl
@[simp] theorem State.setModule_press (s : State) (c : Nat) (m : Module) : (s.setModule c m).press = s.press := rfl
@[simp] theorem State.setModule_ses (s : State) (c : Nat) (m : Module) : (s.setModule c m).ses = s.ses := rfl
@[simp] theorem State.setModule_sram (s : State) (c : Nat) (m : Module) : (s.setModule c m).sram = s.sram := rfl
@[simp] theorem State.setModule_cl (s : State) (c : Nat) (m : Module) : (s.setModule c m).cl = s.cl := rfl
@[simp] theorem State.setModule_nv (s : State) (c : Nat) (m : Module) : (s.setModule c m).nv = s.nv := rfl
@[simp] theorem State.setModule_tyz (s : State) (c : Nat) (m : Module) : (s.setModule c m).tyz = s.tyz := rfl
@[simp] theorem State.setModule_eth (s : State) (c : Nat) (m : Module) : (s.setModule c m).eth = s.eth := rfl
@[simp] theorem State.setModule_peers (s : State) (c : Nat) (m : Module) : (s.setModule c m).peers = s.peers := rfl
@[simp] theorem State.setModule_disc (s : State) (c : Nat) (m : Module) : (s.setModule c m).disc = s.disc := rfl
@[simp] theorem State.setModule_sys (s : State) (c : Nat) (m : Module) : (s.setModule c m).sys = s.sys := rfl
@[simp] theorem State.setModule_meter (s : State) (c : Nat) (m : Module) : (s.setModule c m).meter = s.meter := rfl
@[simp] theorem State.setModule_acct (s : State) (c : Nat) (m : Module) : (s.setModule c m).acct = s.acct := rfl
@[simp] theorem State.setModule_trace (s : State) (c : Nat) (m : Module) : (s.setModule c m).trace = s.trace := rfl
@[simp] theorem State.setModule_wdt (s : State) (c : Nat) (m : Module) : (s.setModule c m).wdt = s.wdt := rfl
@[simp] theorem State.setModule_jtag (s : State) (c : Nat) (m : Module) : (s.setModule c m).jtag = s.jtag := rfl

@[simp] theorem State.setPress_pending (s : State) (c : Nat) (p : Press) : (s.setPress c p).pending = s.pending := rfl
@[simp] theorem State.setPress_free (s : State) (c : Nat) (p : Press) : (s.setPress c p).free = s.free := rfl
@[simp] theorem State.setPress_out (s : State) (c : Nat) (p : Press) : (s.setPress c p).out = s.out := rfl
@[simp] theorem State.setPress_tb (s : State) (c : Nat) (p : Press) : (s.setPress c p).tb = s.tb := rfl
@[simp] theorem State.setPress_regs (s : State) (c : Nat) (p : Press) : (s.setPress c p).regs = s.regs := rfl
@[simp] theorem State.setPress_bus (s : State) (c : Nat) (p : Press) : (s.setPress c p).bus = s.bus := rfl
@[simp] theorem State.setPress_ras (s : State) (c : Nat) (p : Press) : (s.setPress c p).ras = s.ras := rfl
@[simp] theorem State.setPress_rind (s : State) (c : Nat) (p : Press) : (s.setPress c p).rind = s.rind := rfl
@[simp] theorem State.setPress_cal (s : State) (c : Nat) (p : Press) : (s.setPress c p).cal = s.cal := rfl
@[simp] theorem State.setPress_calSel (s : State) (c : Nat) (p : Press) : (s.setPress c p).calSel = s.calSel := rfl
@[simp] theorem State.setPress_eff (s : State) (c : Nat) (p : Press) : (s.setPress c p).eff = s.eff := rfl
@[simp] theorem State.setPress_grid (s : State) (c : Nat) (p : Press) : (s.setPress c p).grid = s.grid := rfl
@[simp] theorem State.setPress_work (s : State) (c : Nat) (p : Press) : (s.setPress c p).work = s.work := rfl
@[simp] theorem State.setPress_mods (s : State) (c : Nat) (p : Press) : (s.setPress c p).mods = s.mods := rfl
@[simp] theorem State.setPress_modHeld (s : State) (c : Nat) (p : Press) : (s.setPress c p).modHeld = s.modHeld := rfl
@[simp] theorem State.setPress_ses (s : State) (c : Nat) (p : Press) : (s.setPress c p).ses = s.ses := rfl
@[simp] theorem State.setPress_sram (s : State) (c : Nat) (p : Press) : (s.setPress c p).sram = s.sram := rfl
@[simp] theorem State.setPress_cl (s : State) (c : Nat) (p : Press) : (s.setPress c p).cl = s.cl := rfl
@[simp] theorem State.setPress_nv (s : State) (c : Nat) (p : Press) : (s.setPress c p).nv = s.nv := rfl
@[simp] theorem State.setPress_tyz (s : State) (c : Nat) (p : Press) : (s.setPress c p).tyz = s.tyz := rfl
@[simp] theorem State.setPress_eth (s : State) (c : Nat) (p : Press) : (s.setPress c p).eth = s.eth := rfl
@[simp] theorem State.setPress_peers (s : State) (c : Nat) (p : Press) : (s.setPress c p).peers = s.peers := rfl
@[simp] theorem State.setPress_disc (s : State) (c : Nat) (p : Press) : (s.setPress c p).disc = s.disc := rfl
@[simp] theorem State.setPress_sys (s : State) (c : Nat) (p : Press) : (s.setPress c p).sys = s.sys := rfl
@[simp] theorem State.setPress_meter (s : State) (c : Nat) (p : Press) : (s.setPress c p).meter = s.meter := rfl
@[simp] theorem State.setPress_acct (s : State) (c : Nat) (p : Press) : (s.setPress c p).acct = s.acct := rfl
@[simp] theorem State.setPress_trace (s : State) (c : Nat) (p : Press) : (s.setPress c p).trace = s.trace := rfl
@[simp] theorem State.setPress_wdt (s : State) (c : Nat) (p : Press) : (s.setPress c p).wdt = s.wdt := rfl
@[simp] theorem State.setPress_jtag (s : State) (c : Nat) (p : Press) : (s.setPress c p).jtag = s.jtag := rfl

@[simp] theorem State.setEngine_pending (s : State) (k : Nat) (e : SEngine) : (s.setEngine k e).pending = s.pending := rfl
@[simp] theorem State.setEngine_free (s : State) (k : Nat) (e : SEngine) : (s.setEngine k e).free = s.free := rfl
@[simp] theorem State.setEngine_out (s : State) (k : Nat) (e : SEngine) : (s.setEngine k e).out = s.out := rfl
@[simp] theorem State.setEngine_tb (s : State) (k : Nat) (e : SEngine) : (s.setEngine k e).tb = s.tb := rfl
@[simp] theorem State.setEngine_regs (s : State) (k : Nat) (e : SEngine) : (s.setEngine k e).regs = s.regs := rfl
@[simp] theorem State.setEngine_bus (s : State) (k : Nat) (e : SEngine) : (s.setEngine k e).bus = s.bus := rfl
@[simp] theorem State.setEngine_ras (s : State) (k : Nat) (e : SEngine) : (s.setEngine k e).ras = s.ras := rfl
@[simp] theorem State.setEngine_rind (s : State) (k : Nat) (e : SEngine) : (s.setEngine k e).rind = s.rind := rfl
@[simp] theorem State.setEngine_cal (s : State) (k : Nat) (e : SEngine) : (s.setEngine k e).cal = s.cal := rfl
@[simp] theorem State.setEngine_calSel (s : State) (k : Nat) (e : SEngine) : (s.setEngine k e).calSel = s.calSel := rfl
@[simp] theorem State.setEngine_eff (s : State) (k : Nat) (e : SEngine) : (s.setEngine k e).eff = s.eff := rfl
@[simp] theorem State.setEngine_grid (s : State) (k : Nat) (e : SEngine) : (s.setEngine k e).grid = s.grid := rfl
@[simp] theorem State.setEngine_work (s : State) (k : Nat) (e : SEngine) : (s.setEngine k e).work = s.work := rfl
@[simp] theorem State.setEngine_mods (s : State) (k : Nat) (e : SEngine) : (s.setEngine k e).mods = s.mods := rfl
@[simp] theorem State.setEngine_modHeld (s : State) (k : Nat) (e : SEngine) : (s.setEngine k e).modHeld = s.modHeld := rfl
@[simp] theorem State.setEngine_press (s : State) (k : Nat) (e : SEngine) : (s.setEngine k e).press = s.press := rfl
@[simp] theorem State.setEngine_sram (s : State) (k : Nat) (e : SEngine) : (s.setEngine k e).sram = s.sram := rfl
@[simp] theorem State.setEngine_cl (s : State) (k : Nat) (e : SEngine) : (s.setEngine k e).cl = s.cl := rfl
@[simp] theorem State.setEngine_nv (s : State) (k : Nat) (e : SEngine) : (s.setEngine k e).nv = s.nv := rfl
@[simp] theorem State.setEngine_tyz (s : State) (k : Nat) (e : SEngine) : (s.setEngine k e).tyz = s.tyz := rfl
@[simp] theorem State.setEngine_eth (s : State) (k : Nat) (e : SEngine) : (s.setEngine k e).eth = s.eth := rfl
@[simp] theorem State.setEngine_peers (s : State) (k : Nat) (e : SEngine) : (s.setEngine k e).peers = s.peers := rfl
@[simp] theorem State.setEngine_disc (s : State) (k : Nat) (e : SEngine) : (s.setEngine k e).disc = s.disc := rfl
@[simp] theorem State.setEngine_sys (s : State) (k : Nat) (e : SEngine) : (s.setEngine k e).sys = s.sys := rfl
@[simp] theorem State.setEngine_meter (s : State) (k : Nat) (e : SEngine) : (s.setEngine k e).meter = s.meter := rfl
@[simp] theorem State.setEngine_acct (s : State) (k : Nat) (e : SEngine) : (s.setEngine k e).acct = s.acct := rfl
@[simp] theorem State.setEngine_trace (s : State) (k : Nat) (e : SEngine) : (s.setEngine k e).trace = s.trace := rfl
@[simp] theorem State.setEngine_wdt (s : State) (k : Nat) (e : SEngine) : (s.setEngine k e).wdt = s.wdt := rfl
@[simp] theorem State.setEngine_jtag (s : State) (k : Nat) (e : SEngine) : (s.setEngine k e).jtag = s.jtag := rfl

@[simp] theorem State.setPort_pending (s : State) (n : Nat) (p : TyzPort) : (s.setPort n p).pending = s.pending := rfl
@[simp] theorem State.setPort_free (s : State) (n : Nat) (p : TyzPort) : (s.setPort n p).free = s.free := rfl
@[simp] theorem State.setPort_out (s : State) (n : Nat) (p : TyzPort) : (s.setPort n p).out = s.out := rfl
@[simp] theorem State.setPort_tb (s : State) (n : Nat) (p : TyzPort) : (s.setPort n p).tb = s.tb := rfl
@[simp] theorem State.setPort_regs (s : State) (n : Nat) (p : TyzPort) : (s.setPort n p).regs = s.regs := rfl
@[simp] theorem State.setPort_bus (s : State) (n : Nat) (p : TyzPort) : (s.setPort n p).bus = s.bus := rfl
@[simp] theorem State.setPort_ras (s : State) (n : Nat) (p : TyzPort) : (s.setPort n p).ras = s.ras := rfl
@[simp] theorem State.setPort_rind (s : State) (n : Nat) (p : TyzPort) : (s.setPort n p).rind = s.rind := rfl
@[simp] theorem State.setPort_cal (s : State) (n : Nat) (p : TyzPort) : (s.setPort n p).cal = s.cal := rfl
@[simp] theorem State.setPort_calSel (s : State) (n : Nat) (p : TyzPort) : (s.setPort n p).calSel = s.calSel := rfl
@[simp] theorem State.setPort_eff (s : State) (n : Nat) (p : TyzPort) : (s.setPort n p).eff = s.eff := rfl
@[simp] theorem State.setPort_grid (s : State) (n : Nat) (p : TyzPort) : (s.setPort n p).grid = s.grid := rfl
@[simp] theorem State.setPort_work (s : State) (n : Nat) (p : TyzPort) : (s.setPort n p).work = s.work := rfl
@[simp] theorem State.setPort_mods (s : State) (n : Nat) (p : TyzPort) : (s.setPort n p).mods = s.mods := rfl
@[simp] theorem State.setPort_modHeld (s : State) (n : Nat) (p : TyzPort) : (s.setPort n p).modHeld = s.modHeld := rfl
@[simp] theorem State.setPort_press (s : State) (n : Nat) (p : TyzPort) : (s.setPort n p).press = s.press := rfl
@[simp] theorem State.setPort_ses (s : State) (n : Nat) (p : TyzPort) : (s.setPort n p).ses = s.ses := rfl
@[simp] theorem State.setPort_sram (s : State) (n : Nat) (p : TyzPort) : (s.setPort n p).sram = s.sram := rfl
@[simp] theorem State.setPort_cl (s : State) (n : Nat) (p : TyzPort) : (s.setPort n p).cl = s.cl := rfl
@[simp] theorem State.setPort_nv (s : State) (n : Nat) (p : TyzPort) : (s.setPort n p).nv = s.nv := rfl
@[simp] theorem State.setPort_eth (s : State) (n : Nat) (p : TyzPort) : (s.setPort n p).eth = s.eth := rfl
@[simp] theorem State.setPort_peers (s : State) (n : Nat) (p : TyzPort) : (s.setPort n p).peers = s.peers := rfl
@[simp] theorem State.setPort_disc (s : State) (n : Nat) (p : TyzPort) : (s.setPort n p).disc = s.disc := rfl
@[simp] theorem State.setPort_sys (s : State) (n : Nat) (p : TyzPort) : (s.setPort n p).sys = s.sys := rfl
@[simp] theorem State.setPort_meter (s : State) (n : Nat) (p : TyzPort) : (s.setPort n p).meter = s.meter := rfl
@[simp] theorem State.setPort_acct (s : State) (n : Nat) (p : TyzPort) : (s.setPort n p).acct = s.acct := rfl
@[simp] theorem State.setPort_trace (s : State) (n : Nat) (p : TyzPort) : (s.setPort n p).trace = s.trace := rfl
@[simp] theorem State.setPort_wdt (s : State) (n : Nat) (p : TyzPort) : (s.setPort n p).wdt = s.wdt := rfl
@[simp] theorem State.setPort_jtag (s : State) (n : Nat) (p : TyzPort) : (s.setPort n p).jtag = s.jtag := rfl

@[simp] theorem State.setPeer_pending (s : State) (d : Nat) (p : EthPeer) : (s.setPeer d p).pending = s.pending := rfl
@[simp] theorem State.setPeer_free (s : State) (d : Nat) (p : EthPeer) : (s.setPeer d p).free = s.free := rfl
@[simp] theorem State.setPeer_out (s : State) (d : Nat) (p : EthPeer) : (s.setPeer d p).out = s.out := rfl
@[simp] theorem State.setPeer_tb (s : State) (d : Nat) (p : EthPeer) : (s.setPeer d p).tb = s.tb := rfl
@[simp] theorem State.setPeer_regs (s : State) (d : Nat) (p : EthPeer) : (s.setPeer d p).regs = s.regs := rfl
@[simp] theorem State.setPeer_bus (s : State) (d : Nat) (p : EthPeer) : (s.setPeer d p).bus = s.bus := rfl
@[simp] theorem State.setPeer_ras (s : State) (d : Nat) (p : EthPeer) : (s.setPeer d p).ras = s.ras := rfl
@[simp] theorem State.setPeer_rind (s : State) (d : Nat) (p : EthPeer) : (s.setPeer d p).rind = s.rind := rfl
@[simp] theorem State.setPeer_cal (s : State) (d : Nat) (p : EthPeer) : (s.setPeer d p).cal = s.cal := rfl
@[simp] theorem State.setPeer_calSel (s : State) (d : Nat) (p : EthPeer) : (s.setPeer d p).calSel = s.calSel := rfl
@[simp] theorem State.setPeer_eff (s : State) (d : Nat) (p : EthPeer) : (s.setPeer d p).eff = s.eff := rfl
@[simp] theorem State.setPeer_grid (s : State) (d : Nat) (p : EthPeer) : (s.setPeer d p).grid = s.grid := rfl
@[simp] theorem State.setPeer_work (s : State) (d : Nat) (p : EthPeer) : (s.setPeer d p).work = s.work := rfl
@[simp] theorem State.setPeer_mods (s : State) (d : Nat) (p : EthPeer) : (s.setPeer d p).mods = s.mods := rfl
@[simp] theorem State.setPeer_modHeld (s : State) (d : Nat) (p : EthPeer) : (s.setPeer d p).modHeld = s.modHeld := rfl
@[simp] theorem State.setPeer_press (s : State) (d : Nat) (p : EthPeer) : (s.setPeer d p).press = s.press := rfl
@[simp] theorem State.setPeer_ses (s : State) (d : Nat) (p : EthPeer) : (s.setPeer d p).ses = s.ses := rfl
@[simp] theorem State.setPeer_sram (s : State) (d : Nat) (p : EthPeer) : (s.setPeer d p).sram = s.sram := rfl
@[simp] theorem State.setPeer_cl (s : State) (d : Nat) (p : EthPeer) : (s.setPeer d p).cl = s.cl := rfl
@[simp] theorem State.setPeer_nv (s : State) (d : Nat) (p : EthPeer) : (s.setPeer d p).nv = s.nv := rfl
@[simp] theorem State.setPeer_tyz (s : State) (d : Nat) (p : EthPeer) : (s.setPeer d p).tyz = s.tyz := rfl
@[simp] theorem State.setPeer_eth (s : State) (d : Nat) (p : EthPeer) : (s.setPeer d p).eth = s.eth := rfl
@[simp] theorem State.setPeer_disc (s : State) (d : Nat) (p : EthPeer) : (s.setPeer d p).disc = s.disc := rfl
@[simp] theorem State.setPeer_sys (s : State) (d : Nat) (p : EthPeer) : (s.setPeer d p).sys = s.sys := rfl
@[simp] theorem State.setPeer_meter (s : State) (d : Nat) (p : EthPeer) : (s.setPeer d p).meter = s.meter := rfl
@[simp] theorem State.setPeer_acct (s : State) (d : Nat) (p : EthPeer) : (s.setPeer d p).acct = s.acct := rfl
@[simp] theorem State.setPeer_trace (s : State) (d : Nat) (p : EthPeer) : (s.setPeer d p).trace = s.trace := rfl
@[simp] theorem State.setPeer_wdt (s : State) (d : Nat) (p : EthPeer) : (s.setPeer d p).wdt = s.wdt := rfl
@[simp] theorem State.setPeer_jtag (s : State) (d : Nat) (p : EthPeer) : (s.setPeer d p).jtag = s.jtag := rfl

@[simp] theorem State.setCore_pending (s : State) (k : Nat) (c : Core) : (s.setCore k c).pending = s.pending := rfl
@[simp] theorem State.setCore_free (s : State) (k : Nat) (c : Core) : (s.setCore k c).free = s.free := rfl
@[simp] theorem State.setCore_out (s : State) (k : Nat) (c : Core) : (s.setCore k c).out = s.out := rfl
@[simp] theorem State.setCore_tb (s : State) (k : Nat) (c : Core) : (s.setCore k c).tb = s.tb := rfl
@[simp] theorem State.setCore_regs (s : State) (k : Nat) (c : Core) : (s.setCore k c).regs = s.regs := rfl
@[simp] theorem State.setCore_bus (s : State) (k : Nat) (c : Core) : (s.setCore k c).bus = s.bus := rfl
@[simp] theorem State.setCore_ras (s : State) (k : Nat) (c : Core) : (s.setCore k c).ras = s.ras := rfl
@[simp] theorem State.setCore_rind (s : State) (k : Nat) (c : Core) : (s.setCore k c).rind = s.rind := rfl
@[simp] theorem State.setCore_cal (s : State) (k : Nat) (c : Core) : (s.setCore k c).cal = s.cal := rfl
@[simp] theorem State.setCore_calSel (s : State) (k : Nat) (c : Core) : (s.setCore k c).calSel = s.calSel := rfl
@[simp] theorem State.setCore_eff (s : State) (k : Nat) (c : Core) : (s.setCore k c).eff = s.eff := rfl
@[simp] theorem State.setCore_grid (s : State) (k : Nat) (c : Core) : (s.setCore k c).grid = s.grid := rfl
@[simp] theorem State.setCore_work (s : State) (k : Nat) (c : Core) : (s.setCore k c).work = s.work := rfl
@[simp] theorem State.setCore_mods (s : State) (k : Nat) (c : Core) : (s.setCore k c).mods = s.mods := rfl
@[simp] theorem State.setCore_modHeld (s : State) (k : Nat) (c : Core) : (s.setCore k c).modHeld = s.modHeld := rfl
@[simp] theorem State.setCore_press (s : State) (k : Nat) (c : Core) : (s.setCore k c).press = s.press := rfl
@[simp] theorem State.setCore_ses (s : State) (k : Nat) (c : Core) : (s.setCore k c).ses = s.ses := rfl
@[simp] theorem State.setCore_sram (s : State) (k : Nat) (c : Core) : (s.setCore k c).sram = s.sram := rfl
@[simp] theorem State.setCore_nv (s : State) (k : Nat) (c : Core) : (s.setCore k c).nv = s.nv := rfl
@[simp] theorem State.setCore_tyz (s : State) (k : Nat) (c : Core) : (s.setCore k c).tyz = s.tyz := rfl
@[simp] theorem State.setCore_eth (s : State) (k : Nat) (c : Core) : (s.setCore k c).eth = s.eth := rfl
@[simp] theorem State.setCore_peers (s : State) (k : Nat) (c : Core) : (s.setCore k c).peers = s.peers := rfl
@[simp] theorem State.setCore_disc (s : State) (k : Nat) (c : Core) : (s.setCore k c).disc = s.disc := rfl
@[simp] theorem State.setCore_sys (s : State) (k : Nat) (c : Core) : (s.setCore k c).sys = s.sys := rfl
@[simp] theorem State.setCore_meter (s : State) (k : Nat) (c : Core) : (s.setCore k c).meter = s.meter := rfl
@[simp] theorem State.setCore_acct (s : State) (k : Nat) (c : Core) : (s.setCore k c).acct = s.acct := rfl
@[simp] theorem State.setCore_trace (s : State) (k : Nat) (c : Core) : (s.setCore k c).trace = s.trace := rfl
@[simp] theorem State.setCore_wdt (s : State) (k : Nat) (c : Core) : (s.setCore k c).wdt = s.wdt := rfl
@[simp] theorem State.setCore_jtag (s : State) (k : Nat) (c : Core) : (s.setCore k c).jtag = s.jtag := rfl

@[simp] theorem State.setSess_pending (s : State) (k : Nat) (x : Sess) : (s.setSess k x).pending = s.pending := rfl
@[simp] theorem State.setSess_free (s : State) (k : Nat) (x : Sess) : (s.setSess k x).free = s.free := rfl
@[simp] theorem State.setSess_out (s : State) (k : Nat) (x : Sess) : (s.setSess k x).out = s.out := rfl
@[simp] theorem State.setSess_tb (s : State) (k : Nat) (x : Sess) : (s.setSess k x).tb = s.tb := rfl
@[simp] theorem State.setSess_regs (s : State) (k : Nat) (x : Sess) : (s.setSess k x).regs = s.regs := rfl
@[simp] theorem State.setSess_bus (s : State) (k : Nat) (x : Sess) : (s.setSess k x).bus = s.bus := rfl
@[simp] theorem State.setSess_ras (s : State) (k : Nat) (x : Sess) : (s.setSess k x).ras = s.ras := rfl
@[simp] theorem State.setSess_cal (s : State) (k : Nat) (x : Sess) : (s.setSess k x).cal = s.cal := rfl
@[simp] theorem State.setSess_calSel (s : State) (k : Nat) (x : Sess) : (s.setSess k x).calSel = s.calSel := rfl
@[simp] theorem State.setSess_eff (s : State) (k : Nat) (x : Sess) : (s.setSess k x).eff = s.eff := rfl
@[simp] theorem State.setSess_grid (s : State) (k : Nat) (x : Sess) : (s.setSess k x).grid = s.grid := rfl
@[simp] theorem State.setSess_work (s : State) (k : Nat) (x : Sess) : (s.setSess k x).work = s.work := rfl
@[simp] theorem State.setSess_mods (s : State) (k : Nat) (x : Sess) : (s.setSess k x).mods = s.mods := rfl
@[simp] theorem State.setSess_modHeld (s : State) (k : Nat) (x : Sess) : (s.setSess k x).modHeld = s.modHeld := rfl
@[simp] theorem State.setSess_press (s : State) (k : Nat) (x : Sess) : (s.setSess k x).press = s.press := rfl
@[simp] theorem State.setSess_ses (s : State) (k : Nat) (x : Sess) : (s.setSess k x).ses = s.ses := rfl
@[simp] theorem State.setSess_sram (s : State) (k : Nat) (x : Sess) : (s.setSess k x).sram = s.sram := rfl
@[simp] theorem State.setSess_cl (s : State) (k : Nat) (x : Sess) : (s.setSess k x).cl = s.cl := rfl
@[simp] theorem State.setSess_nv (s : State) (k : Nat) (x : Sess) : (s.setSess k x).nv = s.nv := rfl
@[simp] theorem State.setSess_tyz (s : State) (k : Nat) (x : Sess) : (s.setSess k x).tyz = s.tyz := rfl
@[simp] theorem State.setSess_eth (s : State) (k : Nat) (x : Sess) : (s.setSess k x).eth = s.eth := rfl
@[simp] theorem State.setSess_peers (s : State) (k : Nat) (x : Sess) : (s.setSess k x).peers = s.peers := rfl
@[simp] theorem State.setSess_disc (s : State) (k : Nat) (x : Sess) : (s.setSess k x).disc = s.disc := rfl
@[simp] theorem State.setSess_sys (s : State) (k : Nat) (x : Sess) : (s.setSess k x).sys = s.sys := rfl
@[simp] theorem State.setSess_meter (s : State) (k : Nat) (x : Sess) : (s.setSess k x).meter = s.meter := rfl
@[simp] theorem State.setSess_acct (s : State) (k : Nat) (x : Sess) : (s.setSess k x).acct = s.acct := rfl
@[simp] theorem State.setSess_trace (s : State) (k : Nat) (x : Sess) : (s.setSess k x).trace = s.trace := rfl
@[simp] theorem State.setSess_wdt (s : State) (k : Nat) (x : Sess) : (s.setSess k x).wdt = s.wdt := rfl
@[simp] theorem State.setSess_jtag (s : State) (k : Nat) (x : Sess) : (s.setSess k x).jtag = s.jtag := rfl

@[simp] theorem State.onTenant_pending (s : State) (t : Nat) (f : Tenant → Tenant) : (s.onTenant t f).pending = s.pending := rfl
@[simp] theorem State.onTenant_free (s : State) (t : Nat) (f : Tenant → Tenant) : (s.onTenant t f).free = s.free := rfl
@[simp] theorem State.onTenant_out (s : State) (t : Nat) (f : Tenant → Tenant) : (s.onTenant t f).out = s.out := rfl
@[simp] theorem State.onTenant_tb (s : State) (t : Nat) (f : Tenant → Tenant) : (s.onTenant t f).tb = s.tb := rfl
@[simp] theorem State.onTenant_regs (s : State) (t : Nat) (f : Tenant → Tenant) : (s.onTenant t f).regs = s.regs := rfl
@[simp] theorem State.onTenant_bus (s : State) (t : Nat) (f : Tenant → Tenant) : (s.onTenant t f).bus = s.bus := rfl
@[simp] theorem State.onTenant_ras (s : State) (t : Nat) (f : Tenant → Tenant) : (s.onTenant t f).ras = s.ras := rfl
@[simp] theorem State.onTenant_rind (s : State) (t : Nat) (f : Tenant → Tenant) : (s.onTenant t f).rind = s.rind := rfl
@[simp] theorem State.onTenant_cal (s : State) (t : Nat) (f : Tenant → Tenant) : (s.onTenant t f).cal = s.cal := rfl
@[simp] theorem State.onTenant_calSel (s : State) (t : Nat) (f : Tenant → Tenant) : (s.onTenant t f).calSel = s.calSel := rfl
@[simp] theorem State.onTenant_eff (s : State) (t : Nat) (f : Tenant → Tenant) : (s.onTenant t f).eff = s.eff := rfl
@[simp] theorem State.onTenant_grid (s : State) (t : Nat) (f : Tenant → Tenant) : (s.onTenant t f).grid = s.grid := rfl
@[simp] theorem State.onTenant_mods (s : State) (t : Nat) (f : Tenant → Tenant) : (s.onTenant t f).mods = s.mods := rfl
@[simp] theorem State.onTenant_modHeld (s : State) (t : Nat) (f : Tenant → Tenant) : (s.onTenant t f).modHeld = s.modHeld := rfl
@[simp] theorem State.onTenant_press (s : State) (t : Nat) (f : Tenant → Tenant) : (s.onTenant t f).press = s.press := rfl
@[simp] theorem State.onTenant_ses (s : State) (t : Nat) (f : Tenant → Tenant) : (s.onTenant t f).ses = s.ses := rfl
@[simp] theorem State.onTenant_sram (s : State) (t : Nat) (f : Tenant → Tenant) : (s.onTenant t f).sram = s.sram := rfl
@[simp] theorem State.onTenant_cl (s : State) (t : Nat) (f : Tenant → Tenant) : (s.onTenant t f).cl = s.cl := rfl
@[simp] theorem State.onTenant_nv (s : State) (t : Nat) (f : Tenant → Tenant) : (s.onTenant t f).nv = s.nv := rfl
@[simp] theorem State.onTenant_tyz (s : State) (t : Nat) (f : Tenant → Tenant) : (s.onTenant t f).tyz = s.tyz := rfl
@[simp] theorem State.onTenant_eth (s : State) (t : Nat) (f : Tenant → Tenant) : (s.onTenant t f).eth = s.eth := rfl
@[simp] theorem State.onTenant_peers (s : State) (t : Nat) (f : Tenant → Tenant) : (s.onTenant t f).peers = s.peers := rfl
@[simp] theorem State.onTenant_disc (s : State) (t : Nat) (f : Tenant → Tenant) : (s.onTenant t f).disc = s.disc := rfl
@[simp] theorem State.onTenant_sys (s : State) (t : Nat) (f : Tenant → Tenant) : (s.onTenant t f).sys = s.sys := rfl
@[simp] theorem State.onTenant_meter (s : State) (t : Nat) (f : Tenant → Tenant) : (s.onTenant t f).meter = s.meter := rfl
@[simp] theorem State.onTenant_acct (s : State) (t : Nat) (f : Tenant → Tenant) : (s.onTenant t f).acct = s.acct := rfl
@[simp] theorem State.onTenant_trace (s : State) (t : Nat) (f : Tenant → Tenant) : (s.onTenant t f).trace = s.trace := rfl
@[simp] theorem State.onTenant_wdt (s : State) (t : Nat) (f : Tenant → Tenant) : (s.onTenant t f).wdt = s.wdt := rfl
@[simp] theorem State.onTenant_jtag (s : State) (t : Nat) (f : Tenant → Tenant) : (s.onTenant t f).jtag = s.jtag := rfl

@[simp] theorem State.takeFree_pending (s : State) : s.takeFree.2.pending = s.pending := rfl
@[simp] theorem State.takeFree_out (s : State) : s.takeFree.2.out = s.out := rfl
@[simp] theorem State.takeFree_tb (s : State) : s.takeFree.2.tb = s.tb := rfl
@[simp] theorem State.takeFree_regs (s : State) : s.takeFree.2.regs = s.regs := rfl
@[simp] theorem State.takeFree_bus (s : State) : s.takeFree.2.bus = s.bus := rfl
@[simp] theorem State.takeFree_ras (s : State) : s.takeFree.2.ras = s.ras := rfl
@[simp] theorem State.takeFree_rind (s : State) : s.takeFree.2.rind = s.rind := rfl
@[simp] theorem State.takeFree_cal (s : State) : s.takeFree.2.cal = s.cal := rfl
@[simp] theorem State.takeFree_calSel (s : State) : s.takeFree.2.calSel = s.calSel := rfl
@[simp] theorem State.takeFree_eff (s : State) : s.takeFree.2.eff = s.eff := rfl
@[simp] theorem State.takeFree_grid (s : State) : s.takeFree.2.grid = s.grid := rfl
@[simp] theorem State.takeFree_work (s : State) : s.takeFree.2.work = s.work := rfl
@[simp] theorem State.takeFree_mods (s : State) : s.takeFree.2.mods = s.mods := rfl
@[simp] theorem State.takeFree_modHeld (s : State) : s.takeFree.2.modHeld = s.modHeld := rfl
@[simp] theorem State.takeFree_press (s : State) : s.takeFree.2.press = s.press := rfl
@[simp] theorem State.takeFree_ses (s : State) : s.takeFree.2.ses = s.ses := rfl
@[simp] theorem State.takeFree_sram (s : State) : s.takeFree.2.sram = s.sram := rfl
@[simp] theorem State.takeFree_cl (s : State) : s.takeFree.2.cl = s.cl := rfl
@[simp] theorem State.takeFree_nv (s : State) : s.takeFree.2.nv = s.nv := rfl
@[simp] theorem State.takeFree_tyz (s : State) : s.takeFree.2.tyz = s.tyz := rfl
@[simp] theorem State.takeFree_eth (s : State) : s.takeFree.2.eth = s.eth := rfl
@[simp] theorem State.takeFree_peers (s : State) : s.takeFree.2.peers = s.peers := rfl
@[simp] theorem State.takeFree_disc (s : State) : s.takeFree.2.disc = s.disc := rfl
@[simp] theorem State.takeFree_sys (s : State) : s.takeFree.2.sys = s.sys := rfl
@[simp] theorem State.takeFree_meter (s : State) : s.takeFree.2.meter = s.meter := rfl
@[simp] theorem State.takeFree_acct (s : State) : s.takeFree.2.acct = s.acct := rfl
@[simp] theorem State.takeFree_trace (s : State) : s.takeFree.2.trace = s.trace := rfl
@[simp] theorem State.takeFree_wdt (s : State) : s.takeFree.2.wdt = s.wdt := rfl
@[simp] theorem State.takeFree_jtag (s : State) : s.takeFree.2.jtag = s.jtag := rfl

@[simp] theorem State.advance_pending (s : State) (a : Dword) : (s.advance a).pending = s.pending := by unfold State.advance; split <;> rfl
@[simp] theorem State.advance_free (s : State) (a : Dword) : (s.advance a).free = s.free := by unfold State.advance; split <;> rfl
@[simp] theorem State.advance_out (s : State) (a : Dword) : (s.advance a).out = s.out := by unfold State.advance; split <;> rfl
@[simp] theorem State.advance_regs (s : State) (a : Dword) : (s.advance a).regs = s.regs := by unfold State.advance; split <;> rfl
@[simp] theorem State.advance_bus (s : State) (a : Dword) : (s.advance a).bus = s.bus := by unfold State.advance; split <;> rfl
@[simp] theorem State.advance_ras (s : State) (a : Dword) : (s.advance a).ras = s.ras := by unfold State.advance; split <;> rfl
@[simp] theorem State.advance_rind (s : State) (a : Dword) : (s.advance a).rind = s.rind := by unfold State.advance; split <;> rfl
@[simp] theorem State.advance_cal (s : State) (a : Dword) : (s.advance a).cal = s.cal := by unfold State.advance; split <;> rfl
@[simp] theorem State.advance_calSel (s : State) (a : Dword) : (s.advance a).calSel = s.calSel := by unfold State.advance; split <;> rfl
@[simp] theorem State.advance_eff (s : State) (a : Dword) : (s.advance a).eff = s.eff := by unfold State.advance; split <;> rfl
@[simp] theorem State.advance_grid (s : State) (a : Dword) : (s.advance a).grid = s.grid := by unfold State.advance; split <;> rfl
@[simp] theorem State.advance_work (s : State) (a : Dword) : (s.advance a).work = s.work := by unfold State.advance; split <;> rfl
@[simp] theorem State.advance_mods (s : State) (a : Dword) : (s.advance a).mods = s.mods := by unfold State.advance; split <;> rfl
@[simp] theorem State.advance_modHeld (s : State) (a : Dword) : (s.advance a).modHeld = s.modHeld := by unfold State.advance; split <;> rfl
@[simp] theorem State.advance_press (s : State) (a : Dword) : (s.advance a).press = s.press := by unfold State.advance; split <;> rfl
@[simp] theorem State.advance_ses (s : State) (a : Dword) : (s.advance a).ses = s.ses := by unfold State.advance; split <;> rfl
@[simp] theorem State.advance_sram (s : State) (a : Dword) : (s.advance a).sram = s.sram := by unfold State.advance; split <;> rfl
@[simp] theorem State.advance_cl (s : State) (a : Dword) : (s.advance a).cl = s.cl := by unfold State.advance; split <;> rfl
@[simp] theorem State.advance_nv (s : State) (a : Dword) : (s.advance a).nv = s.nv := by unfold State.advance; split <;> rfl
@[simp] theorem State.advance_tyz (s : State) (a : Dword) : (s.advance a).tyz = s.tyz := by unfold State.advance; split <;> rfl
@[simp] theorem State.advance_eth (s : State) (a : Dword) : (s.advance a).eth = s.eth := by unfold State.advance; split <;> rfl
@[simp] theorem State.advance_peers (s : State) (a : Dword) : (s.advance a).peers = s.peers := by unfold State.advance; split <;> rfl
@[simp] theorem State.advance_disc (s : State) (a : Dword) : (s.advance a).disc = s.disc := by unfold State.advance; split <;> rfl
@[simp] theorem State.advance_sys (s : State) (a : Dword) : (s.advance a).sys = s.sys := by unfold State.advance; split <;> rfl
@[simp] theorem State.advance_meter (s : State) (a : Dword) : (s.advance a).meter = s.meter := by unfold State.advance; split <;> rfl
@[simp] theorem State.advance_acct (s : State) (a : Dword) : (s.advance a).acct = s.acct := by unfold State.advance; split <;> rfl
@[simp] theorem State.advance_trace (s : State) (a : Dword) : (s.advance a).trace = s.trace := by unfold State.advance; split <;> rfl
@[simp] theorem State.advance_wdt (s : State) (a : Dword) : (s.advance a).wdt = s.wdt := by unfold State.advance; split <;> rfl
@[simp] theorem State.advance_jtag (s : State) (a : Dword) : (s.advance a).jtag = s.jtag := by unfold State.advance; split <;> rfl

/-! ### What is written reads back, and nothing else of its kind changes -/

@[simp] theorem State.setReg_reg_self (s : State) (a : Nat) (v : Word) : (s.setReg a v).reg a = v := mapGet_mapSet_self _ _ _ _
theorem State.setReg_reg_of_ne (s : State) (a b : Nat) (v : Word) (h : b ≠ a) : (s.setReg a v).reg b = s.reg b :=
  mapGet_mapSet_of_ne _ _ _ _ _ _ h
theorem State.reg_congr {s t : State} (h : t.regs = s.regs) (a : Nat) : t.reg a = s.reg a := by rw [State.reg, h]; rfl
theorem State.setCell_cell (s : State) (pos : Nat) (j : Nat) (x : Cell) : (s.setCell pos x).cell j = if j = pos then x else s.cell j := mapGet_mapSet _ _ _ _ _
theorem State.setRouter_router (s : State) (pos : Nat) (j : Nat) (x : Router) : (s.setRouter pos x).router j = if j = pos then x else s.router j := mapGet_mapSet _ _ _ _ _
theorem State.setModule_module (s : State) (c : Nat) (j : Nat) (x : Module) : (s.setModule c x).module j = if j = c then x else s.module j := mapGet_mapSet _ _ _ _ _
theorem State.setPress_pressOf (s : State) (c : Nat) (j : Nat) (x : Press) : (s.setPress c x).pressOf j = if j = c then x else s.pressOf j := mapGet_mapSet _ _ _ _ _
theorem State.setEngine_engine (s : State) (k : Nat) (j : Nat) (x : SEngine) : (s.setEngine k x).engine j = if j = k then x else s.engine j := mapGet_mapSet _ _ _ _ _
theorem State.setPort_port (s : State) (n : Nat) (j : Nat) (x : TyzPort) : (s.setPort n x).port j = if j = n then x else s.port j := mapGet_mapSet _ _ _ _ _
theorem State.setPeer_peer (s : State) (d : Nat) (j : Nat) (x : EthPeer) : (s.setPeer d x).peer j = if j = d then x else s.peer j := mapGet_mapSet _ _ _ _ _
theorem State.setCore_core (s : State) (k : Nat) (j : Nat) (x : Core) : (s.setCore k x).core j = if j = k then x else s.core j := mapGet_mapSet _ _ _ _ _
theorem State.setSess_sess (s : State) (k : Nat) (j : Nat) (x : Sess) : (s.setSess k x).sess j = if j = k then x else s.sess j := mapGet_mapSet _ _ _ _ _
theorem State.onTenant_tenant (s : State) (t : Nat) (f : Tenant → Tenant) (j : Nat) :
    (s.onTenant t f).tenant j = if j = t then f (s.tenant t) else s.tenant j := mapGet_mapSet _ _ _ _ _
theorem Cell.setCtx_ctx (c : Cell) (n j : Nat) (x : Ctx) : (c.setCtx n x).ctx j = if j = n then x else c.ctx j := mapGet_mapSet _ _ _ _ _
theorem State.setCtx_ctx (s : State) (pos n p j : Nat) (x : Ctx) :
    (s.setCtx pos n x).ctx p j = if p = pos ∧ j = n then x else s.ctx p j := by
  unfold State.setCtx State.ctx
  rw [State.setCell_cell]
  by_cases h : p = pos
  · subst h; simp [Cell.setCtx_ctx]
  · simp [h]

end Sys2Proof.Machine
end

