-- ==== Sys2Proof/WellFormed.lean ====
section
/-! DEFINITION. The operands that the block's interfaces can carry: positions, contexts, channels, ports, cores and tenants that
exist, transfers whose data has their length, fields within their widths. A meaning does not ask for it. -/
namespace Sys2Proof

/-- A physical position of the 68 × 32 grid (R57). -/
def inGrid (pos : Nat) : Bool := decide (pos < 2176)
/-- One of the 16 module channels (R268), the 16 Tyzil ports (R331), the 8 control cores (R464). -/
def isChannel (c : Nat) : Bool := decide (c < 16)
def isPort (n : Nat) : Bool := decide (n < 16)
def isCore (k : Nat) : Bool := decide (k < 8)
/-- A word of BAR0 (R602). -/
def wordAddr (addr : Nat) : Bool := decide (addr < 2 ^ 26) && addr % 4 == 0
/-- A transfer of at least one byte; a write brings its data. -/
def transfer (write : Bool) (size : Nat) (data : List Byte) : Bool := decide (0 < size) && (!write || decide (data.length = size))
/-- Soft errors in 64-bit granules: a struck granule is corrected or not, and 72 bits can flip (Table 4.6). -/
def Upset.wf (u : Upset) : Bool := u.cls != .clean && decide (u.flips < 2 ^ 72)
def upsetsOk (l : List Upset) : Bool := l.all Upset.wf
def channelHits (l : List (Nat × Upset)) : Bool := l.all fun e => isChannel e.1 && e.2.wf
/-- A mesh packet: a 128-bit header and at most the payload that 31 flits carry (R67, Table 3.3). -/
def MeshPacket.wf (p : MeshPacket) : Bool := decide (p.hdr < 2 ^ 128) && decide (p.payload.length ≤ 1968)
/-- The operation fields within the widths of Table 7.3. -/
def OpFields.wf (o : OpFields) : Bool :=
  decide (o.opcode < 256) && decide (o.fmt < 16) && decide (o.mask < 256) && decide (o.flags < 256) && decide (o.subop < 256)
    && decide (o.dst < 256) && decide (o.srcA < 256) && decide (o.srcB < 256) && decide (o.srcC < 256)
/-- A placement names one of the four contexts and an origin in the logical grid (R58, R200). -/
def Placement.wf (p : Placement) : Bool := decide (p.ctx < 4) && decide (p.orgX < 64) && decide (p.orgY < 32)
/-- A read that did not succeed (R322d). -/
def ReadEnd.fails (e : ReadEnd) : Bool := e != .ok

/-- The operands of a command are ones its interface can carry. -/
def Instr.wf (c : Instr) : Bool :=
  match c with
  | .regWrite _ addr _ _ _ _ => wordAddr addr
  | .readLowWordLatch _ addr => wordAddr addr
  | .writeHighWordCommit _ addr _ => wordAddr addr
  | .recordWindowIdxWrite _ addr _ => wordAddr addr
  | .recordWindowDataRead _ addr => wordAddr addr
  | .tableWindowCommit _ addr _ => wordAddr addr
  | .errLogClear _ pg => decide (pg < 0x4000)
  | .counterClear _ addr => wordAddr addr
  | .pageCtlReset _ pg => decide (pg < 0x4000)
  | .pageCtlLock _ pg => decide (pg < 0x4000)
  | .tick sensors temps given => decide (sensors.length = 64) && temps.all (fun e => decide (e.1 < 16)) && decide (given.ended.getD 0 ≤ 9)
  | .napEnter => true
  | .guardStart => true
  | .runStart _ => true
  | .budgetExpire _ => true
  | .runComplete _ _ => true
  | .drainComplete _ end_ => end_.bad.all fun b => inGrid b.1 && decide (b.2 < 2048)
  | .drainTimeout _ => true
  | .runIdleTimeout _ => true
  | .tbSrcLost _ => true
  | .holdoverExpire _ => true
  | .alignRecover => true
  | .frameSyncInEdge _ => true
  | .syncEdgeSelect _ => true
  | .timebaseWrite _ _ => true
  | .epochWrite _ _ => true
  | .frameEnable _ => true
  | .frameDisable _ => true
  | .disabledDelayExpire _ => true
  | .meshPacketArrive pos port pkt up => inGrid pos && decide (port < 8) && pkt.wf && decide (up.flip < 2 ^ 128) && upsetsOk up.hits
  | .mcForward pos => inGrid pos
  | .redMergeAddI32 pos region tag seq => inGrid pos && decide (region < 256) && decide (tag < 4096) && decide (seq < 256)
  | .redMergeAddF32 pos region tag seq => inGrid pos && decide (region < 256) && decide (tag < 4096) && decide (seq < 256)
  | .redMergeMaxF32 pos region tag seq => inGrid pos && decide (region < 256) && decide (tag < 4096) && decide (seq < 256)
  | .redMergeLse pos region tag seq => inGrid pos && decide (region < 256) && decide (tag < 4096) && decide (seq < 256)
  | .linkCreditReturn pos port vn n => inGrid pos && decide (port < 8) && decide (vn < 5) && decide (0 < n)
  | .vn0AgePromote pos => inGrid pos
  | .routerPlaneFault pos => inGrid pos
  | .spAccessGrant pos n write addr size data _ hits => inGrid pos && decide (n < 4) && decide (addr < 2 ^ 32) && transfer write size data && upsetsOk hits
  | .ceWriteback pos granule => inGrid pos && decide (granule < 65536)
  | .remoteAccessArrive pos src region _ _ _ _ _ hits => inGrid pos && inGrid src && decide (region < 256) && upsetsOk hits
  | .remoteReadResponse pos n _ _ _ => inGrid pos && decide (n < 4)
  | .scrubVisit pos hits => inGrid pos && upsetsOk hits
  | .scrubLate pos => inGrid pos
  | .bar4ScratchpadAccess write off size data hits => (write || !data.poison) && decide (off < 2 ^ 30) && transfer write size data.bytes && upsetsOk hits
  | .bar4MemoryAccess fn slot write _ size data hits => (write || !data.poison) && decide (fn < 257) && decide (slot < 8) && transfer write size data.bytes && channelHits hits
  | .triggerFire pos => inGrid pos
  | .tokenArrive pos n ti v _ => inGrid pos && decide (n < 4) && decide (ti < 8) && decide (v < 65536)
  | .nop pos => inGrid pos
  | .mxLoadw pos n op u => inGrid pos && decide (n < 4) && op.wf && upsetsOk u.hits
  | .mxSwap pos n op u => inGrid pos && decide (n < 4) && op.wf && upsetsOk u.hits
  | .mxMac pos n op u => inGrid pos && decide (n < 4) && op.wf && upsetsOk u.hits
  | .mxRead pos n op u => inGrid pos && decide (n < 4) && op.wf && upsetsOk u.hits
  | .vxAdd pos n op u => inGrid pos && decide (n < 4) && op.wf && upsetsOk u.hits
  | .vxSub pos n op u => inGrid pos && decide (n < 4) && op.wf && upsetsOk u.hits
  | .vxMul pos n op u => inGrid pos && decide (n < 4) && op.wf && upsetsOk u.hits
  | .vxFma pos n op u => inGrid pos && decide (n < 4) && op.wf && upsetsOk u.hits
  | .vxMin pos n op u => inGrid pos && decide (n < 4) && op.wf && upsetsOk u.hits
  | .vxMax pos n op u => inGrid pos && decide (n < 4) && op.wf && upsetsOk u.hits
  | .vxAbs pos n op u => inGrid pos && decide (n < 4) && op.wf && upsetsOk u.hits
  | .vxNeg pos n op u => inGrid pos && decide (n < 4) && op.wf && upsetsOk u.hits
  | .vxAnd pos n op u => inGrid pos && decide (n < 4) && op.wf && upsetsOk u.hits
  | .vxOr pos n op u => inGrid pos && decide (n < 4) && op.wf && upsetsOk u.hits
  | .vxXor pos n op u => inGrid pos && decide (n < 4) && op.wf && upsetsOk u.hits
  | .vxShl pos n op u => inGrid pos && decide (n < 4) && op.wf && upsetsOk u.hits
  | .vxShra pos n op u => inGrid pos && decide (n < 4) && op.wf && upsetsOk u.hits
  | .vxShrl pos n op u => inGrid pos && decide (n < 4) && op.wf && upsetsOk u.hits
  | .vxCmpEq pos n op u => inGrid pos && decide (n < 4) && op.wf && upsetsOk u.hits
  | .vxCmpNe pos n op u => inGrid pos && decide (n < 4) && op.wf && upsetsOk u.hits
  | .vxCmpLt pos n op u => inGrid pos && decide (n < 4) && op.wf && upsetsOk u.hits
  | .vxCmpLe pos n op u => inGrid pos && decide (n < 4) && op.wf && upsetsOk u.hits
  | .vxSel pos n op u => inGrid pos && decide (n < 4) && op.wf && upsetsOk u.hits
  | .vxCvt pos n op u => inGrid pos && decide (n < 4) && op.wf && upsetsOk u.hits
  | .vxExp pos n op u => inGrid pos && decide (n < 4) && op.wf && upsetsOk u.hits
  | .vxRcp pos n op u => inGrid pos && decide (n < 4) && op.wf && upsetsOk u.hits
  | .vxRsqrt pos n op u => inGrid pos && decide (n < 4) && op.wf && upsetsOk u.hits
  | .vxTanh pos n op u => inGrid pos && decide (n < 4) && op.wf && upsetsOk u.hits
  | .vxErf pos n op u => inGrid pos && decide (n < 4) && op.wf && upsetsOk u.hits
  | .vxMov pos n op u => inGrid pos && decide (n < 4) && op.wf && upsetsOk u.hits
  | .vxBcast pos n op u => inGrid pos && decide (n < 4) && op.wf && upsetsOk u.hits
  | .vxTrn pos n op u => inGrid pos && decide (n < 4) && op.wf && upsetsOk u.hits
  | .vxLd pos n op u => inGrid pos && decide (n < 4) && op.wf && upsetsOk u.hits
  | .vxSt pos n op u => inGrid pos && decide (n < 4) && op.wf && upsetsOk u.hits
  | .vxQst pos n op u => inGrid pos && decide (n < 4) && op.wf && upsetsOk u.hits
  | .vxMkrange pos n op u => inGrid pos && decide (n < 4) && op.wf && upsetsOk u.hits
  | .vxMkand pos n op u => inGrid pos && decide (n < 4) && op.wf && upsetsOk u.hits
  | .vxMkor pos n op u => inGrid pos && decide (n < 4) && op.wf && upsetsOk u.hits
  | .vxMknot pos n op u => inGrid pos && decide (n < 4) && op.wf && upsetsOk u.hits
  | .vxRed pos n op u => inGrid pos && decide (n < 4) && op.wf && upsetsOk u.hits
  | .vxPop pos n op u => inGrid pos && decide (n < 4) && op.wf && upsetsOk u.hits
  | .vxAccrd pos n op u => inGrid pos && decide (n < 4) && op.wf && upsetsOk u.hits
  | .vxAccrel pos n op u => inGrid pos && decide (n < 4) && op.wf && upsetsOk u.hits
  | .vxS2c pos n op u => inGrid pos && decide (n < 4) && op.wf && upsetsOk u.hits
  | .descLoad _ place image => place.wf && decide (image.length % 64 = 0)
  | .loadAccept _ => true
  | .imageVerifyComplete _ _ => true
  | .imageReadFail _ how _ => how.fails
  | .descUnload _ => true
  | .descRun _ => true
  | .streamDataArrive pos pkt => inGrid pos && pkt.wf
  | .crdArrive pos pkt => inGrid pos && pkt.wf
  | .crdTimerReturn pos n _ => inGrid pos && decide (n ≤ 4)
  | .streamUnitSend pos n _ => inGrid pos && decide (n < 4)
  | .streamDbWrite _ k _ => decide (k < 32)
  | .seRead k _ => decide (k < 32)
  | .seWrite k _ hits => decide (k < 32) && channelHits hits
  | .seMigrateIn k _ hits => decide (k < 32) && channelHits hits
  | .seMigrateOut k _ strike hits => decide (k < 32) && upsetsOk strike && channelHits hits
  | .moduleReadReturn k _ _ _ _ hits => decide (k < 32) && channelHits hits
  | .seDescComplete k _ => decide (k < 32)
  | .channelBringup c _ _ => isChannel c
  | .memWcrcError c _ again thrice => isChannel c && (again || !thrice)
  | .moduleCeWriteback c _ => isChannel c
  | .moduleScrubVisit c hits => isChannel c && channelHits hits
  | .channelLost c why => isChannel c && decide (why < 4)
  | .chanRestoredWrite _ _ => true
  | .pressCmdIssue c q _ => isChannel c && decide (q < 4)
  | .pressCmdAccept c q slot _ => isChannel c && decide (q < 4) && decide (slot < 32)
  | .pressAttn c q => isChannel c && decide (q < 4)
  | .pressBurstStart c _ hits => isChannel c && channelHits hits
  | .pressCmdComplete c q _ => isChannel c && decide (q < 4)
  | .pressQueueReset c q => isChannel c && decide (q < 4)
  | .pressHot c _ => isChannel c
  | .pressQcompPoll c q _ => isChannel c && decide (q < 4)
  | .pressTimeout c q _ => isChannel c && decide (q < 4)
  | .hostLinkTrain rate width _ _ _ => decide (1 ≤ rate) && decide (rate ≤ 3) && [1, 2, 4, 8, 16].contains width
  | .hostLinkDown _ => true
  | .hotReset _ => true
  | .flrVf v _ => decide (1 ≤ v) && decide (v ≤ 255)
  | .flrPf1 _ => true
  | .flrPf0 _ => true
  | .dbSqTail vf page size _ _ => decide (vf ≤ 255) && decide (page < 1024) && decide (0 < size)
  | .dbCqHead vf page size _ _ => decide (vf ≤ 255) && decide (page < 1024) && decide (0 < size)
  | .sqFetch t => decide (t < 1024)
  | .sqFetchComplete t sq _ sqEnd _ _ => decide (t < 1024) && (sqEnd.fails || decide (sq.length = 64))
  | .qCtlEnWrite _ t _ => decide (t < 1024)
  | .tenantQueueReset _ t => decide (t < 1024)
  | .tenantCreate _ t => decide (t < 1024)
  | .tenantDestroy _ t => decide (t < 1024)
  | .tenantFnWrite _ t _ => decide (t < 1024)
  | .noticeAckWrite _ t _ => decide (t < 1024)
  | .vfWindowWrite vf _ off _ _ => decide (1 ≤ vf) && decide (vf ≤ 255) && decide (off < 0x1000) && off % 4 == 0
  | .cxlMemRequest write _ size data _ hits => transfer write size data && channelHits hits
  | .cxlSnoop addr => addr % 64 == 0
  | .tyzPortEnable _ n _ => isPort n
  | .tyzTrainComplete n _ => isPort n
  | .tyzTrainTimeout n => isPort n
  | .tyzLostRetrain n _ _ => isPort n
  | .tyzLaneFail n lane => isPort n && decide (lane < 9)
  | .tyzLanemapFlit n map => isPort n && decide (map < 2 ^ 9)
  | .tyzDataFlit n b => isPort n && decide (b.length = 256)
  | .tyzIdleFlit n b => isPort n && decide (b.length = 256)
  | .tyzNakFlit n b _ => isPort n && decide (b.length = 256)
  | .tyzAckTimeout n => isPort n
  | .tyzPacketRoute => true
  | .tyzRdReq hits => channelHits hits
  | .tyzRdRsp => true
  | .tyzWr hits => channelHits hits
  | .tyzWrAck => true
  | .tyzStream => true
  | .tyzCrd => true
  | .tyzAddI32 => true
  | .tyzAddF32 => true
  | .tyzMaxF32 => true
  | .tyzLseMerge => true
  | .tyzCollRes => true
  | .tyzMgmt _ => true
  | .tyzRmaTimeout tag _ => decide (tag < 2 ^ 16)
  | .alignFlitSend n _ => isPort n
  | .alignFlitReceive n _ _ => isPort n
  | .rtCopy _ => true
  | .ethDgramReceive k _ _ => decide (k < 2)
  | .ethRtoExpire d => decide (d < 8)
  | .ptpMessage k _ _ => decide (k < 2)
  | .policyAdaptWindow => true
  | .kvIdleEvict _ => true
  | .railSample mw _ => decide (mw.length = 8)
  | .emergThrottle sensors _ => decide (sensors.length = 64)
  | .thermtrip idx _ _ => decide (idx < 64)
  | .pwrfailAssert _ => true
  | .pwrfailRelease _ => true
  | .railFault k _ _ => decide (k < 8)
  | .acctBoundaryInSleep _ => true
  | .wallOfsWrite _ _ => true
  | .repairApplyWrite _ _ => true
  | .repairCopy q y _ => decide (q < 4) && decide (y < 32)
  | .repairSwap _ => true
  | .swapWaitExpire _ => true
  | .repairNvRetry _ => true
  | .repairClear _ _ => true
  | .coreHeartbeatMiss k _ => isCore k
  | .coreLoad k _ size hits _ => isCore k && [1, 2, 4, 8].contains size && upsetsOk hits
  | .coreStore k _ data hits _ _ _ _ => isCore k && [1, 2, 4, 8].contains data.length && upsetsOk hits
  | .l1dEvict k _ hits _ => isCore k && upsetsOk hits
  | .l1iMiss k _ _ _ => isCore k
  | .coreLr k _ size hits _ => isCore k && [4, 8].contains size && upsetsOk hits
  | .coreSc k _ data hits _ => isCore k && [4, 8].contains data.length && upsetsOk hits
  | .busRd hits _ => upsetsOk hits
  | .busRdx hits _ => upsetsOk hits
  | .busUpgr hits _ => upsetsOk hits
  | .busRdcur _ line hits _ => decide (line < 131072) && upsetsOk hits
  | .busWb hits _ => upsetsOk hits
  | .busWrinv off data hits _ => off % 64 == 0 && decide (data.length = 64) && upsetsOk hits
  | .busWrmrg off data hits _ => decide (off % 64 + data.length ≤ 64) && upsetsOk hits
  | .dataSupply _ => true
  | .homeTimeout _ => true
  | .por => true
  | .boardReset _ => true
  | .rstGrid _ => true
  | .rstCluster _ => true
  | .rstDevice _ => true
  | .powerUpSequence => true
  | .boot b => decide (b.density ≤ 40) && b.places.all Placement.wf
  | .stageDataWrite _ _ => true
  | .stageGo _ places => places.all Placement.wf
  | .flashOpStart => true
  | .flashEraseComplete _ => true
  | .flashProgramComplete _ => true
  | .nvUpdGo _ _ _ _ => true
  | .nvAcctAck _ _ => true
  | .nvAuditAck _ _ => true
  | .secVerMinWrite _ _ => true
  | .wdtService _ _ => true
  | .wdtExpire _ => true
  | .wdtClockExpire _ _ => true
  | .wdtStage2 _ => true
  | .wdtHoldExpire _ => true
  | .traceEnable _ => true
  | .traceRingWrite => true
  | .traceFwRec _ _ => true
  | .traceDumpGo _ => true
  | .traceDumpAck _ => true
  | .jtagIdcode => true
  | .jtagBypass => true
  | .jtagSamplePreload _ _ => true
  | .jtagExtest => true
  | .jtagClamp => true
  | .jtagHighz => true
  | .debugCoreHalt k _ => isCore k
  | .uartRegAccess _ addr _ _ _ _ _ => wordAddr addr
  | .pldmSensorRead sensor => decide (sensor ≤ 65)
  | .pldmEffecterWrite w _ => decide (w < 2048)
  | .pldmPowerWake _ => true
  | .sessOpen _ role key => decide (role < 4) && decide (key < 16)
  | .sessResp _ _ => true
  | .sessClose _ => true
  | .sessIdleClose k _ => decide (k < 4)
  | .nonceExpire k _ => decide (k < 4)
  | .lockoutExpire k _ => decide (k < 4)
  | .keyWrite _ slot => decide (slot < 21)
  | .keyRevoke _ slot => decide (slot < 21)
  | .keyClaim _ => true
  | .keyBurnComplete _ => true
  | .mfuseGo _ _ => true
  | .lcGo _ target => decide (target < 5)
  | .attestNonceWrite _ _ => true
  | .calSave _ => true
  | .calClearAll _ => true
  | .lpReqSleep _ => true
  | .lpReqStandby _ => true
  | .lpReqRun _ => true
  | .sleepEnter => true
  | .standbyEnter => true
  | .sleepExitReady _ => true
  | .bisnpResponse k _ _ => decide (k < 32)
  | .migrationResume k => decide (k < 32)
  | .tc0AgePromote n => isPort n
  | .ethLinkDown k => decide (k < 2)
  | .ethLinkUp k => decide (k < 2)
  | .refclkSysLost => true
  | .debugCoreResume k _ => isCore k
  | .lcBurnComplete => true
  | .msixVectorUnmask fn vec _ _ => decide (fn ≤ 256) && decide (vec < (if fn = 0 then 64 else 2048))
  | .sriovVfEnable n _ => decide (n ≤ 255)
  | .hdmDecoderCommit _ => true
  | .heldRelease _ => true

end Sys2Proof
end

