-- ==== Sys2Proof/Tests/Slice0.lean ====
section
/-! SUPPORT. Tests: the well-formedness check refuses ill-formed commands; witnesses that the hypotheses of the statements can be met; values
the spec works out. -/
open Sys2Proof Sys2Proof.Machine
namespace Sys2Proof.Tests
set_option Elab.async false

/-! ### The well-formedness check refuses an ill-formed term for each of its conditions -/

/-- A well-formed operation. -/
def goodOp : OpFields := ⟨1, 4, 1, 2, 3, 0, 0, 0, 0, 16, 0, 0, 0, 0⟩
/-- A well-formed placement. -/
def goodPlace : Placement := ⟨0, 0, 0, [], [], [], [], [], [], []⟩
/-- A well-formed boot. -/
def goodBoot : BootInfo := ⟨true, false, false, 28, [], [], [], [], 0⟩

theorem test_wf_refuses_01_regWrite : ([.regWrite ⟨.fw, 0⟩ 2 0 (List.replicate 64 0) .failed [],
    .errLogClear ⟨.fw, 0⟩ 0x4000,
    .tick [] [] ⟨[], none⟩,
    .tick (List.replicate 64 0) [] ⟨[], some 10⟩,
    .tick (List.replicate 64 0) [(16, 0)] ⟨[], none⟩,
    .drainComplete 0 ⟨0, [(0, 2048)]⟩,
    .meshPacketArrive 2176 0 (.data 0 [] []) ⟨0, []⟩,
    .meshPacketArrive 0 1024 (.data 0 [] []) ⟨0, []⟩,
    .meshPacketArrive 0 0 (.data (2 ^ 128) [] []) ⟨0, []⟩,
    .meshPacketArrive 0 0 (.data 0 [] []) ⟨(2 ^ 128), []⟩] : List Instr).all (fun c => !c.wf) = true := by decide +kernel

theorem test_wf_refuses_02_mcForward : ([.mcForward 2176,
    .redMergeAddI32 2176 0 0 0,
    .redMergeAddI32 0 1024 0 0,
    .redMergeAddI32 0 0 70000 0,
    .redMergeAddI32 0 0 0 1024,
    .linkCreditReturn 2176 0 0 1,
    .linkCreditReturn 0 1024 0 1,
    .linkCreditReturn 0 0 1024 1] : List Instr).all (fun c => !c.wf) = true := by decide +kernel

theorem test_wf_refuses_03_spAccessGrant : ([.spAccessGrant 2176 1 true 0 4 (List.replicate 4 0) [] [(⟨5, .ce, 0⟩ : Upset)],
    .spAccessGrant 0 1024 true 0 4 (List.replicate 4 0) [] [(⟨5, .ce, 0⟩ : Upset)],
    .spAccessGrant 0 1 true (2 ^ 32) 4 (List.replicate 4 0) [] [(⟨5, .ce, 0⟩ : Upset)],
    .spAccessGrant 0 1 true 0 0 (List.replicate 4 0) [] [(⟨5, .ce, 0⟩ : Upset)],
    .spAccessGrant 0 1 true 0 4 (List.replicate 3 0) [] [(⟨5, .ce, 0⟩ : Upset)],
    .spAccessGrant 0 1 true 0 4 (List.replicate 4 0) [] [(⟨5, .clean, 0⟩ : Upset)],
    .spAccessGrant 0 1 true 0 4 (List.replicate 4 0) [] [(⟨5, .ue, 2 ^ 72⟩ : Upset)],
    .ceWriteback 2176 0] : List Instr).all (fun c => !c.wf) = true := by decide +kernel

theorem test_wf_refuses_04_ceWriteback : ([.ceWriteback 0 70000,
    .scrubVisit 2176 [(⟨5, .ce, 0⟩ : Upset)],
    .scrubVisit 0 [(⟨5, .clean, 0⟩ : Upset)],
    .scrubVisit 0 [(⟨5, .ue, 2 ^ 72⟩ : Upset)],
    .mxLoadw 2176 1 goodOp ⟨[(⟨5, .ce, 0⟩ : Upset)], [], []⟩,
    .mxLoadw 0 1024 goodOp ⟨[(⟨5, .ce, 0⟩ : Upset)], [], []⟩,
    .mxLoadw 0 1 ({ goodOp with opcode := 256 }) ⟨[(⟨5, .ce, 0⟩ : Upset)], [], []⟩,
    .mxLoadw 0 1 goodOp ⟨[(⟨5, .clean, 0⟩ : Upset)], [], []⟩] : List Instr).all (fun c => !c.wf) = true := by decide +kernel

theorem test_wf_refuses_05_descLoad : ([.descLoad 0 { goodPlace with ctx := 4 } (List.replicate 64 0),
    .descLoad 0 goodPlace (List.replicate 3 0),
    .imageReadFail 0 .ok 0,
    .streamDataArrive 2176 (.data 0 [] []),
    .streamDataArrive 0 (.data (2 ^ 128) [] []),
    .crdTimerReturn 2176 1 0,
    .crdTimerReturn 0 1024 0,
    .streamDbWrite ⟨.fw, 0⟩ 1024 0] : List Instr).all (fun c => !c.wf) = true := by decide +kernel

theorem test_wf_refuses_06_seWrite : ([.seWrite 1024 0 [(0, (⟨5, .ce, 0⟩ : Upset))],
    .seWrite 0 0 [(0, (⟨5, .clean, 0⟩ : Upset))],
    .seMigrateOut 1024 0 [(⟨5, .ce, 0⟩ : Upset)] [(0, (⟨5, .ce, 0⟩ : Upset))],
    .seMigrateOut 0 0 [(⟨5, .clean, 0⟩ : Upset)] [(0, (⟨5, .ce, 0⟩ : Upset))],
    .seMigrateOut 0 0 [(⟨5, .ue, 2 ^ 72⟩ : Upset)] [(0, (⟨5, .ce, 0⟩ : Upset))],
    .seMigrateOut 0 0 [(⟨5, .ce, 0⟩ : Upset)] [(0, (⟨5, .clean, 0⟩ : Upset))],
    .channelBringup 1024 ⟨0, 0, false, false, 0, 0, 0, 0⟩ true,
    .memWcrcError 1024 0 true true] : List Instr).all (fun c => !c.wf) = true := by decide +kernel

theorem test_wf_refuses_07_memWcrcError : ([.memWcrcError 0 0 false true,
    .moduleScrubVisit 1024 [(0, (⟨5, .ce, 0⟩ : Upset))],
    .moduleScrubVisit 0 [(0, (⟨5, .clean, 0⟩ : Upset))],
    .channelLost 1024 0,
    .channelLost 0 1024,
    .pressCmdIssue 1024 0 0,
    .pressCmdIssue 0 1024 0,
    .pressCmdAccept 1024 0 0 0] : List Instr).all (fun c => !c.wf) = true := by decide +kernel

theorem test_wf_refuses_08_pressCmdAccept : ([.pressCmdAccept 0 1024 0 0,
    .pressCmdAccept 0 0 1024 0,
    .hostLinkTrain 0 16 true 0 0,
    .hostLinkTrain 1 3 true 0 0,
    .flrVf 0 0,
    .dbSqTail 256 0 4 0 0,
    .dbSqTail 1 1024 4 0 0,
    .dbSqTail 1 0 0 0 0] : List Instr).all (fun c => !c.wf) = true := by decide +kernel

theorem test_wf_refuses_09_sqFetch : ([.sqFetch 1024,
    .sqFetchComplete 1024 (List.replicate 64 0) (List.replicate 4 0) .failed .failed 0,
    .vfWindowWrite 0 0 0 0 0,
    .vfWindowWrite 1 0 2 0 0,
    .cxlSnoop 2,
    .tyzPortEnable ⟨.fw, 0⟩ 1024 0,
    .tyzLaneFail 1024 0,
    .tyzLaneFail 1 1024] : List Instr).all (fun c => !c.wf) = true := by decide +kernel

theorem test_wf_refuses_10_tyzLanemapFlit : ([.tyzLanemapFlit 1024 0,
    .tyzLanemapFlit 1 1024,
    .tyzDataFlit 1024 (List.replicate 256 0),
    .tyzDataFlit 1 (List.replicate 3 0),
    .tyzRdReq [(0, (⟨5, .clean, 0⟩ : Upset))],
    .tyzRmaTimeout 70000 0,
    .ethDgramReceive 1024 (List.replicate 256 0) true,
    .ethRtoExpire 1024] : List Instr).all (fun c => !c.wf) = true := by decide +kernel

theorem test_wf_refuses_11_railSample : ([.railSample [] 0,
    .emergThrottle [] 0,
    .thermtrip 1024 0 0,
    .railFault 1024 0 0,
    .repairCopy 1024 0 0,
    .repairCopy 0 1024 0,
    .coreHeartbeatMiss 1024 0,
    .coreLoad 1024 0 4 [(⟨5, .ce, 0⟩ : Upset)] 0] : List Instr).all (fun c => !c.wf) = true := by decide +kernel

theorem test_wf_refuses_12_coreLoad : ([.coreLoad 0 0 0 [(⟨5, .ce, 0⟩ : Upset)] 0,
    .coreLoad 0 0 4 [(⟨5, .clean, 0⟩ : Upset)] 0,
    .coreLoad 0 0 4 [(⟨5, .ue, 2 ^ 72⟩ : Upset)] 0,
    .coreStore 1024 0 (List.replicate 4 0) [(⟨5, .ce, 0⟩ : Upset)] (List.replicate 64 0) .failed [] 0,
    .coreStore 0 0 (List.replicate 3 0) [(⟨5, .ce, 0⟩ : Upset)] (List.replicate 64 0) .failed [] 0,
    .coreStore 0 0 (List.replicate 4 0) [(⟨5, .clean, 0⟩ : Upset)] (List.replicate 64 0) .failed [] 0,
    .coreStore 0 0 (List.replicate 4 0) [(⟨5, .ue, 2 ^ 72⟩ : Upset)] (List.replicate 64 0) .failed [] 0,
    .l1dEvict 1024 0 [(⟨5, .ce, 0⟩ : Upset)] 0] : List Instr).all (fun c => !c.wf) = true := by decide +kernel

theorem test_wf_refuses_13_l1dEvict : ([.l1dEvict 0 0 [(⟨5, .clean, 0⟩ : Upset)] 0,
    .l1dEvict 0 0 [(⟨5, .ue, 2 ^ 72⟩ : Upset)] 0,
    .coreLr 1024 0 4 [(⟨5, .ce, 0⟩ : Upset)] 0,
    .coreLr 0 0 0 [(⟨5, .ce, 0⟩ : Upset)] 0,
    .coreLr 0 0 4 [(⟨5, .clean, 0⟩ : Upset)] 0,
    .coreLr 0 0 4 [(⟨5, .ue, 2 ^ 72⟩ : Upset)] 0,
    .coreSc 1024 0 (List.replicate 4 0) [(⟨5, .ce, 0⟩ : Upset)] 0,
    .coreSc 0 0 (List.replicate 3 0) [(⟨5, .ce, 0⟩ : Upset)] 0] : List Instr).all (fun c => !c.wf) = true := by decide +kernel

theorem test_wf_refuses_14_coreSc : ([.coreSc 0 0 (List.replicate 4 0) [(⟨5, .clean, 0⟩ : Upset)] 0,
    .coreSc 0 0 (List.replicate 4 0) [(⟨5, .ue, 2 ^ 72⟩ : Upset)] 0,
    .busRd [(⟨5, .clean, 0⟩ : Upset)] 0,
    .busRd [(⟨5, .ue, 2 ^ 72⟩ : Upset)] 0,
    .busRdcur true 131072 [(⟨5, .ce, 0⟩ : Upset)] 0,
    .busRdcur true 0 [(⟨5, .clean, 0⟩ : Upset)] 0,
    .busRdcur true 0 [(⟨5, .ue, 2 ^ 72⟩ : Upset)] 0,
    .busWrinv 2 (List.replicate 4 0) [(⟨5, .ce, 0⟩ : Upset)] 0] : List Instr).all (fun c => !c.wf) = true := by decide +kernel

theorem test_wf_refuses_15_busWrinv : ([.busWrinv 0 (List.replicate 3 0) [(⟨5, .ce, 0⟩ : Upset)] 0,
    .busWrinv 0 (List.replicate 4 0) [(⟨5, .clean, 0⟩ : Upset)] 0,
    .busWrinv 0 (List.replicate 4 0) [(⟨5, .ue, 2 ^ 72⟩ : Upset)] 0,
    .busWrmrg 0 (List.replicate 4 0) [(⟨5, .clean, 0⟩ : Upset)] 0,
    .busWrmrg 0 (List.replicate 4 0) [(⟨5, .ue, 2 ^ 72⟩ : Upset)] 0,
    .boot { goodBoot with density := 41 },
    .stageGo ⟨.fw, 0⟩ [{ goodPlace with ctx := 4 }],
    .pldmSensorRead 1024] : List Instr).all (fun c => !c.wf) = true := by decide +kernel

theorem test_wf_refuses_16_sessOpen : ([.sessOpen ⟨.fw, 0⟩ 1024 0,
    .sessOpen ⟨.fw, 0⟩ 0 1024,
    .sessIdleClose 1024 0,
    .keyWrite ⟨.fw, 0⟩ 1024,
    .lcGo ⟨.fw, 0⟩ 1024,
    .msixVectorUnmask 1024 0 0 0,
    .msixVectorUnmask 0 1024 0 0,
    .sriovVfEnable 1024 true] : List Instr).all (fun c => !c.wf) = true := by decide +kernel

theorem test_wf_refuses_17_linkCreditReturn : ([.linkCreditReturn 0 0 0 0,
    .sqFetchComplete 0 [] [] .ok .ok 0,
    .busWrmrg 1 (List.replicate 64 0) [] 0,
    .boot { goodBoot with places := [⟨4, 0, 0, [], [], [], [], [], [], []⟩] },
    .meshPacketArrive 0 0 (.data 0 [] []) ⟨0, [(⟨5, .clean, 0⟩ : Upset)]⟩,
    .meshPacketArrive 0 0 (.data 0 (List.replicate 1969 0) []) ⟨0, []⟩,
    .crdArrive 2176 (.data 0 [] []),
    .remoteAccessArrive 2176 0 0 false 0 8 [] [] []] : List Instr).all (fun c => !c.wf) = true := by decide +kernel

theorem test_wf_refuses_18_remoteAccessArrive : ([.remoteAccessArrive 0 2176 0 false 0 8 [] [] [],
    .remoteAccessArrive 0 0 256 false 0 8 [] [] [],
    .remoteAccessArrive 0 0 0 false 0 8 [] [] [(⟨5, .clean, 0⟩ : Upset)],
    .remoteAccessArrive 0 0 0 false 0 8 [] [] [(⟨5, .ue, 2 ^ 72⟩ : Upset)],
    .remoteReadResponse 2176 0 [] [] false,
    .remoteReadResponse 0 4 [] [] false,
    .bar4ScratchpadAccess true (2 ^ 30) 4 ⟨(List.replicate 4 0), false⟩ [],
    .bar4ScratchpadAccess true 0 0 ⟨[], false⟩ [],
    .bar4ScratchpadAccess true 0 4 ⟨[], false⟩ [],
    .bar4ScratchpadAccess false 0 4 ⟨[], true⟩ [],
    .bar4ScratchpadAccess false 0 4 ⟨[], false⟩ [(⟨5, .clean, 0⟩ : Upset)]] : List Instr).all (fun c => !c.wf) = true := by decide +kernel

theorem test_wf_refuses_19_bar4MemoryAccess : ([.bar4MemoryAccess 257 0 false 0 4 ⟨[], false⟩ [],
    .bar4MemoryAccess 0 8 false 0 4 ⟨[], false⟩ [],
    .bar4MemoryAccess 0 0 false 0 0 ⟨[], false⟩ [],
    .bar4MemoryAccess 0 0 true 0 4 ⟨[], false⟩ [],
    .bar4MemoryAccess 0 0 false 0 4 ⟨[], true⟩ [],
    .bar4MemoryAccess 0 0 false 0 4 ⟨[], false⟩ [(16, ⟨5, .ce, 0⟩)],
    .cxlMemRequest true 0 4 [] false [],
    .cxlMemRequest false 0 0 [] false []] : List Instr).all (fun c => !c.wf) = true := by decide +kernel

theorem test_wf_refuses_20_cxlMemRequest : ([.cxlMemRequest false 0 4 [] false [(0, ⟨5, .clean, 0⟩)],
    .tokenArrive 2176 0 0 0 false,
    .tokenArrive 0 4 0 0 false,
    .tokenArrive 0 0 8 0 false,
    .tokenArrive 0 0 0 65536 false,
    .bisnpResponse 32 0 ⟨0, []⟩,
    .moduleReadReturn 0 0 0 [] .ok [(16, ⟨5, .ce, 0⟩)],
    .repairCopy 4 0 0,
    .repairCopy 0 32 0] : List Instr).all (fun c => !c.wf) = true := by decide +kernel

/-! ### Small states -/

/-- The block after reset. -/
def rs : State := State.reset
/-- Firmware runs on all eight cores, with the frame engine enabled as reset leaves it, before any tick. -/
def running : State := { rs.setFld pgCluster R.cluster_CORE_STS 0 with sys := { rs.sys with booted := true } }
/-- The frame engine is disabled. -/
def stopped : State := running.setFld pgFrame R.hdr_CTL_ENABLE 0
/-- A maker session is open on PF0. -/
def maker : State := rs.setSess 0 { Sess.zero with
  state := 2
  role := 2 }
/-- Firmware and PF0 at instant 0. -/
def fw : Req := ⟨.fw, 0⟩
def pf0 : Req := ⟨.pf0, 0⟩

/-- How a concrete state shows that a register write is performed. -/
theorem writes_of {s : State} {rq : Req} {addr : Nat} (k : PageKind)
    (h : ((vfOf rq addr).isNone && (s.onBus rq).busAnswers rq.iface && (s.onBus rq).mayWrite rq.iface (addr / 0x1000) (addr % 0x1000)
      && !((s.onBus rq).audits rq.iface (addr / 0x1000) (addr % 0x1000) && (s.onBus rq).auditFull)
      && decide (pageKind (addr / 0x1000) = some k) && (decide (k ≠ .cell)
        || decide (((s.onBus rq).logicalOf (addr / 0x1000 - pageBase k)).1 = 0) || cellKept (addr % 0x1000))) = true) : s.writes rq addr := by
  simp only [Bool.and_eq_true, Bool.or_eq_true, decide_eq_true_eq, Bool.not_eq_true'] at h
  obtain ⟨⟨⟨⟨⟨o, a⟩, b⟩, c⟩, d⟩, e⟩ := h
  exact ⟨Option.isNone_iff_eq_none.mp o, a, b, c, k, d, fun hk => by rcases e with (e | e) | e; exacts [absurd hk e, .inl e, .inr e]⟩

/-! ### Witnesses: concrete states that meet the hypotheses of each statement -/

theorem test_StepRunsFrontCommand : rs.pending = [] ∧ step rs = .next rs := ⟨rfl, rfl⟩
theorem test_CommandsLeaveTheQueue : ∃ t, exec (.cxlSnoop 0) rs = .next t ∧ t.pending = rs.pending := ⟨_, rfl, rfl⟩
theorem test_RegisterFileStaysCanonical : regsWf rs.regs ∧ ∃ t, step { rs with pending := [.cxlSnoop 0] } = .next t ∧ t.regs = rs.regs :=
  ⟨by refine ⟨by decide, ?_⟩; decide +kernel, _, rfl, rfl⟩
theorem test_FieldReadsBack_top : (R.hdr_CTL_ENABLE).lo ≤ (R.hdr_CTL_ENABLE).hi ∧ (R.hdr_CTL_ENABLE).hi < 32
    ∧ (rs.setFld pgFrame ⟨0x48, 31, 0⟩ 0xFFFFFFFF).fld pgFrame ⟨0x48, 31, 0⟩ = 0xFFFFFFFF := by decide +kernel
theorem test_WriteWithoutRight : vfOf pf0 0x104C = none ∧ (rs.onBus pf0).busAnswers .pf0 = true ∧ pageKind 0x23FF ≠ none ∧ (rs.onBus pf0).mayWrite .pf0 0x1 0x4C = false
    ∧ ¬ (0x28000 ≤ 0x104C ∧ 0x104C < 0x30000) ∧ pageKind (0x104C / 0x1000) ≠ none := by decide +kernel
theorem test_ReadWithoutRight : ∃ a, ¬ (0x28000 ≤ a ∧ a < 0x31000) ∧ vfOf ⟨.fn, 0⟩ a = none ∧ (rs.onBus ⟨.fn, 0⟩).readAnswers .fn a = true
    ∧ (rs.onBus ⟨.fn, 0⟩).mayRead .fn (a / 0x1000) (a % 0x1000) = false := ⟨0xD0CC, by decide +kernel⟩
/-- A full audit log: FULL is set and 64 audit records wait for a sector. -/
def logFull : State := { maker.setRegBit 0xC098 1 true with nv := { maker.nv with held := List.replicate 64 ⟨5, [], .nothing, 0⟩ } }
theorem test_AuditedWriteWaitsForRoom : ¬ (0x28000 ≤ 0xD224 ∧ 0xD224 < 0x30000) ∧ vfOf pf0 0xD224 = none ∧ (logFull.onBus pf0).busAnswers .pf0 = true ∧ pageKind (0xD224 / 0x1000) ≠ none
    ∧ (logFull.onBus pf0).mayWrite .pf0 (0xD224 / 0x1000) (0xD224 % 0x1000) = true
    ∧ (logFull.onBus pf0).audits .pf0 (0xD224 / 0x1000) (0xD224 % 0x1000) = true ∧ (logFull.onBus pf0).auditFull = true := by decide +kernel
theorem test_RegisterWrites : rs.writes fw 0x1048 ∧ rs.writes fw 0xA024 ∧ rs.writes fw 0xA008 ∧ rs.writes ⟨.uart, 0⟩ 0xD060 :=
  ⟨writes_of .frame (by decide +kernel), writes_of .ras (by decide +kernel), writes_of .ras (by decide +kernel), writes_of .rind (by decide +kernel)⟩
/-- The host link is in L0 at x16, with 255 VFs. -/
def linkUp : State := (running.setFld pgHost R.host_LINK_STS 1).setFld pgHost R.host_SRIOV (255 + 2 ^ 16)
/-- The host's functions at instant 0. -/
def fns : Req := ⟨.fn, 0⟩
theorem test_FunctionWrites : (linkUp.advance 0).busAnswers .fn = true ∧ vfOf fns (255 * 2 ^ 26 + 0x84) = some 255 ∧ (linkUp.advance 0).vfEnabled 255 = true
    ∧ vfOf fns 0x28000 = none ∧ msixFn .fn = some 1 ∧ vfOf fns 0x2FFFC = none := by decide +kernel
theorem test_RegisterReads : (rs.onBus fw).readAnswers .fw 0x1048 = true ∧ vfOf fw 0x1048 = none ∧ ((rs.advance 0).touch .uart).busAlive = true
    ∧ (linkUp.onBus fns).readAnswers .fn (2 ^ 26) = true ∧ vfOf fns (2 ^ 26) = some 1 ∧ (linkUp.onBus fns).vfEnabled 1 = true := by decide +kernel
theorem test_LowWordRead_latches : ¬ (0x28000 ≤ 0x1048 ∧ 0x1048 < 0x31000) ∧ rs.mayRead .fw (0x1048 / 0x1000) (0x1048 % 0x1000) = true
    ∧ isPart .low (0x1048 / 0x1000) (0x1048 % 0x1000) = true := by decide +kernel
theorem test_HighWordRead_of_latch : rs.mayRead .fw (0x104C / 0x1000) (0x104C % 0x1000) = true ∧ isPart .low (0x104C / 0x1000) (0x104C % 0x1000) = false
    ∧ mapGet none { rs with bus := { rs.bus with latch := [(0x104C, some 7)] } }.bus.latch 0x104C = some 7 := by decide +kernel
theorem test_CounterSaturates : R.hdr_ERR_CNT.off ≠ 0x40 ∧ (rs.reg (pgFrame * 0x1000 + R.hdr_ERR_CNT.off)).toNat + 1 < 2 ^ 32
    ∧ 2 ^ 32 ≤ ((rs.setReg (pgFrame * 0x1000 + R.hdr_ERR_CNT.off) 0xFFFFFFFF).reg (pgFrame * 0x1000 + R.hdr_ERR_CNT.off)).toNat + 1
    ∧ rs.regBit (pgFrame * 0x1000 + 0x40) 31 = false ∧ (rs.setRegBit (pgFrame * 0x1000 + 0x40) 31 true).regBit (pgFrame * 0x1000 + 0x40) 31 = true := by
  decide +kernel
theorem test_FirstErrorCaptureHolds :
    ((rs.setRegBit 0x1024 31 true).bump pgFrame R.hdr_ERR_CNT 31 1).regBit (pgFrame * 0x1000 + 0x24) 31 = true := by decide +kernel
theorem test_TimebaseAndEpochWrites : stopped.writes fw 0x104C ∧ stopped.writes fw 0x1074 ∧ (stopped.onBus fw).fld pgFrame R.hdr_CTL_ENABLE = 0
    ∧ running.writes fw 0x104C ∧ (running.onBus fw).fld pgFrame R.hdr_CTL_ENABLE ≠ 0 :=
  ⟨writes_of .frame (by decide +kernel), writes_of .frame (by decide +kernel), by decide +kernel, writes_of .frame (by decide +kernel), by decide +kernel⟩
theorem test_FrameEngineEnable : stopped.writes fw 0x1008 ∧ running.writes fw 0x1008 :=
  ⟨writes_of .frame (by decide +kernel), writes_of .frame (by decide +kernel)⟩
/-- In RECOVERY, no firmware booted. -/
def recovering : State := { rs with sys := { rs.sys with recovery := true } }
theorem test_TickCompletes : running.frameOn = true ∧ running.sys.booted = true ∧ running.sys.lpPhase ≠ .accepted ∧ running.sys.tickRest = none
    ∧ recovering.frameOn = true ∧ recovering.sys.recovery = true ∧ recovering.sys.lpPhase ≠ .accepted ∧ recovering.sys.tickRest = none := by decide +kernel
/-- The power-state code of LP_STS. -/
def lpState (n : Nat) : State := running.setFld pgPower R.power_LP_STATE n
theorem test_NoTickWhileStopped : stopped.fld pgFrame R.hdr_CTL_ENABLE = 0 ∧ 4 ≤ (lpState 4).fld pgPower R.power_LP_STATE
    ∧ (lpState 3).fld pgPower R.power_LP_STATE = 3 ∧ (lpState 3).resetInSleep = false
    ∧ { lpState 3 with sys := { (lpState 3).sys with rst := some (0, 0) } }.resetInSleep = true
    ∧ { rs with sys := { rs.sys with cut := some 0 } }.sys.cut ≠ none := by decide +kernel
theorem test_TimebaseNeverRunsBackwards : rs.sys.refLost = false ∧ before rs.tb 1 = true ∧ before rs.tb rs.tb = false := by decide +kernel

/-- Section 7 of one cell at the grid's corner, in context 0 and region 1. -/
def sect : Sect := ⟨7, 1, 0, 0, 0, 1, 1, 100, 10, 0, [], [], [], goodPlace, [], true, false, [], [], false, [], []⟩
/-- A run of section 7 that starts 10 µs after the epoch. -/
def aRun (ph : RunPhase) : Run := ⟨1, 7, 0, 10000, 0, ph, false, 0, none, false, 0, false, 0, 0⟩
/-- The cell at the corner holds a context in a state, that fires NOP without a guard. -/
def nopEntry : Trigger := ⟨0, false, 0, 0, 0, 0, 0, 0, false, false, false, 0, 0, 0, false, ⟨0, 0, 0, 0, 0, 0, 0, 0, 0, 0, 0, 0, 0, 0⟩⟩
def ctxIn (st : CtxState) : Ctx := { Ctx.blank with
  state := st
  w := 1
  h := 1
  region := 1
  bound := 64
  trig := [nopEntry] }
/-- The section is loaded, its context is in a state, and its run in a phase. -/
def withRun (st : CtxState) (ph : RunPhase) : State :=
  { running.setCtx 0 0 (ctxIn st) with work := { running.work with
    sects := [sect]
    runs := [aRun ph] } }

/-- The run of section 7 has started at its instant. -/
def started (st : CtxState) (ph : RunPhase) : State := (withRun st ph).advance 10000
theorem test_RunsStart : (withRun .ready .scheduled).frameOn = true
    ∧ ((withRun .ready .scheduled).work.runs.find? fun r => r.sid == 7 && r.phase == .scheduled) = some (aRun .scheduled)
    ∧ (withRun .ready .scheduled).sectById 7 = some sect ∧ (started .ready .scheduled).frameOn = true
    ∧ before 10000 (started .ready .scheduled).guardStart = true
    ∧ before (started .ready .scheduled).tb (started .ready .scheduled).guardStart = true
    ∧ (started .ready .scheduled).mayStart sect (aRun .scheduled) = true := by decide +kernel
/-- The cell holds a record and FIN is not set. -/
def recorded : State := (withRun .active .active).setCtx 0 0 { ctxIn .active with record := true }
theorem test_BudgetExpires : let s := withRun .active .active
    s.gridRuns = true ∧ s.runOf 7 = some (aRun .active) ∧ s.sectById 7 = some sect
    ∧ s.budgetFirst sect (aRun .active) = true ∧ (s.advance (s.expiry sect (aRun .active))).runComplete sect = true
    ∧ recorded.gridRuns = true ∧ recorded.runOf 7 = some (aRun .active) ∧ recorded.sectById 7 = some sect
    ∧ recorded.budgetFirst sect (aRun .active) = true
    ∧ (recorded.advance (recorded.expiry sect (aRun .active))).runComplete sect = false := by decide +kernel
theorem test_RunCompletes : let s := started .active .active
    (withRun .active .active).gridRuns = true ∧ s.runOf 7 = some (aRun .active) ∧ s.sectById 7 = some sect ∧ s.runComplete sect = true
    ∧ s.withinRun sect (aRun .active) = true := by decide +kernel
theorem test_DrainCompletes : let s := started .active .draining
    (withRun .active .draining).gridRuns = true ∧ s.runOf 7 = some (aRun .draining) ∧ s.sectById 7 = some sect ∧ s.opsDrained sect = true
    ∧ s.leaving sect = false ∧ s.merging 1 = false ∧ before s.tb (s.tickAt (s.frameNo + 1)) = true
    ∧ (withRun .active .draining).clocked = true ∧ (withRun .active .draining).runOf 7 = some (aRun .draining) := by decide +kernel
theorem test_RunIdleTimeout : let s := { (withRun .suspended .ended).setCtx 0 0 { ctxIn .suspended with idle := 64 } with work := (withRun .suspended .ended).work }
    s.clocked = true ∧ (s.work.runs.find? fun r => r.sid == 7 && s.idleOut r) = some (aRun .ended) := by decide +kernel
theorem test_HeldRelease : (withRun .held .ended).sectById 7 = some sect
    ∧ (((withRun .held .ended).sectPositions sect).any fun pos => ((withRun .held .ended).ctx pos 0).state == .held) = true := by decide +kernel

/-- PTP disciplines the timebase; the source is lost or not. -/
def byPtp (lost : Bool) : State := { running.setFld pgFrame R.frame_TB_SRC 1 with disc := { running.disc with srcLost := lost } }
theorem test_SourceLost : let s := (byPtp false).advance 10000000
    s.discSource ≠ 0 ∧ s.disc.srcLost = false ∧ s.frameOn = true ∧ 10000000 ≤ (s.tb - s.disc.lastValid).toNat := by decide +kernel
theorem test_HoldoverExpires : let s := (byPtp true).advance 0xFFFFFFFFFFFF
    s.disc.srcLost = true ∧ s.disc.byHoldover = false
    ∧ s.fld pgFrame R.frame_ALIGN_HOLDOVER_MS * 1000000 ≤ (s.tb - s.disc.lostAt).toNat := by decide +kernel
theorem test_AlignRecovers : let s := { rs.setRegBit frameSts 2 true with disc := { rs.disc with okTicks := 16 } }
    s.alignLost = true ∧ 16 ≤ s.disc.okTicks := by decide +kernel
/-- FRAME_SYNC_IN is in use. -/
def pinUsed (es : List (Dword × Nat × Int)) : State :=
  { running.setFld pgFrame R.frame_SYNC_MODE 1 with disc := { running.disc with edges := es } }
theorem test_SyncInEdge : (rs.advance 0).fld pgFrame R.frame_SYNC_MODE = 0
    ∧ ((pinUsed []).advance 0).fld pgFrame R.frame_SYNC_MODE ≠ 0 ∧ ((pinUsed []).advance 0).frameOn = true := by decide +kernel
theorem test_SyncEdgeSelect : let s := (pinUsed [(0, 0, 0)]).advance 100000000
    s.disc.edges = (0, 0, 0) :: [] ∧ s.fld pgFrame R.frame_SYNC_MODE ≠ 0 ∧ s.frameOn = true
    ∧ before s.tb (s.tickAt 0 + BitVec.ofNat 64 (s.periodNs / 2)) = false
    ∧ (let t := { running with disc := { running.disc with edges := [(0, 0, 0)] } }.advance 0
      t.disc.edges = (0, 0, 0) :: [] ∧ t.fld pgFrame R.frame_SYNC_MODE = 0) := by decide +kernel
theorem test_PtpMessage : let s := (rs.setFld (pgEth 1) R.eth_PTP_EN 1).setRegBit (pgEth 1 * 0x1000 + 0x4C) 0 true
    s.clocked = true ∧ (s.advance 0).flag (pgEth 1) R.eth_PTP_EN = true ∧ (s.advance 0).regBit (pgEth 1 * 0x1000 + 0x4C) 0 = true := by decide +kernel
/-- Ports 14 and 15 are in service; this device is 5, ROOT0 and ROOT1 are devices `r0` and 8. -/
def portUp (r0 : Nat) : State := ((((running.setFld (pgTyz 15) R.tyz_STS 2).setFld (pgTyz 14) R.tyz_STS 2).setFld (pgTyz 0) R.tyz0_DEV_ID 5).setFld
  (pgTyz 0) R.tyz0_ALIGN0_ROOT0 r0).setFld (pgTyz 0) R.tyz0_ALIGN0_ROOT1 8
/-- A flit that announces a root. -/
def aFlit (root : Nat) : AlignFlit := ⟨root, 0, 0, 0, 0, 0, 250, 8, 0, 250, 8⟩
theorem test_AlignFlits : (portUp 5).clocked = true ∧ ((portUp 5).advance 0).portServes 15 = true
    ∧ (((portUp 5).advance 0).hearFlit 15 0 (aFlit 8)).selfRoot = true
    ∧ ((portUp 9).advance 0).portServes 15 = true ∧ (((portUp 9).advance 0).hearFlit 15 0 (aFlit 9)).selfRoot = false
    ∧ (((portUp 9).advance 0).hearFlit 15 0 (aFlit 9)).parentPort = 15
    ∧ (let s := (((portUp 9).advance 0).setPort 14 { TyzPort.zero with heard := some (9, 0, 0) })
      s.clocked = true ∧ (s.advance 0).portServes 15 = true ∧ ((s.advance 0).hearFlit 15 0 (aFlit 8)).selfRoot = false
      ∧ ((s.advance 0).hearFlit 15 0 (aFlit 8)).parentPort ≠ 15) := by decide +kernel
theorem test_DisabledDelay : let due := fun (s : State) => ((s.advance 10000).flushNotes).alive = true ∧ ((s.advance 10000).flushNotes).enabled = false
    let a := { stopped with bus := { stopped.bus with pageResets := [(8, 0)] } }
    let b := { stopped with sys := { stopped.sys with rst := some (0, 0) } }
    let c := { stopped with sys := { stopped.sys with lpReq := some (2, 0) } }
    (due a ∧ ((a.advance 10000).flushNotes).bus.pageResets.any (fun e => !before ((a.advance 10000).flushNotes).tb (e.2 + 10000)) = true)
    ∧ (due b ∧ ((b.advance 10000).flushNotes).sys.rst = some (0, 0) ∧ before ((b.advance 10000).flushNotes).tb (0 + 10000) = false)
    ∧ (due c ∧ ((c.advance 10000).flushNotes).sys.lpReq = some (2, 0) ∧ before ((c.advance 10000).flushNotes).tb (0 + 10000) = false) := by
  decide +kernel

/-- A packet is on its way into the corner router from the east. -/
def arriving (p : MeshPacket) (r : Router) : State := { rs.setRouter 0 r with grid := { (rs.setRouter 0 r).grid with flight := [(0, 2, p)] } }
/-- Packets of region 1: a stream's, a multicast of group 5, a contribution with TAG 2. -/
def unicast : MeshPacket := .data (mkHeader 2175 0 2 false 0 1 0 0 0) [] []
def multicast : MeshPacket := .data (mcHeader 0 0 1 0 5 0 0) [] []
def redPacket (op : Nat) : MeshPacket := .data (mkHeader 5 0 1 false op 1 2 0 0) [] []
/-- A router with a multicast entry of region 1, group 5, to the Local port, and packets that wait for it. -/
def mcRouter (ws : List MeshPacket) : Router := { Router.zero with
  waiting := ws.map fun p => (waitMulticast, p)
  mc := [(0, BitVec.ofNat 32 (2 ^ 31 + 5 * 2 ^ 8 + 1)), (1, 0x1000)] }
theorem test_MeshArrivals :
    (arriving unicast Router.zero).gridRuns = true ∧ (arriving unicast Router.zero).inOrder 0 2 unicast = true
    ∧ hcrcOf unicast.hdr = hHcrc unicast.hdr ∧ hMc unicast.hdr = false ∧ hVn unicast.hdr ≠ 1
    ∧ hcrcOf (unicast.hdr ^^^ 1) ≠ hHcrc (unicast.hdr ^^^ 1)
    ∧ (arriving multicast Router.zero).inOrder 0 2 multicast = true ∧ hcrcOf multicast.hdr = hHcrc multicast.hdr ∧ hMc multicast.hdr = true
    ∧ (Router.zero.mcEntry (hRegion multicast.hdr) (hMcg multicast.hdr) = none ∧ (mcRouter []).mcEntry (hRegion multicast.hdr) (hMcg multicast.hdr) ≠ none)
    ∧ (arriving (redPacket 1) Router.zero).inOrder 0 2 (redPacket 1) = true ∧ hcrcOf (redPacket 1).hdr = hHcrc (redPacket 1).hdr
    ∧ hMc (redPacket 1).hdr = false ∧ hVn (redPacket 1).hdr = 1 := by decide +kernel
theorem test_McForward : let s := rs.setRouter 7 (mcRouter [multicast])
    s.gridRuns = true ∧ ((s.router 7).waiting.find? fun w => w.1 == waitMulticast) = some (waitMulticast, multicast)
    ∧ (s.router 7).mcEntry (hRegion multicast.hdr) (hMcg multicast.hdr) = some 0x1000 := by decide +kernel
theorem test_LinkCredits : rs.gridRuns = true ∧ 0 ≤ (rs.router 2175).used 3 4 ∧ (rs.router 2175).used 3 4 < 1 := by decide +kernel
theorem test_Vn0AgePromote : let s := rs.setRouter 0 { Router.zero with waiting := [(3, .data 0 [] [])] }
    s.gridRuns = true ∧ ((s.router 0).waiting.find? fun w => decide (w.1 < 4) && hVn w.2.hdr == 0 && !(s.router 0).promoted.contains w.2)
      = some (3, .data 0 [] []) := by decide +kernel
theorem test_RouterPlaneFault : 2175 < 2176 ∧ rs.grid.on_ = true ∧ (rs.router 2175).planeFaults = 0
    ∧ ((rs.setRouter 2175 { Router.zero with planeFaults := 1 }).router 2175).planeFaults ≠ 0 := by decide +kernel

/-- A router whose entry of region 1, TAG 2 waits for ports 0 and 4, and holds both operands of SEQ 0. -/
def redRouter (op : Nat) : Router := { Router.zero with
  red := [(0, BitVec.ofNat 32 (2 ^ 31 + 2 * 2 ^ 8 + 1)), (1, 0x11), (2, BitVec.ofNat 32 (2 * 2 ^ 16 + 4 * 8))]
  pend := [⟨redKey 1 2, 0, [(0, redPacket op), (4, redPacket op)]⟩] }
theorem test_ReductionRows (op : Nat) (h : op = 1 ∨ op = 2 ∨ op = 3 ∨ op = 4) : let s := rs.setRouter 3 (redRouter op)
    s.gridRuns = true ∧ (s.router 3).redEntry 1 2 = some (0x11, 0x20020)
    ∧ ((s.router 3).pend.find? fun e => e.key == redKey 1 2) = some ⟨redKey 1 2, 0, [(0, redPacket op), (4, redPacket op)]⟩
    ∧ (childOrder 0x20020).filterMap (fun k => ([(0, redPacket op), (4, redPacket op)].find? fun o => o.1 == k).map (·.2))
      = redPacket op :: [redPacket op]
    ∧ (s.router 3).mergeReady ⟨redKey 1 2, 0, [(0, redPacket op), (4, redPacket op)]⟩ = true ∧ hOp (redPacket op).hdr = op := by
  rcases h with rfl | rfl | rfl | rfl <;> decide +kernel

/-- Context 0 of the corner cell may reach 64 KiB of its slice and the cells of a 2 by 1 section. -/
def spState : State := running.setCtx 0 0 { ctxIn .active with
  w := 2
  bound := 64 }
theorem test_SpAccess_slice : spState.gridRuns = true ∧ ((spState.strikeSlice 0 []).ctx 0 0).access 0xFFC0 64 = .slice 0xFFC0 := by decide +kernel
theorem test_SpAccess_remote : ((spState.strikeSlice 0 []).ctx 0 0).access (2 ^ 30 + 2 ^ 19) 64 = .remote 1 0 0 := by decide +kernel
theorem test_SpAccess_format_bound : ((spState.strikeSlice 0 []).ctx 0 0).access 1 2 = .format
    ∧ ((spState.strikeSlice 0 []).ctx 0 0).access 0x10000 1 = .bound := by decide +kernel
/-- A remote access, or a response with or without the error flag, is at the Local port of cell 1. -/
def aRemote (response err : Bool) : Remote := ⟨0, 0, 1, 1, false, response, err, 2 ^ 30 + 2 ^ 19, 0, 8⟩
def anAccess (response err : Bool) : MeshPacket := ⟨accessHeader 1 0 response 1 0, [], [], [], .access (aRemote response err)⟩
def atLocal (response err : Bool) : State := rs.setRouter 1 { Router.zero with localQ := [anAccess response err] }
theorem test_RemoteRows : (atLocal false false).gridRuns = true ∧ (atLocal false false).localAccess 1 false = some (anAccess false false, aRemote false false)
    ∧ (atLocal true true).localAccess 1 true = some (anAccess true true, aRemote true true) ∧ (aRemote true true).err = true
    ∧ (atLocal true false).localAccess 1 true = some (anAccess true false, aRemote true false) ∧ (aRemote true false).err = false := by decide +kernel
theorem test_CeWriteback : let s := rs.setCell 0 { Cell.zero with wbq := [(65535, [1])] }
    s.gridRuns = true ∧ ((s.cell 0).wbq.find? fun e => e.1 == 65535) = some (65535, [1]) := by decide +kernel
theorem test_ScrubRows : let s := { rs.setFld (pgCell 0) R.cell_SP_SCRUB_PERIOD_S 1 with tb := 1000000000 }
    s.fld (pgCell 0) R.cell_SP_SCRUB_PERIOD_S ≠ 0 ∧ s.gridRuns = true ∧ s.holdsLogical 0 = true
    ∧ s.fld (pgCell 0) R.cell_SP_SCRUB_PERIOD_S * 1000000000 ≤ (s.tb - s.passFrom 0).toNat := by decide +kernel

/-- An access to memory is performed. -/
def memOk : MemAns → Bool
  | .ok _ _ => true
  | .fail _ => false
theorem ok_of_memOk {a : MemAns} (h : memOk a = true) : ∃ t ps, a = .ok t ps := by
  cases a with
  | ok t ps => exact ⟨t, ps, rfl⟩
  | fail _ => cases h
theorem fail_of_memOk {a : MemAns} (h : memOk a = false) : ∃ f, a = .fail f := by
  cases a with
  | ok _ _ => cases h
  | fail f => exact ⟨f, rfl⟩
/-- Channel 0, with 32 GiB, is alone in the interleave set, in service or not; 1 GiB of it is exposed to the host. -/
def modState (serves : Bool) : State :=
  ((((rs.setRegBit (memStsAddr 0) 1 serves).setFld (pgMem 0) R.mem_ILV 1).setFld (pgMem 0) (R.mem_ILV.up 4) 32).setFld (pgMem 0) R.mem_HDM 1).setFld
    (pgMem 0) R.mem_SCRUB 1
theorem test_HostAccesses : rs.clocked = true ∧ rs.sys.tickRest = none ∧ 2048 * 524288 ≤ 2048 * 524288
    ∧ { rs with sys := { rs.sys with tickRest := some ⟨[], [], [], [], false, false⟩ } }.sys.tickRest ≠ none
    ∧ (rs.strikeModules []).bar4Address 0 0 0x3FFFFFFF = none ∧ (modState true).clocked = true ∧ (modState false).clocked = true := by decide +kernel
/-- In the last 64 bytes that BAR4 and the host-exposed range show, the memory answers or fails. -/
theorem test_HostAccesses_answered (serves : Bool) : let s0 := (modState serves).strikeModules []
    let a := 31 * 2 ^ 30 - 64
    s0.bar4Address 1 0 a = some a ∧ a + 64 ≤ s0.ilvSet.length * (s0.ilvS - s0.hdmBytes) ∧ a + 64 ≤ 0x100000000000
    ∧ (2 ^ 30 - 64) + 64 ≤ s0.ilvSet.length * s0.hdmBytes
    ∧ [a, a + 2 ^ 30].all (fun b => (memOk (s0.memWrite b (takePad 0 64 []) (fun _ _ => false) false) == serves)
      && (memOk (s0.memRead b 64 false) == serves)) = true := by
  cases serves <;> decide +kernel
theorem test_TriggerFire_and_Nop : (withRun .active .active).gridRuns = true ∧ (withRun .active .active).nextEntry 0 = some nopEntry ∧ nopEntry.op.opcode = 0 := by
  decide +kernel
/-- A token is on its way to TI 7 of context 0 of the corner cell, which is in a state and holds `k` tokens there. -/
def tokenTo (st : CtxState) (k : Nat) : State :=
  let s := (withRun .active .active).setCtx 0 0 ((ctxIn st).setQueue 7 (List.replicate k ⟨0, false⟩))
  { s with grid := { s.grid with tokens := [(0, 0, 7, ⟨1, false⟩)] } }
/-- The token is taken, and leaves a state of the context and a count of tokens. -/
def takes (s : State) (st : CtxState) (k : Nat) : Bool :=
  match s.takeToken 0 0 7 with
  | some (t, _) => decide ((t.ctx 0 0).state = st) && decide (((t.ctx 0 0).queue 7).length = k)
  | none => false
theorem test_TokenArrive : (tokenTo .active 3).gridRuns = true ∧ takes (tokenTo .active 3) .active 3 = true ∧ takes (tokenTo .active 4) .active 4 = true
    ∧ takes (tokenTo .empty 0) .empty 0 = true ∧ takes (tokenTo .loading 0) .loading 0 = true ∧ takes (tokenTo .held 0) .held 0 = true := by decide +kernel

/-- The matrix engine of the corner cell, of the active context of a run in progress. -/
def mxState (m : Machine.Matrix) : State := (withRun .active .active).setMatrix 0 m
def noUpset : EngineUpset := ⟨[], [], []⟩
theorem test_MxSwap : (((mxState { Machine.Matrix.zero with shadowComplete := true }).strikeSlice 0 []).cell 0).mx.shadowComplete = true
    ∧ (((mxState Machine.Matrix.zero).strikeSlice 0 []).cell 0).mx.shadowComplete = false := by decide +kernel
/-- The operand is read, with no poisoned granule. -/
def gotClean : Access (List Byte × List Nat) → Bool
  | .got _ (_, []) => true
  | _ => false
theorem got_of_gotClean {a : Access (List Byte × List Nat)} (h : gotClean a = true) : ∃ t bs, a = .got t (bs, []) := by
  cases a with
  | got t v => obtain ⟨bs, ps⟩ := v; cases ps with
    | nil => exact ⟨t, bs, rfl⟩
    | cons _ _ => cases h
  | waits => cases h
  | ended _ => cases h
theorem test_MxLoadw : (((mxState Machine.Matrix.zero).strikeSlice 0 []).cell 0).mx.shadowValid = false ∧ 0 % 64 = 0
    ∧ ∃ t bs, ((mxState Machine.Matrix.zero).strikeSlice 0 []).engRead 0 0 0 (groupBytes (((mxState Machine.Matrix.zero).strikeSlice 0 []).ctx 0 0).fmt 32) = .got t (bs, []) :=
  ⟨by decide +kernel, rfl, got_of_gotClean (by decide +kernel)⟩
theorem test_MxMac : ((mxState Machine.Matrix.zero).strikeSlice 0 []).macWaits 0 0 true = false
    ∧ 0 % blockBytes (((mxState Machine.Matrix.zero).strikeSlice 0 []).ctx 0 0).fmt = 0 ∧ 0 < 32 ∧ 32 ≤ 32
    ∧ ∃ t bs, ((mxState Machine.Matrix.zero).strikeSlice 0 []).engRead 0 0 0 (groupBytes (((mxState Machine.Matrix.zero).strikeSlice 0 []).ctx 0 0).fmt 32) = .got t (bs, []) :=
  ⟨by decide +kernel, by decide +kernel, by decide, by decide, got_of_gotClean (by decide +kernel)⟩
/-- The context's format and coupling, and the sub-tiles of a stalled emission. -/
def mxCtx (mxcfg : Nat) (late : List (List Slot)) (m : Machine.Matrix) : State := ((mxState m).setCtx 0 0 { ctxIn .active with
  mxcfg := mxcfg
  curdLate := late }).strikeSlice 0 []
theorem test_MxRead : ((mxCtx 0 [] Machine.Matrix.zero).ctx 0 0).curdLate = [] ∧ fmtKb ((mxCtx 0 [] Machine.Matrix.zero).ctx 0 0).fmt = false
    ∧ fmtKb ((mxCtx 2 [] Machine.Matrix.zero).ctx 0 0).fmt = true ∧ goodOp.final = false
    ∧ ((mxCtx 0 [[Slot.zero]] Machine.Matrix.zero).ctx 0 0).curdLate ≠ [] := by decide +kernel
theorem test_MxWaits : (((mxState { Machine.Matrix.zero with shadowValid := true }).strikeSlice 0 []).cell 0).mx.shadowValid = true
    ∧ (mxCtx 0xFFFFFFFF [] { Machine.Matrix.zero with a1 := { Bank.zero with taken := true } }).macWaits 0 0 true = true := by decide +kernel
theorem test_VectorFormats : vfmt 4 = some .f32 ∧ VFmt.isInt .f32 = false ∧ vfmt 8 = some .i8 ∧ VFmt.isInt .i8 = true ∧ vfmt 7 = some .i16 := by
  decide +kernel
/-- A write goes through. -/
def wrote : Access Unit → Bool
  | .got _ _ => true
  | _ => false
theorem got_of_wrote {a : Access Unit} (h : wrote a = true) : ∃ t, a = .got t () := by
  cases a with
  | got t v => exact ⟨t, rfl⟩
  | waits => cases h
  | ended _ => cases h
theorem test_VectorMoves : 0 < 16 ∧ 16 ≤ 16 ∧ 0 % VFmt.bytes .i16 = 0 ∧ bitsOf 0 3 2 ≠ 3 ∧ ¬ (bitsOf 0 1 0 = 3 ∧ bitsOf 0 7 4 = 15) ∧ 256 ≤ 256 ∧ 3 ≤ 3
    ∧ (∃ t bs, ((mxState Machine.Matrix.zero).strikeSlice 0 []).engRead 0 0 0 (16 * 16 * VFmt.bytes .i16) = .got t (bs, []))
    ∧ ∃ t, (((mxState Machine.Matrix.zero).strikeSlice 0 []).tileRead 0 0 0 [] (List.range 256)).engWrite 0 0 0
      (((((mxState Machine.Matrix.zero).strikeSlice 0 []).tileRead 0 0 0 [] (List.range 256)).ctx 0 0).tileBytes 0 256 .i16) [] = .got t () :=
  ⟨by decide, by decide, by decide, by decide, by decide, by decide, by decide, got_of_gotClean (by decide +kernel), got_of_wrote (by decide +kernel)⟩
theorem test_VxQst : 16 % 2 = 0 ∧ 0 < 16 ∧ 16 ≤ 16 ∧ ∃ t, (((mxState Machine.Matrix.zero).strikeSlice 0 []).tileRead 0 0 0 [] (List.range (32 * (16 / 2)))).engWrite 0 0 0
      (quantBytes true (((((mxState Machine.Matrix.zero).strikeSlice 0 []).tileRead 0 0 0 [] (List.range (32 * (16 / 2)))).ctx 0 0).quantized true 0 (16 / 2)))
      (poisonGranules 0 1 (quantPoison true (((((mxState Machine.Matrix.zero).strikeSlice 0 []).tileRead 0 0 0 [] (List.range (32 * (16 / 2)))).ctx 0 0).quantized true 0 (16 / 2))))
      = .got t () :=
  ⟨by decide, by decide, by decide, got_of_wrote (by decide +kernel)⟩
/-- VX_S2C of a 2 by 2 image of one F32 element a point, from 0 to 16. -/
def s2cOp : OpFields := { goodOp with
  opcode := 0x2F
  subop := 2
  n := 2
  ag := 2
  c30 := 1
  addr := 0
  addr2 := 16 }
theorem test_VxS2c : let s0 := (mxState Machine.Matrix.zero).strikeSlice 0 []
    s2cOk 2 2 2 1 = true ∧ s2cOk 4 4096 4096 64 = true ∧ 0 < 2 ^ 30 ∧ 16 < 2 ^ 30 ∧ 0 + 2 * 2 * 1 * s2cBytes 4 ≤ 16
    ∧ (s0.ctx 0 0).range 16 (2 * 2 * 1 * s2cBytes 4) = .slice 16 ∧ (s0.ctx 0 0).writeWaits (bitsOf 16 18 0) (2 * 2 * 1 * s2cBytes 4) = false := by
  decide +kernel
theorem test_VxS2c_got : (∃ t bs, ((mxState Machine.Matrix.zero).strikeSlice 0 []).engRead 0 0 0 (2 * 2 * 1 * s2cBytes 4) = .got t (bs, []))
    ∧ ∃ t, ((mxState Machine.Matrix.zero).strikeSlice 0 []).engWrite 0 0 16 (s2cImage s2cOp (List.replicate 16 0)) (s2cPoison s2cOp []) = .got t () :=
  ⟨got_of_gotClean (by decide +kernel), got_of_wrote (by decide +kernel)⟩
theorem test_VxPop : let s := (rs.setCtx 0 0 { ctxIn .active with curd := [[Slot.zero]] }).strikeSlice 0 []
    rs.gridRuns = true ∧ (s.ctx 0 0).curd = [Slot.zero] :: [] := by decide +kernel

/-- A fetched descriptor of tenant 0 whose SQ entry begins with its type. -/
def aDesc (type : Byte) : Desc := ⟨1, 0, 1, type :: List.replicate 63 0, [], 0, 0, .ready, 0, 0, 0, 0, false, 0, none, 0, [], [], 0, none, false,
  none, [], [], [], [], [], 0, 0, false⟩
def withDesc (x : Desc) : State := { running with work := { running.work with descs := [x] } }
theorem test_Descriptors : (withDesc (aDesc 2)).clocked = true ∧ (withDesc (aDesc 2)).desc 1 = some (aDesc 2) ∧ (aDesc 2).phase = .ready ∧ (aDesc 2).post = none
    ∧ (aDesc 2).type = 2 ∧ (aDesc 3).type = 3 ∧ (aDesc 1).type = 1 ∧ (withDesc (aDesc 3)).desc 1 = some (aDesc 3) ∧ (withDesc (aDesc 1)).desc 1 = some (aDesc 1) := by
  decide +kernel
/-- The image is read, or not. -/
def imageRead (r : State × Except Ending (List Byte)) : Bool :=
  match r.2 with
  | .ok _ => true
  | .error _ => false
theorem image_of_read {r : State × Except Ending (List Byte)} : (imageRead r = true → ∃ t bs, r = (t, .ok bs)) ∧ (imageRead r = false → ∃ t e, r = (t, .error e)) := by
  obtain ⟨t, v⟩ := r
  cases v with
  | ok b => exact ⟨fun _ => ⟨t, b, rfl⟩, fun h => by cases h⟩
  | error e => exact ⟨fun h => (by cases h), fun _ => ⟨t, e, rfl⟩⟩
/-- An image from the host is read; one in this device's memory, with no module, is not. -/
theorem test_ImageBytes : (∃ t bs, running.imageBytes 0 0 64 [] = (t, .ok bs)) ∧ ∃ t e, running.imageBytes 0 1 64 [] = (t, .error e) :=
  ⟨image_of_read.1 (by decide +kernel), image_of_read.2 (by decide +kernel)⟩
/-- A load of descriptor 1 into the corner cell. -/
def aLoad (accepted : Bool) : Load := ⟨some 1, [], goodPlace, 0, accepted, 7, 1, 1, none, none, false⟩
def withLoad (accepted : Bool) : State := { running with work := { running.work with loads := [aLoad accepted] } }
theorem test_Loads : (withLoad false).clocked = true ∧ (withLoad false).loadOf 1 = some (aLoad false) ∧ (withLoad false).grid.on_ = true
    ∧ (withLoad false).grid.heldReset = false ∧ (withLoad false).ctxFree 0 0 0 1 1 = true ∧ ((withLoad false).clearWay (aLoad false)).freeRegion = some 0
    ∧ (withLoad true).loadOf 1 = some (aLoad true) ∧ (aLoad true).verified = none ∧ ReadEnd.failed ≠ .ok := by decide +kernel
/-- A stream's data and a CRD wait at the Local port of cell 1. -/
def crd : MeshPacket := crdPacket 0 1 1 5 0 1
theorem test_StreamPackets : let s := rs.setRouter 1 { Router.zero with localQ := [unicast, crd] }
    s.gridRuns = true ∧ hOp unicast.hdr = 0 ∧ unicast.body = .data ∧ hCrd unicast.hdr = false ∧ s.mayTake 1 unicast = true
    ∧ hOp crd.hdr = 0 ∧ crd.body = .data ∧ hCrd crd.hdr = true ∧ (rs.setRouter 1 { Router.zero with localQ := [crd] }).mayTake 1 crd = true := by
  decide +kernel
/-- A stream end of the corner cell of context 3, inbound or outbound, with 2 of its 4 units ready and credits. -/
def aStream (dir : Nat) : StreamEnd := ⟨5, dir, 0, 0, 0, 0, 0, 0, 0, 256, 0 :: 0 :: 64 :: List.replicate 13 0, some (1, 1, 7), 2, 0, [], [], 4, 4, 0, false, true, none, []⟩
def withStream (dir : Nat) : State := running.setCtx 0 3 { ctxIn .active with streams := [aStream dir] }
theorem test_CrdTimerReturn_cell : 3 < 4 ∧ ((withStream 0).ctx 0 3).streams[0]? = some (aStream 0) ∧ (aStream 0).dir = 0 ∧ 0 < (aStream 0).credits := by
  decide +kernel
/-- An engine's end of stream 5 of region 1, with one unit received. -/
def aEnd (out : Bool) : SeEnd := ⟨1, 5, 0, 3, 0, out, 4, 4, 0, 1, none, 0, [], false, [(List.replicate 64 0, [], false)]⟩
/-- A ring descriptor of one unit of stream 5. -/
def aJob (opc moved : Nat) (bad : Option Nat) : SeJob := ⟨0, 0, 0, 64, 64, 1, 5, opc, 0, 1, false, 0, 0, moved, moved, [], 0, 0, 0, 0, [], [], bad⟩
def withEngine (j : SeJob) : State := running.setEngine 4 ⟨[j], false, [], [aEnd true, aEnd false]⟩
theorem test_CrdTimerReturn_engine : (withEngine (aJob 0 0 none)).gridRuns = true ∧ 4 ≤ 4 ∧ ((withEngine (aJob 0 0 none)).engine 4).ends[1]? = some (aEnd false)
    ∧ (aEnd false).out = false ∧ 0 < (aEnd false).freed := by
  decide +kernel
theorem test_StreamUnitSend : (withStream 1).gridRuns = true ∧ (((withStream 1).settleFin 0 3).ctx 0 3).streams[0]? = some (aStream 1)
    ∧ (aStream 1).peer = some (1, 1, 7) ∧ (aStream 1).dir = 1 ∧ 0 < (aStream 1).sendable ∧ (aStream 1).sendable ≤ (aStream 1).credits := by decide +kernel
/-- The same job from the host, or for a unit of device 1; engine 4 with it beside module memory whose last gibibyte is exposed to the host. -/
def ofHost (j : SeJob) : SeJob := { j with
  kind := 1
  len := 64 }
def ofDevice (j : SeJob) : SeJob := { j with addr := 2 ^ 51 }
def exposed (j : SeJob) : SeJob := { j with addr := 31 * 2 ^ 30 }
def besideModule (j : SeJob) : State := (modState true).setEngine 4 ⟨[j], false, [], [aEnd true, aEnd false]⟩
/-- The job is in hand and its stream is bound. -/
def inHand (s : State) (j : SeJob) (out : Bool) : Bool :=
  s.clocked && decide (s.job 4 0 = some j) && decide (s.jobEnd 4 j out = some (b2n (!out))) && decide ((s.engine 4).ends[b2n (!out)]? = some (aEnd out))
theorem test_SeRead : let j := aJob 0 0 none
    [j, ofHost j, ofDevice j, exposed j].all (fun x => inHand (besideModule x) x true && decide (x.opc = 0) && decide (x.bad = none)
      && !(besideModule x).stopped x.region && decide (x.issued < x.total) && decide (x.issued - x.moved < 256)) = true
    ∧ (aEnd true).hasCredit 1 = true ∧ (ofHost j).kind = 1 ∧ j.kind ≠ 1 ∧ (ofDevice j).unitAddr 0 / 2 ^ 51 ≠ ownDev (besideModule j)
    ∧ j.unitAddr 0 / 2 ^ 51 = ownDev (besideModule j) ∧ j.mustAsk 0 ((besideModule j).linesExposed (j.unitAddr 0 % 2 ^ 51) 64) = false
    ∧ (exposed j).mustAsk 0 ((besideModule j).linesExposed ((exposed j).unitAddr 0 % 2 ^ 51) 64) = true := by decide +kernel
/-- The range has a place, or none. -/
def located (r : Except MemFail (List (MemLoc × Nat × Nat))) : Bool :=
  match r with
  | .ok _ => true
  | .error _ => false
theorem test_SeRead_located : located ((modState true).memLocs 0 64 false) = true ∧ located ((modState false).memLocs 0 64 false) = false := by decide +kernel
theorem test_SeWrite : let j := aJob 1 0 none
    [j, ofHost j, ofDevice j, exposed j].all (fun x => inHand (besideModule x) x false && decide (x.opc = 1) && decide (x.bad = none)) = true
    ∧ (aEnd false).inbox = (List.replicate 64 0, [], false) :: [] ∧ j.issued < j.total ∧ 64 * (ofHost j).issued + 64 ≤ (ofHost j).len
    ∧ (ofDevice j).unitAddr 0 / 2 ^ 51 ≠ ownDev (besideModule j) ∧ j.unitAddr 0 / 2 ^ 51 = ownDev (besideModule j)
    ∧ j.mustAsk 0 ((besideModule j).linesExposed (j.unitAddr 0 % 2 ^ 51) 64) = false
    ∧ (exposed j).mustAsk 0 ((besideModule j).linesExposed ((exposed j).unitAddr 0 % 2 ^ 51) 64) = true
    ∧ memOk ((besideModule j).memWrite 0 (List.replicate 64 0) (fun _ _ => false) false) = true
    ∧ memOk (((modState false).setEngine 4 ⟨[j], false, [], [aEnd true, aEnd false]⟩).memWrite 0 (List.replicate 64 0) (fun _ _ => false) false) = false := by
  decide +kernel
/-- A migration's job, in the run phase, for section 7, whose context is in a state. -/
def migrating (serves : Bool) (bound : Nat) (j : SeJob) : State :=
  let s := (modState serves).setEngine 4 ⟨[j], false, [], []⟩
  { s.setCtx 0 0 { ctxIn .ready with bound := bound } with
    tb := 100000
    work := { s.work with sects := [sect] } }
theorem test_SeMigrate (serves : Bool) (opc : Nat) (h : opc = 2 ∨ opc = 3) : let j := aJob opc 0 none
    [j, ofDevice j, exposed j].all (fun x => (migrating serves 64 x).clocked && decide ((migrating serves 64 x).job 4 0 = some x)
      && (migrating serves 64 x).mayMigrate 4 x opc && decide ((migrating serves 64 x).migTarget x 0 = some (0, 0))) = true
    ∧ (migrating serves 0 j).migTarget j 0 = none ∧ (ofDevice j).unitAddr 0 / 2 ^ 51 ≠ ownDev (migrating serves 64 j)
    ∧ j.unitAddr 0 / 2 ^ 51 = ownDev (migrating serves 64 j)
    ∧ j.mustAsk 0 ((migrating serves 64 j).linesExposed (j.unitAddr 0 % 2 ^ 51) 64) = false
    ∧ (exposed j).mustAsk 0 ((migrating true 64 j).linesExposed ((exposed j).unitAddr 0 % 2 ^ 51) 64) = true
    ∧ memOk ((migrating serves 64 j).hostOrMemory [] j 0 64) = serves
    ∧ memOk ((migrating true 64 j).memWrite 0 (List.replicate 64 0) (fun _ _ => false) false) = true := by
  rcases h with rfl | rfl <;> cases serves <;> decide +kernel
theorem test_ModuleReadReturn : let j := { aJob 0 0 none with issued := 1 }
    let t := (modState false).setEngine 4 ⟨[j], false, [], [aEnd true, aEnd false]⟩
    (besideModule j).clocked = true ∧ (besideModule j).job 4 0 = some j ∧ (besideModule (ofHost j)).job 4 0 = some (ofHost j) ∧ 0 < j.issued ∧ j.moved ≤ 0
    ∧ j.buf.any (fun b => b.1 == 0) = false ∧ j.opc = 0 ∧ j.unitAddr 0 / 2 ^ 51 = ownDev (besideModule j)
    ∧ memOk ((besideModule j).hostOrMemory [] j 0 (j.unitLen 0)) = true ∧ memOk (t.hostOrMemory [] j 0 (j.unitLen 0)) = false := by decide +kernel
theorem test_SeDescComplete : (withEngine (aJob 0 1 none)).clocked = true ∧ (withEngine (aJob 0 1 none)).job 4 0 = some (aJob 0 1 none)
    ∧ (aJob 0 1 none).total ≤ (aJob 0 1 none).moved ∧ (aJob 0 1 none).unacked = 0 ∧ (withEngine (aJob 0 0 (some 3))).job 4 0 = some (aJob 0 0 (some 3))
    ∧ (aJob 0 0 (some 3)).bad.isSome = true := by
  decide +kernel
theorem test_BisnpResponse_and_Migration : let j := { aJob 0 0 none with asked := [(0, 64)] }
    (withEngine j).clocked = true ∧ (withEngine j).job 4 0 = some j ∧ (j.asked.find? fun e => e.1 == 0) = some (0, 64)
    ∧ (let s := { running.setEngine 4 { SEngine.zero with paused := true } with tb := 2000 }
      s.clocked = true ∧ (s.engine 4).paused = true ∧ before s.tb (s.tickAt s.frameNo + 2000) = false) := by decide +kernel

theorem test_ChannelBringup : 15 < 16 ∧ rs.memLost 15 = false ∧ rs.inService 15 = false ∧ (⟨8799, 64, true, false, 0, 0, 0, 0⟩ : Spd).fits = false := by
  decide +kernel
/-- Channel 15 is in service and scrubbed. -/
def chanUp : State := (rs.setRegBit (memStsAddr 15) 1 true).setFld (pgMem 15) R.mem_SCRUB 1
theorem test_ChannelInService : chanUp.clocked = true ∧ chanUp.inService 15 = true ∧ chanUp.fld (pgMem 15) R.mem_SCRUB ≠ 0 ∧ 15 < 16 ∧ chanUp.memLost 15 = false
    ∧ 1 ∈ ((rs.setModule 0 { Module.zero with wbq := [1] }).module 0).wbq := by decide +kernel
theorem test_ChannelLost : 3 ≤ ((rs.setModule 0 { Module.zero with trainFails := 3 }).module 0).trainFails
    ∧ 3 ≤ (recent 0 1000000000 ((rs.setModule 0 { Module.zero with wcrcTimes := [0, 0, 0] }).module 0).wcrcTimes).length
    ∧ (rs.setFld pgRepair R.repair_CH_UE_THR 1).fld pgRepair R.repair_CH_UE_THR
      ≤ (recent 0 3600000000000 ((rs.setModule 0 { Module.zero with ueTimes := [0] }).module 0).ueTimes).length := by decide +kernel

/-- An accepted command, and a queue of press 0 bound to engine 4; the host-exposed range takes in the segments or does not. -/
def aCmd (bad : Nat) (computed : Bool) (nblk : Byte) : PressCmd :=
  ⟨0, List.replicate 6 0 ++ nblk :: List.replicate 57 0, false, 0, bad, [], 0, if computed then some [] else none, false⟩
def aPair : PressPair := ⟨0, 0, 1, 5, 6, false, 0, 4⟩
def withPressOf (host : Bool) (x : PressQ) : State :=
  let s := { ((withEngine (aJob 0 0 none)).setFld (pgMem 0) R.mem_HDM (b2n host)).setPress 0 { Press.zero with
    queues := [(0, x)]
    order := [(0, 0)] } with work := (withRun .active .active).work }
  (s.setFld (pgPress 0) R.press_STS 1).setRegBit (memStsAddr 0) 1 true
def withPress (x : PressQ) : State := withPressOf false x
/-- The first unit of a command of two, with one block. -/
def aBlock : List Byte := [0, 0, 0, 0, 0, 0, 1, 0, 0, 0, 0, 0, 128] ++ List.replicate 51 0
theorem test_PressCmdIssue : let x := { PressQ.zero with pair := some aPair }
    let t := (withPress x).advance 0
    (withPress x).clocked = true ∧ (t.pressQ 0 0).pair = some aPair ∧ (t.engine 4).endOf 1 5 false = some 1 ∧ (t.engine 4).ends[1]? = some (aEnd false)
    ∧ (aEnd false).inbox = (List.replicate 64 0, [], false) :: [] ∧ t.pressAvail 0 = true ∧ t.inService 0 = true
    ∧ pcUnits (List.replicate 64 0) ≤ (aEnd false).inbox.length ∧ t.mayIssue 0 0 1 = true
    ∧ (pcSegments ((t.pressQ 0 0).command (aEnd false) (pcUnits (List.replicate 64 0))).1).any t.segExposed = false
    ∧ (let e := { aEnd false with inbox := [(aBlock, [], false), (List.replicate 64 0, [], false)] }
      let h := ((withPressOf true x).setEngine 4 { (withPressOf true x).engine 4 with ends := [aEnd true, e] }).advance 0
      (h.pressQ 0 0).pair = some aPair ∧ (h.engine 4).ends[1]? = some e ∧ h.mayIssue 0 0 1 = true ∧ pcUnits aBlock ≤ e.inbox.length
      ∧ (pcSegments ((h.pressQ 0 0).command e (pcUnits aBlock)).1).any h.segExposed = true) := by decide +kernel
theorem test_PressCmdAccept : let e : Nat × List Byte × Bool := (0, 0 :: 0 :: 0 :: 1 :: List.replicate 60 0, false)
    (((withPress { PressQ.zero with slots := [e] }).advance 0).pressQ 0 0).slots.find? (fun e => e.1 == 0) = some e ∧ bitOf (pcFlags e.2.1) 0 = true := by
  decide +kernel
theorem test_PressAttn : let x := { PressQ.zero with cmds := [aCmd 0 false 0] }
    ((withPress x).pressQ 0 0).cmds = aCmd 0 false 0 :: [] ∧ (aCmd 0 false 0).bad = 0 ∧ (aCmd 0 false 0).computed = false ∧ (aCmd 0 false 0).wantsBurst = false := by
  decide +kernel
theorem test_PressBurstStart (host : Bool) : let t := ((withPressOf host { PressQ.zero with cmds := [aCmd 0 false 1] }).advance 16).strikeModules []
    (withPressOf host { PressQ.zero with cmds := [aCmd 0 false 1] }).clocked = true ∧ (t.pressOf 0).atWork = some (0, aCmd 0 false 1)
    ∧ before t.tb ((t.pressOf 0).ready (aCmd 0 false 1)) = false ∧ (t.pressOf 0).windowed t.tb < (t.pressOf 0).pawLimit ∧ t.inService 0 = true
    ∧ t.segExposed (aCmd 0 false 1).nextSegment = host := by cases host <;> decide +kernel
theorem test_PressCmdComplete : let t := (withPress { PressQ.zero with cmds := [aCmd 0 true 0] }).advance 40
    (t.pressQ 0 0).cmds = aCmd 0 true 0 :: [] ∧ (aCmd 0 true 0).computed = true ∧ 40 ≤ (t.tb - (aCmd 0 true 0).endAt).toNat
    ∧ before t.tb (aCmd 0 true 0).endAt = false ∧ t.inService 0 = true ∧ (aCmd 4 false 0).bad ≠ 0 := by decide +kernel
theorem test_PressOthers : (withPress PressQ.zero).pressAvail 0 = true ∧ 3 < 4 ∧ (105 * 256 : Int) ≤ 105 * 256
    ∧ (let t := (withPress { PressQ.zero with
          pair := some aPair
          sent := [(0, false)]
          cmds := [aCmd 0 false 1] }).advance 10000
      (t.pressQ 0 0).pair = some aPair ∧ (t.pressQ 0 0).sent ≠ [] ∧ ((t.pressQ 0 0).cmds.find? fun m => !m.timed) = some (aCmd 0 false 1)
      ∧ 10000 ≤ (t.tb - (aCmd 0 false 1).acceptedAt).toNat) := by decide +kernel

theorem test_HostLink : (running.advance 0).pcieUp = true ∧ (running.advance 0).fld pgHost R.host_LINK_STS % 4 = 0 ∧ linkUp.clocked = true
    ∧ (linkUp.advance 0).fld pgHost R.host_LINK_STS % 4 ≠ 0 ∧ (linkUp.advance 0).vfEnabled 255 = true ∧ 2047 < msixSize 256 ∧ 63 < msixSize 0 := by
  decide +kernel
/-- VF 1 holds tenant 0 in window 0; its queue of 16 entries is enabled and one entry was rung. -/
def withQueue : State :=
  let s := (((linkUp.setFld (pgTenant 0) R.tenant_FN_EFF 1).setFld (pgTenant 0) R.tenant_Q_CTL_EN 1).setFld (pgTenant 0) R.tenant_SQ_SIZE 16).setFld
    (pgTenant 0) R.tenant_CQ_SIZE 16
  s.onTenant 0 fun x => { x with
    sqTail := 1
    bells := [(1, 0)] }
theorem test_Doorbell : withQueue.clocked = true ∧ (withQueue.advance 0).pageTenant 1 0 = some (some 0) ∧ (withQueue.advance 0).qEnabled 0 = true
    ∧ (15 : Word).toNat % 2 ^ 13 < (withQueue.advance 0).sqSize 0 := by decide +kernel
theorem test_VfWindow : (1 : Nat) ≠ 0 ∧ (withQueue.advance 0).vfEnabled 1 = true ∧ 0 < 8 ∧ (withQueue.advance 0).tenantOf 1 0 = some 0
    ∧ windowWritable 0x84 = true ∧ windowWritable 0 = false ∧ (withQueue.advance 0).tenantOf 1 7 = none := by decide +kernel
theorem test_SqFetch : withQueue.mayFetch 0 = true ∧ ((withQueue.onTenant 0 fun x => { x with fetching := true }).tenant 0).fetching = true := by
  decide +kernel

/-- Port 15 in a state: 1 training, 2 in service, 5 LOST; or retraining. -/
def portIn (st : Nat) (retraining : Bool) : State := ((running.setFld (pgTyz 15) R.tyz_STS st).setFld (pgTyz 15) R.tyz_CFG_EN 1).setPort 15 { TyzPort.zero with
  retraining := retraining }
theorem test_TyzPorts : (portIn 1 false).clocked = true ∧ (portIn 1 false).trains 15 = true ∧ ((portIn 1 false).port 15).retraining = false
    ∧ ((portIn 0 true).port 15).retraining = true ∧ (portIn 5 false).portState 15 = 5 ∧ (portIn 2 false).portServes 15 = true ∧ 8 < 9
    ∧ (portIn 2 false).lanesDiffer 15 0xFE = some 0 ∧ (portIn 2 false).lanesDiffer 15 0xFF = none
    ∧ (((portIn 2 false).setPort 15 { TyzPort.zero with replay := [(0, [])] }).port 15).replay ≠ [] := by decide +kernel
/-- A flit that ends with the CRC of its first 252 bytes is good. -/
theorem flitOk_of (z : List Byte) (h : z.length = 252) : flitOk (z ++ leBytes 4 (crc32 z)) = true := by
  have t : (leBytes 4 (crc32 z)).length = 4 := rfl
  have d : (z ++ leBytes 4 (crc32 z)).drop 252 = leBytes 4 (crc32 z) := by rw [← h, List.drop_left]
  have e : (z ++ leBytes 4 (crc32 z)).take 252 = z := by rw [← h, List.take_left]
  rw [flitOk, fieldAt, d, e, List.take_of_length_le (by omega), leNat_leBytes,
    Nat.mod_eq_of_lt (lt_of_lt_of_eq (crc32_lt z) (by norm_num))]
  simp [h, t]
theorem test_Flits : flitOk (List.replicate 252 0 ++ leBytes 4 (crc32 (List.replicate 252 0))) = true ∧ flitOk [] = false :=
  ⟨flitOk_of _ List.length_replicate, by decide⟩
/-- A packet of an opcode from port 0: 40 header bytes of zeros but for it and the route. -/
def aPacket (op : Byte) : TyzPkt := ⟨[0, 0, 0, 0, op] ++ List.replicate 35 0, [], 0⟩
theorem test_TyzRoute_and_Age : rs.clocked = true ∧ ({ rs with tyz := { rs.tyz with inbox := [aPacket 0] } }.tyz.inbox) = aPacket 0 :: []
    ∧ (((rs.setPort 0 { TyzPort.zero with queue := [(aPacket 0, false)] }).port 0).queue.findIdx? fun e => e.1.tc == 0 && !e.2) = some 0 := by
  decide +kernel
/-- A packet is delivered to a device whose memory answers or does not. -/
def delivered (serves : Bool) (op : Byte) : State := { modState serves with tyz := { rs.tyz with delivered := [aPacket op] } }
/-- What taking the packet leaves. -/
def taken (serves : Bool) (op : Nat) : State := (((delivered serves (BitVec.ofNat 8 op)).takeDelivered op).map (·.1)).getD rs
theorem test_TyzDelivered : ([0x00, 0x01, 0x02, 0x03, 0x04, 0x05, 0x15].all fun op => (delivered true (BitVec.ofNat 8 op)).clocked
      && decide (((delivered true (BitVec.ofNat 8 op)).takeDelivered op).map (·.2) = some (aPacket (BitVec.ofNat 8 op)))) = true
    ∧ ([0x11, 0x12, 0x13, 0x14].all fun op => decide ((delivered true (BitVec.ofNat 8 op)).nextContribution op = some (aPacket (BitVec.ofNat 8 op)))) = true
    ∧ ((delivered true 0x20).tyz.delivered.find? fun p => p.op == 0x20) = some (aPacket 0x20) := by decide +kernel
theorem test_TyzMemory (serves : Bool) : (taken serves 0x02).asleep = false ∧ (aPacket 0x02).len ≤ 4096 ∧ (aPacket 0x02).arg % 2 ^ 51 = 0
    ∧ memOk (((taken serves 0x02).strikeModules []).memRead 0 (aPacket 0x02).len false) = serves
    ∧ (taken serves 0x04).asleep = false ∧ memOk (((taken serves 0x04).strikeModules []).memWrite 0 (aPacket 0x04).payload (poisonedIn []) false) = serves := by
  cases serves <;> decide +kernel
theorem test_TyzAsleep : ({ delivered true 0x02 with sys := { rs.sys with
    lpPhase := .asleep
    lpTarget := 3 } }).asleep = true := by decide +kernel
/-- A request with tag 0 waits, its job in hand or ended. -/
def requesting (write job : Bool) (op : Byte) : State :=
  let s := { delivered true op with tyz := { (delivered true op).tyz with rma := [⟨0, 4, 0, 0, 0, write, 0⟩] } }
  if job then s.setEngine 4 ⟨[aJob 0 0 none], false, [], []⟩ else s
/-- The response finds a request, and the index of its job. -/
def answers (s : State) (op : Nat) (write : Bool) : Option (Option Nat) :=
  match s.takeDelivered op with
  | some (s1, p) => (s1.takeRma p.tag write).map fun e => e.1.jobIdx e.2.engine e.2.ring
  | none => none
theorem test_TyzResponses : answers (delivered true 0x03) 0x03 false = none ∧ answers (requesting false false 0x03) 0x03 false = some none
    ∧ answers (requesting false true 0x03) 0x03 false = some (some 0) ∧ answers (delivered true 0x05) 0x05 true = none
    ∧ answers (requesting true false 0x05) 0x05 true = some none ∧ answers (requesting true true 0x05) 0x05 true = some (some 0) := by decide +kernel
/-- Bridge 0 holds an end of key 0, and the device a collective entry of COLL_ID 0. -/
def bridged (out : Bool) (op : Byte) : State :=
  let s := { delivered true op with tyz := { (delivered true op).tyz with coll := [(0, 0x80110000), (1, 0x10000)] } }
  s.setEngine 32 ⟨[], false, [], [{ aEnd out with inbox := [] }]⟩
theorem test_TyzBridges : ((taken true 0x00).findBridge true fun q => prmColl q == 0 && prmKey q == (aPacket 0).arg / 2 ^ 32) = none
    ∧ ((bridged true 0x00).findBridge true fun q => prmColl q == 0 && prmKey q == (aPacket 0).arg / 2 ^ 32) = some (32, 0)
    ∧ ((bridged false 0x01).findBridge false fun q => prmColl q == 0 && prmKey q == (aPacket 1).arg / 2 ^ 32) = some (32, 0)
    ∧ ((bridged true 0x00).engine 32).ends[0]? = some { aEnd true with inbox := [] }
    ∧ (taken true 0x15).collEntry (aPacket 0x15).tag 0 = none ∧ (bridged true 0x15).collEntry (aPacket 0x15).tag 0 = some (0x80110000, 0x10000, 0) := by
  decide +kernel
theorem test_TyzRmaTimeout : let s := { rs with tyz := { rs.tyz with rma := [⟨9, 0, 0, 0, 0, false, 0⟩] } }.advance 0xFFFFFFFF
    (s.tyz.rma.find? fun r => r.tag == 9) = some ⟨9, 0, 0, 0, 0, false, 0⟩
    ∧ s.fld (pgTyz 0) R.tyz0_RMA_TO_US * 1000 ≤ (s.tb - 0).toNat := by decide +kernel

theorem test_Ethernet : rs.clocked = true ∧ (rs.setRegBit (ethSts 1) 0 true).regBit (ethSts 1) 0 = true
    ∧ ((rs.setRegBit (ethSts 1) 0 true).bump (pgEth 1) R.eth_RX_DGRAM 1 1).dgramMine [0x54, 0x5A, 1, 0, 0] = true
    ∧ ((rs.setRegBit (ethSts 1) 0 true).bump (pgEth 1) R.eth_RX_DGRAM 1 1).dgramMine [] = false
    ∧ (rs.setFld (pgEth 1) R.eth_CFG_EN 1).flag (pgEth 1) R.eth_CFG_EN = true
    ∧ (let s := (rs.setFld (pgEth 1) (R.eth_PEER0_CTL_PORT.up (0x20 * 2)) 1).setPeer 2 { EthPeer.zero with unacked := [(0, [])] }
      s.peerPort 2 = some 1 ∧ (s.peer 2).unacked ≠ []) := by decide +kernel
/-- Words of the POLICY page in force. -/
def withEff (pg : Nat) (f : Fld) (v : Nat) (s : State) : State := (s.setFld pg f v).setEff pg f.off
theorem test_AdaptWindow : let s := { withEff pgPolicy R.policy_ADAPT_EN 1 rs with work := { rs.work with adapt := { Adapt.zero with frames := 0xFFFFFFFF } } }
    s.adaptDue = true := by decide +kernel
theorem test_KvIdle : let x := { aDesc 1 with
      kv := [1]
      idle := 0xFFFFFFFF }
    (withDesc x).desc 1 = some x ∧ (withDesc x).kvIdle x = true := by decide +kernel
theorem test_Emergency : (rs.advance 0).tooHot [102 * 256] = true ∧ (rs.advance 0).meter.emerg = none
    ∧ ({ rs with meter := { rs.meter with samples := List.replicate 10 1000000000000 } }.advance 0).tooMuch = true ∧ 63 < 64
    ∧ (112 * 256 : Int) ≤ (rs.advance 0).senseF 63 (112 * 256) ∧ (rs.advance 0).sys.tripped = false := by decide +kernel
theorem test_PowerFails : (rs.advance 0).sys.cut = none ∧ (rs.advance 0).sys.lpPhase = .none
    ∧ (rs.advance 0).railLimits 6 = some (2352, 2448) ∧ (2351 : Int) + (rs.advance 0).calE 5 6 < 2352 ∧ (2448 : Int) < 2449 + (rs.advance 0).calE 5 6 := by
  decide +kernel
/-- The device is in SLEEP (target 3) or STANDBY (target 4), or about to enter it. -/
def asleep (ph : LpPhase) (target : Nat) : State := { running with sys := { running.sys with
  lpPhase := ph
  lpTarget := target } }
theorem test_BoundaryInSleep : let s := { asleep .asleep 3 with
      tb := 60000000000
      acct := { Acct.zero with open_ := some ⟨0, 1, 0, 0⟩ } }
    (s.advance 0).sys.lpPhase = .asleep ∧ (s.advance 0).sys.lpTarget = 3 ∧ (s.advance 0).boundaryDue = true := by decide +kernel

def shifting (stage : Nat) : State := { running with grid := { running.grid with shifts := [(3, 31, 16, stage)] } }
theorem test_RepairCopy : let s := (shifting 1).advance 2000
    s.grid.shifts.find? (fun t => t.1 == 3 && t.2.1 == 31 && t.2.2.2 == 1) = some (3, 31, 16, 1) ∧ s.frameOn = true
    ∧ before s.tb (s.tickAt s.frameNo + 2000) = false ∧ before s.tb s.guardStart = true := by decide +kernel
/-- A tick waits to apply a swap. -/
def aRest : TickRest := ⟨[], [], [], [], false, false⟩
def swapping : State := { shifting 2 with sys := { (shifting 2).sys with tickRest := some aRest } }
/-- A packet keeps the mesh from being empty. -/
def blocked : State := { swapping with grid := { swapping.grid with flight := [(0, 0, .data 0 [] [])] } }
theorem test_RepairSwap : swapping.clocked = true ∧ swapping.sys.tickRest = some aRest ∧ (swapping.advance 0).meshEmpty = true
    ∧ before (swapping.advance 0).swapLimit (swapping.advance 0).tb = false
    ∧ (blocked.advance blocked.swapLimit).meshEmpty = false
    ∧ before (blocked.advance blocked.swapLimit).tb (blocked.advance blocked.swapLimit).swapLimit = false := by decide +kernel
theorem test_RepairNvRetry : let s := { rs with nv := { rs.nv with mapWait := some (1, 0) } }.advance 60000000000
    s.nv.mapWait = some (1, 0) ∧ s.mapOnWay = false ∧ before s.tb (0 + 60000000000) = false := by decide +kernel
theorem test_CoreHeartbeat : let s0 := (running.advance 0xFFFFFFFFFFFF).flushNotes
    7 < 8 ∧ s0.busAlive = true ∧ s0.sys.booted = true ∧ s0.coreState 7 = 0
    ∧ before s0.tb ((s0.core 7).hbAt + BitVec.ofNat 64 (s0.fld pgRepair R.repair_CORE_HB_US * 1000)) = false
    ∧ recovering.sys.recovery = true ∧ ((running.setFld pgRepair R.repair_CORE_UE_THR 0).fld pgRepair R.repair_CORE_UE_THR ≤ running.coreUes 7) := by decide +kernel
theorem test_PwrfailRelease : let s := { rs with sys := { rs.sys with cut := some 0 } }.advance 10000000
    s.sys.cut = some 0 ∧ before s.tb (0 + 10000000) = false ∧ s.nv.ops = [] ∧ s.nv.cur = none := by decide +kernel

theorem test_CoreRows : let s0 := (running.advance 0).flushNotes
    s0.coreRuns 7 = true ∧ s0.coreWaits 7 false = false ∧ s0.coreWaits 7 true = false ∧ coreRegion 0x10800000 8 = .outside ∧ coreRegion 1 8 = .outside
    ∧ coreRegion 0 8 = .rom ∧ coreRegion 0x10000000 8 = .sram ∧ (s0.core 7).lr ≠ some (0x10000000 % 0x10000000 / 64)
    ∧ coreRegion (0x107FFFFE / 2 * 2) 2 = .sram ∧ ((s0.core 7).l1i.any fun e => e.1 == 0x107FFFFE % 0x10000000 / 64) = false := by decide +kernel
/-- Core 0 holds line 5 in a state. -/
def cached (st : Moesi) : State := running.setCore 0 { Core.zero with l1d := [(5, ⟨st, List.replicate 64 0, []⟩)] }
theorem test_L1dEvict : let s0 := ((cached .s).advance 0).flushNotes
    s0.coreState 0 = 0 ∧ s0.busAlive = true ∧ (s0.core 0).line 5 = some ⟨.s, List.replicate 64 0, []⟩
    ∧ ((((cached .m).advance 0).flushNotes.core 0).line 5 = some ⟨.m, List.replicate 64 0, []⟩) ∧ (((cached .m).advance 0).flushNotes.core 0).wb.length < 4 := by
  decide +kernel
/-- Core 0 asks for line 5. -/
def asking (kind : BusKind) : State := { running with cl := { running.cl with reqs := [⟨0, kind, 5, .none⟩] } }
theorem test_BusRows (kind : BusKind) : let s0 := ((asking kind).advance 0).flushNotes
    s0.busAlive = true ∧ s0.cl.winner false = some 0 ∧ s0.cl.oldest 0 = some ⟨0, kind, 5, .none⟩ ∧ (s0.core 0).line 5 = none := by
  cases kind <;> decide +kernel
theorem test_ApRows : let s0 := (running.advance 0).flushNotes
    s0.busAlive = true ∧ s0.cl.winner true = some 8 := by decide +kernel
/-- A grant whose supplier, core 1, holds the data or does not. -/
def aGrant (data : Option (List Byte × List Nat)) : BusGrant := ⟨0, .rd, 5, .none, some .s, some 1, data, [], (0, []), 0⟩
def granted (data : Option (List Byte × List Nat)) : State := { running with cl := { running.cl with grants := [aGrant data] } }
theorem test_DataSupply : let s0 := ((granted (some ([], []))).advance 0).flushNotes
    (s0.cl.grants.find? fun g => g.data.isSome) = some (aGrant (some ([], []))) ∧ s0.grantLate (aGrant (some ([], []))) = false
    ∧ s0.wayFree (aGrant (some ([], []))) = true := by decide +kernel
theorem test_HomeTimeout : let s0 := ((granted none).advance 0xFFFFFFFF).flushNotes
    (s0.cl.grants.find? fun g => s0.grantLate g) = some (aGrant none) ∧ s0.wayFree (aGrant none) = true := by decide +kernel

theorem test_Powered : (rs.advance 0).sys.on_ = true ∧ (rs.advance 0).sys.tripped = false ∧ rs.sys.refLost = false
    ∧ { rs with sys := { rs.sys with on_ := false } }.sys.on_ = false := by decide +kernel
theorem test_NapEnter : let s := { running.setFld pgPower R.power_LP_NAP_EN 1 with tb := 2000 }
    s.mayNap = true ∧ before (s.tickAt s.frameNo + 2000) s.tb = false := by decide +kernel
theorem test_StandbyWake : (rs.advance 0).sys.lpPhase ≠ .asleep ∧ running.enterStandby.sys.lpPhase = .asleep ∧ running.enterStandby.alive = true := by decide +kernel
theorem test_PowerStates : (asleep .accepted 3).alive = true ∧ (asleep .accepted 3).sys.lpPhase = .accepted ∧ (asleep .accepted 4).sys.lpTarget = 4
    ∧ ((asleep .asleep 4).advance 0).alive = true ∧ ((asleep .asleep 4).advance 0).sys.lpTarget = 4 ∧ (rs.advance 0).sys.lpPhase ≠ .asleep
    ∧ (let s := (asleep .leaving 3).setFld pgPower R.power_LP_STATE 3
      (s.advance 0).alive = true ∧ (s.advance 0).sys.lpPhase = .leaving ∧ (s.advance 0).fld pgPower R.power_LP_STATE = 3) := by decide +kernel
theorem test_Boot : (rs.advance 0).alive = true ∧ (rs.advance 0).sys.booted = false ∧ (rs.advance 0).sys.recovery = false
    ∧ (rs.advance 0).sys.lpPhase = .none := by decide +kernel
def aProgram : FlashOp := ⟨3, false, 0xFE, [0, 0, 0], 0, .nothing⟩
def anErase : FlashOp := ⟨3, true, 0, [], 0, .nothing⟩
theorem test_FlashOps : let s := { rs with nv := { rs.nv with ops := [aProgram] } }
    s.flashOn = true ∧ s.wdt.hold = none ∧ nextOp s.nv.ops = some aProgram ∧ s.nv.cur = none ∧ s.nv.susp = none ∧ nextOp rs.nv.ops = none
    ∧ { rs with nv := { rs.nv with susp := some anErase } }.nv.susp = some anErase
    ∧ (let p := { aProgram with prio := 1 }
      let e := { rs with nv := { rs.nv with ops := [p], cur := some anErase, canSuspend := true } }
      e.flashOn = true ∧ nextOp e.nv.ops = some p ∧ e.nv.cur = some anErase ∧ e.nv.susp = none ∧ e.nv.canSuspend = true ∧ p.erase = false
      ∧ p.prio < anErase.prio)
    ∧ { rs with nv := { rs.nv with cur := some aProgram } }.nv.cur = some aProgram ∧ aProgram.erase = false ∧ anErase.erase = true := by decide +kernel
theorem test_FlashProgram_clears_bits : mapGet 0xFF (flashProgram [(0, 0x0F)] 0 [0xF1, 0x80]) 0 = 0x01 ∧ mapGet 0xFF (flashProgram [] 0 [0xF1, 0x80]) 1 = 0x80
    ∧ mapGet 0xFF (flashErase [(0, 0x0F)] 0) 0 = 0xFF := by decide +kernel
theorem test_Burns : { rs with rind := { rs.rind with burn := some (.revoke 0) } }.rind.burn = some (.revoke 0)
    ∧ { rs with rind := { rs.rind with lcBurn := some 4 } }.rind.lcBurn = some 4 := by decide +kernel
def armed : State := { rs with wdt := { Wdt.zero with armed := true } }
theorem test_WdtExpire : (armed.advance 1000000000).wdtRuns = true ∧ (armed.advance 1000000000).winMax ≤ (armed.advance 1000000000).wdtElapsed := by
  decide +kernel
theorem test_WdtClock : armed.sys.refLost = false ∧ (armed.advance 0).wdtRuns = true ∧ (armed.advance 0).wdtElapsed < (armed.advance 0).winMax
    ∧ ((17 * (armed.advance 0).winMax * 4 * 1000000 : Nat) : Int) ≤ (34000000 : Int) * 125 * (1000000 + ((armed.advance 0).calGet 10 0).e) * 16 := by
  decide +kernel
theorem test_WdtErasing : ({ armed.setStage 1 with nv := { rs.nv with cur := some anErase } }.advanceWdt 100000000).erasing = true
    ∧ ((armed.setStage 1).advanceWdt 100000000).erasing = false := by decide +kernel
theorem test_WdtStage2 : let s1 := (armed.setStage 1).advanceWdt 100000000
    s1.wdtStage = 1 ∧ s1.wdt.hold = none ∧ s1.sys.on_ = true ∧ before s1.tb (s1.wdt.t1 + BitVec.ofNat 64 (s1.wdt.stage2Us * 1000)) = false := by
  decide +kernel
theorem test_WdtHold : let s1 := { armed with wdt := { armed.wdt with hold := some 0 } }.advanceWdt 2500000000
    s1.wdt.hold = some 0 ∧ before s1.tb (0 + 2500000000) = false := by decide +kernel
theorem test_TraceRing : let s := { rs.setRegBit traceCtl 0 true with trace := { rs.trace with buf := [[]] } }
    s.trace.buf ≠ [] ∧ s.regBit traceCtl 0 = true := by decide +kernel
theorem test_Pldm : rs.lifecycle ≠ 4 ∧ { rs with rind := { rs.rind with
      lc0 := 15
      lc1 := 15
      lc2 := 15 } }.lifecycle = 4
    ∧ (rs.advance 0).roleOf .mgmt ≠ roleInstaller ∧ (rs.advance 0).roleOf .mgmt ≠ roleMaker
    ∧ ((rs.setSess 2 { Sess.zero with
      state := 2
      role := 1 }).advance 0).roleOf .mgmt = roleInstaller := by decide +kernel
theorem test_DebugCores : (rs.advance 0).coresOpen = false ∧ (let s := { running with rind := { rs.rind with
      lc0 := 0
      lc1 := 0
      lc2 := 0 } }
    (s.advance 0).coresOpen = true ∧ 7 < 8 ∧ (s.advance 0).coreState 7 = 0) := by decide +kernel

/-! ### Register writes that are performed -/

theorem test_WritesPage : rs.writes fw 0xB058 ∧ rs.writes fw 0xB074 ∧ rs.writes fw 0xB064 ∧ rs.writes fw 0xD0104 ∧ rs.writes fw 0xD04E4
    ∧ rs.writes fw 0x80138 ∧ rs.writes fw 0x8F048 ∧ rs.writes fw 0x506C :=
  ⟨writes_of .repair (by decide +kernel), writes_of .repair (by decide +kernel), writes_of .repair (by decide +kernel),
    writes_of .stream (by decide +kernel), writes_of .stream (by decide +kernel), writes_of .tyz (by decide +kernel),
    writes_of .tyz (by decide +kernel), writes_of .energy (by decide +kernel)⟩
theorem test_WritesNv : rs.writes fw 0xC068 ∧ rs.writes fw 0xC06C ∧ rs.writes fw 0xC080 ∧ rs.writes fw 0xC090 ∧ rs.writes fw 0xC094 ∧ rs.writes fw 0xC060 :=
  ⟨writes_of .nv (by decide +kernel), writes_of .nv (by decide +kernel), writes_of .nv (by decide +kernel), writes_of .nv (by decide +kernel),
    writes_of .nv (by decide +kernel), writes_of .nv (by decide +kernel)⟩
theorem test_WritesRind : maker.writes pf0 0xD060 ∧ maker.writes pf0 0xD0FC ∧ maker.writes pf0 0xD0CC ∧ maker.writes pf0 0xD100 ∧ maker.writes pf0 0xD1A0
    ∧ maker.writes pf0 0xD224 :=
  ⟨writes_of .rind (by decide +kernel), writes_of .rind (by decide +kernel), writes_of .rind (by decide +kernel), writes_of .rind (by decide +kernel),
    writes_of .rind (by decide +kernel), writes_of .rind (by decide +kernel)⟩
theorem test_WritesSecurity : rs.writes fw 0xF074 ∧ rs.writes fw 0xE008 ∧ (let s := rs.setSess 3 { Sess.zero with state := 2 }
    ((s.advance 600000000000).sess 3).state = 2 ∧ before (s.advance 600000000000).tb (((s.advance 600000000000).sess 3).lastAccess + 600000000000) = false)
    ∧ (let s := rs.setSess 3 { Sess.zero with state := 1 }
    ((s.advance 10000000000).sess 3).state = 1 ∧ before (s.advance 10000000000).tb (((s.advance 10000000000).sess 3).issued + 10000000000) = false)
    ∧ (let s := rs.setSess 0 { Sess.zero with state := 4 }
    ((s.advance 60000000000).sess 0).state = 4 ∧ before (s.advance 60000000000).tb (((s.advance 60000000000).sess 0).lastFail + 60000000000) = false) :=
  ⟨writes_of .audit (by decide +kernel), writes_of .cal (by decide +kernel), by decide +kernel, by decide +kernel, by decide +kernel⟩
theorem test_WritesControl : rs.writes fw 0x8058 ∧ rs.writes fw 0x9008 ∧ rs.writes fw 0x908C ∧ rs.writes fw 0x9090 ∧ rs.writes fw 0x909C
    ∧ rs.writes fw 0x40C0 ∧ rs.writes fw 0x54 :=
  ⟨writes_of .wdt (by decide +kernel), writes_of .trace (by decide +kernel), writes_of .trace (by decide +kernel), writes_of .trace (by decide +kernel),
    writes_of .trace (by decide +kernel), writes_of .power (by decide +kernel), writes_of .top (by decide +kernel)⟩
theorem test_WritesTenant : rs.writes fw 0x2000050 ∧ rs.writes fw 0x200004C ∧ rs.writes fw 0x2000090 ∧ rs.writes fw 0x2000084 ∧ rs.writes fw 0x23FF050 :=
  ⟨writes_of .tenant (by decide +kernel), writes_of .tenant (by decide +kernel), writes_of .tenant (by decide +kernel), writes_of .tenant (by decide +kernel),
    writes_of .tenant (by decide +kernel)⟩

/-! ### Frames: a command of each group that answers a next state -/

/-- The command answers a next state. -/
def runs (c : Instr) (s : State) : Bool :=
  match exec c s with
  | .next _ => true
  | _ => false
theorem next_of_runs {c : Instr} {s : State} (h : runs c s = true) : ∃ t, exec c s = .next t := by
  unfold runs at h; split at h
  · exact ⟨_, by assumption⟩
  · cases h
theorem test_Frames : runs (.ceWriteback 0 1) (rs.setCell 0 { Cell.zero with wbq := [(1, [])] }) = true ∧ runs (.vxMknot 0 0 goodOp noUpset) (mxState Machine.Matrix.zero) = true
    ∧ runs (.coreLoad 0 0x10000000 8 [] 0) running = true ∧ runs (.lockoutExpire 0 60000000000) (rs.setSess 0 { Sess.zero with state := 4 }) = true
    ∧ runs (.keyRevoke fw 3) rs = true ∧ runs (.railSample [0, 0, 0, 0, 0, 0, 0, 0] 0) rs = true ∧ runs (.holdoverExpire 0xFFFFFFFFFFFF) (byPtp true) = true
    ∧ runs (.dbSqTail 1 0 4 15 0) withQueue = true ∧ runs (.pressQueueReset 0 3) (withPress PressQ.zero) = true ∧ runs .refclkSysLost rs = true
    ∧ runs (.descRun 1) (withDesc (aDesc 1)) = true ∧ runs (.regWrite fw 0x1048 0 [] .failed []) rs = true ∧ runs (.lpReqRun fw) rs = true
    ∧ runs (.runStart 7) (withRun .ready .scheduled) = true ∧ runs (.tyzAckTimeout 15) ((portIn 2 false).setPort 15 { TyzPort.zero with replay := [(0, [])] }) = true
    ∧ runs (.wdtExpire 1000000000) armed = true ∧ runs (.vfWindowWrite 1 0 0x84 0 0) withQueue = true := by decide +kernel
theorem test_ScratchpadStore : (({ spState with pending := [] }).ctx 0 0).access 0 8 = .slice 0 ∧ runs (.spAccessGrant 0 0 true 0 8 (List.replicate 8 1) [] []) spState = true
    ∧ ¬ ((0 : Nat) = 0 ∧ 0 ≤ 8 ∧ 8 < 0 + 8) := by decide +kernel

/-! ### Values the spec works out -/

/-- The example of section 14.4: logical cell (37, 12) sits at physical (39, 12) while its quadrant-row has no fault. -/
theorem test_spec_physical_position : rs.physOf 37 12 = 12 * 68 + 39 := by decide +kernel
/-- The example of section 12.5: 250 µs frames with an 8 µs guard at 1.60 GHz give F = 384,000 fc. -/
theorem test_spec_run_phase_length :
    (((rs.setFld pgFrame R.frame_PERIOD_EFF 250).setFld pgFrame R.frame_GUARD_EFF 8).setFld pgPower R.power_DVFS2 1600).runFc = 384000 := by decide +kernel
/-- The check values of the two named CRCs over the digits 1 to 9. -/
theorem test_crc_check_values : crc16 [0x31, 0x32, 0x33, 0x34, 0x35, 0x36, 0x37, 0x38, 0x39] = 0x29B1
    ∧ crc32 [0x31, 0x32, 0x33, 0x34, 0x35, 0x36, 0x37, 0x38, 0x39] = 0xCBF43926 := by decide +kernel
/-- R68: first along x, then along y, then Local. -/
theorem test_dimension_order : routePort 0 2175 = 2 ∧ routePort 67 2175 = 1 ∧ routePort 2175 67 = 0 ∧ routePort 1 0 = 3 ∧ routePort 7 7 = 4 := by decide
/-- R180: mask register 0 is 256 ones and drops a write. -/
theorem test_mask_zero : Ctx.blank.mask 0 = BitVec.allOnes 256 ∧ Ctx.blank.setMask 0 0 = Ctx.blank := by decide +kernel
/-- R443: the increment past the end saturates. -/
theorem test_counter_saturates : ((rs.setReg 0x1020 0xFFFFFFFF).bumpRaw pgFrame R.hdr_ERR_CNT 31 1).1.reg 0x1020 = 0xFFFFFFFF := by decide +kernel
/-- R102: bit 30 tells a remote access, bit 31 must be 0. -/
theorem test_scratchpad_bits : (spState.ctx 0 0).access (2 ^ 31) 8 = .format ∧ (spState.ctx 0 0).access (2 ^ 30 + 2 * 2 ^ 19) 8 = .bound := by decide +kernel

end Sys2Proof.Tests
end

/-! Settlement of the register-write rows (O11): what a word write leaves where it is performed, per space it falls in. -/
section
namespace Sys2Proof.Machine

/-- A word of a page outside the MSI-X pages lies outside the MSI-X tables. -/
theorem pageWord_not_msix {pg off : Nat} (ho : off < 0x1000) (hp : pg < 0x28 ∨ 0x30 ≤ pg) :
    ¬ (0x28000 ≤ pg * 0x1000 + off ∧ pg * 0x1000 + off < 0x30000) := by omega

/-- The write named by a page and an offset in it is performed by the rule of that page and offset. -/
theorem State.writeReg_page_of_writes {s : State} {rq : Req} {pg off : Nat} (val : Word) (image : List Byte) (how : ReadEnd)
    (places : List Placement) (ho : off < 0x1000) (hp : pg < 0x28 ∨ 0x30 ≤ pg) (h : s.writes rq (pg * 0x1000 + off)) :
    s.writeReg rq (pg * 0x1000 + off) val image how places = s.logged rq (pg * 0x1000 + off) val
      ((s.onBus rq).writeBody rq.iface pg off val image how places) := by
  have hpg : (pg * 0x1000 + off) / 0x1000 = pg := by omega
  have hoff : (pg * 0x1000 + off) % 0x1000 = off := by omega
  rw [State.writeReg_of_writes val image how places (pageWord_not_msix ho hp) h, hpg, hoff]

/-- A write in BAR0 of an enabled VF has the effect of that BAR0 (R309). -/
theorem State.writeReg_of_vf {s : State} {rq : Req} {addr v : Nat} (val : Word) (image : List Byte) (how : ReadEnd) (places : List Placement)
    (ha : (s.advance rq.at_).busAnswers rq.iface = true) (hv : vfOf rq addr = some v) (he : (s.advance rq.at_).vfEnabled v = true) :
    s.writeReg rq addr val image how places = (s.advance rq.at_).writeVf v (addr % 2 ^ 26) val := by
  simp [State.writeReg, hv, ha, he]

/-- A write in the MSI-X pages has the effect of the table of the requester's function. -/
theorem State.writeReg_of_msix {s : State} {rq : Req} {addr fn : Nat} (val : Word) (image : List Byte) (how : ReadEnd)
    (places : List Placement) (ha : (s.advance rq.at_).busAnswers rq.iface = true) (hv : vfOf rq addr = none)
    (hx : 0x28000 ≤ addr ∧ addr < 0x30000) (hf : msixFn rq.iface = some fn) :
    s.writeReg rq addr val image how places = (s.advance rq.at_).writeMsix fn (addr % 0x8000) val := by
  simp [State.writeReg, hv, ha, hx, hf]

end Sys2Proof.Machine

open Sys2Proof Sys2Proof.Machine

/-- Settles O11: each row is one word write, and which word it is decides the lemma above that gives its effect. -/
theorem registerWritesComplete : Obligations.RegisterWritesComplete := by
  unfold Obligations.RegisterWritesComplete
  refine ⟨?regWrite, ?wordRows, ?errLogClear, ?pageCtl, ?otherSpaces, ?uart⟩
  case regWrite =>
    intro rq addr val image how places s hx hw
    exact congrArg Host.Outcome.next (State.writeReg_of_writes val image how places hx hw)
  case wordRows =>
    intro rq addr val s hx hw
    have written (w : Word) := congrArg (Host.Outcome.next (φ := Fault) (ρ := Refusal)) (State.writeReg_of_writes w [] .failed [] hx hw)
    exact ⟨written val, written val, written val, written 0⟩
  case errLogClear =>
    intro rq pg s hp hw
    exact congrArg Host.Outcome.next (State.writeReg_page_of_writes 0 [] .failed [] (by decide) hp hw)
  case pageCtl =>
    intro rq pg s hp hw
    have written (w : Word) := congrArg (Host.Outcome.next (φ := Fault) (ρ := Refusal))
      (State.writeReg_page_of_writes w [] .failed [] (by decide) hp hw)
    exact ⟨written (s.ctlWith pg 2), written (s.ctlWith pg 4)⟩
  case otherSpaces =>
    intro rq addr val image how places s ha
    constructor
    · intro v hv he
      exact congrArg Host.Outcome.next (State.writeReg_of_vf val image how places ha hv he)
    · intro fn hv hlo hhi hf
      exact congrArg Host.Outcome.next (State.writeReg_of_msix val image how places ha hv ⟨hlo, hhi⟩ hf)
  case uart =>
    intro addr val at_ image how places s hx hw
    exact congrArg Host.Outcome.next (State.writeReg_of_writes val image how places hx hw)

end

/-! Settlement of the frame (O16 to O22): the order of instants, when the frame engine stands, the writes of FRAME and the rows of runs and of
the timebase's discipline. -/
section
namespace Sys2Proof.Machine

/-! ### Instants and the timebase (R17, R28) -/

@[simp] theorem before_self (a : Dword) : before a a = false := by simp [before]

/-- Half the range orders no two instants both ways. -/
theorem not_before_of_before {a b : Dword} (h : before a b = true) : before b a = false := by
  simp only [before, Bool.and_eq_true, decide_eq_true_eq] at h
  have opposite : (a - b).toNat = 2 ^ 64 - (b - a).toNat := by bv_omega
  have far : ¬ (a - b).toNat < 2 ^ 63 := by omega
  simp only [before, far, decide_false, Bool.and_false]

theorem State.advance_tb (s : State) (a : Dword) :
    (s.advance a).tb = if s.sys.refLost = false ∧ before s.tb a = true then a else s.tb := by
  unfold State.advance
  simp only [Bool.and_eq_true, Bool.not_eq_true']
  split <;> rfl

/-- The timebase is all that an instant moves. -/
theorem State.advance_with_tb (s : State) (a : Dword) : { s.advance a with tb := s.tb } = s := by
  unfold State.advance
  split <;> rfl

theorem State.not_before_advance (s : State) (a : Dword) : before (s.advance a).tb s.tb = false := by
  rw [State.advance_tb]
  split
  · next h => exact not_before_of_before h.2
  · exact before_self s.tb

/-! ### When the frame engine stands (R31, Table 19.4) -/

theorem State.enabled_iff (s : State) : s.enabled = true ↔ s.fld pgFrame R.hdr_CTL_ENABLE ≠ 0 := by
  simp [State.enabled, State.flag]

theorem State.alive_iff (s : State) :
    s.alive = true ↔ s.sys.on_ = true ∧ s.sys.tripped = false ∧ s.sys.refLost = false ∧ s.sys.cut = none := by
  simp [State.alive, and_assoc]

theorem State.frameOn_iff (s : State) :
    s.frameOn = true ↔ s.alive = true ∧ s.enabled = true ∧ s.fld pgPower R.power_LP_STATE < 3 := by
  simp [State.frameOn, State.enabled, and_assoc]

/-- A reset waits for a tick instant in SLEEP only, on a live device whose frame engine is enabled. -/
theorem State.of_resetInSleep {s : State} (h : s.resetInSleep = true) :
    s.alive = true ∧ s.enabled = true ∧ s.fld pgPower R.power_LP_STATE = 3 := by
  simp only [State.resetInSleep, Bool.and_eq_true, beq_iff_eq] at h
  obtain ⟨⟨⟨alive, enabled⟩, sleeps⟩, -⟩ := h
  exact ⟨alive, enabled, sleeps⟩

/-- The frame engine runs in no power state from SLEEP on. -/
theorem State.not_frameOn_of_deep {s : State} (h : 3 ≤ s.fld pgPower R.power_LP_STATE) : s.frameOn = false := by
  rw [Bool.eq_false_iff, Ne, State.frameOn_iff]
  rintro ⟨-, -, hl⟩
  omega

theorem execTick_of_not_frameOn {s : State} (sensors : List Int) (temps : List (Nat × Int)) (given : TickGiven) (h : s.frameOn = false) :
    execTick sensors temps given s = .next (if s.resetInSleep then s.sleepInstant else s) := by
  unfold execTick
  split
  · rfl
  · simp [h, State.passOver]

theorem execGuardStart_of_not_frameOn {s : State} (h : s.frameOn = false) : execGuardStart s = .next s := by
  simp [execGuardStart, h, State.passOver]

/-- While the engine is disabled, in a state deeper than SLEEP, or without power, clocks or REFCLK_SYS, the frame engine does not run and no
reset waits for a tick instant. -/
theorem State.no_instant_of_stopped {s : State}
    (h : s.fld pgFrame R.hdr_CTL_ENABLE = 0 ∨ 4 ≤ s.fld pgPower R.power_LP_STATE ∨ s.sys.on_ = false ∨ s.sys.tripped = true
      ∨ s.sys.refLost = true ∨ s.sys.cut ≠ none) : s.frameOn = false ∧ s.resetInSleep = false := by
  have stands : ¬ (s.alive = true ∧ s.enabled = true ∧ s.fld pgPower R.power_LP_STATE ≤ 3) := by
    rw [State.alive_iff, State.enabled_iff]
    rintro ⟨⟨hon, htrip, href, hcut⟩, hen, hlp⟩
    rcases h with h | h | h | h | h | h
    · exact hen h
    · omega
    · simp [h] at hon
    · simp [h] at htrip
    · simp [h] at href
    · exact h hcut
  refine ⟨Bool.eq_false_iff.2 fun hf => stands ?_, Bool.eq_false_iff.2 fun hr => stands ?_⟩
  · obtain ⟨ha, he, hl⟩ := s.frameOn_iff.1 hf
    exact ⟨ha, he, by omega⟩
  · obtain ⟨ha, he, hl⟩ := State.of_resetInSleep hr
    exact ⟨ha, he, hl.le⟩

/-! ### Writes of FRAME.TB and FRAME.EPOCH (R21) -/

/-- A performed write of both words of a FRAME register is captured as a reserved encoding while the engine is enabled, and else has its
effect. -/
theorem State.whenDisabled_of_writes {s : State} {rq : Req} {off : Nat} (val : Dword) (f : State → State)
    (h : s.writes rq (pgFrame * 0x1000 + off)) :
    s.whenDisabled rq off val f = s.logged rq (pgFrame * 0x1000 + off) (BitVec.ofNat 32 (val.toNat / 2 ^ 32))
      (if (s.onBus rq).fld pgFrame R.hdr_CTL_ENABLE ≠ 0
        then ((s.onBus rq).pageError pgFrame off (ifaceCode rq.iface) 0x01 (BitVec.ofNat 32 (val.toNat / 2 ^ 32)), resReserved)
        else (f (s.onBus rq), resDone)) := by
  rw [State.whenDisabled, State.busWrite_of_writes _ _ h]
  simp only [State.enabled_iff, State.reservedWrite]

/-! ### What reporting an event leaves of the timebase -/

/-- Updates that each leave the timebase leave it one after the other. -/
theorem foldl_tb {β : Type} (f : State → β → State) (hf : ∀ a b, (f a b).tb = a.tb) (l : List β) (s : State) : (l.foldl f s).tb = s.tb := by
  induction l generalizing s with
  | nil => rfl
  | cons b l ih => rw [List.foldl_cons, ih, hf]

@[simp] theorem State.addNotes_tb (s : State) (ns : List SramNote) : (s.addNotes ns).tb = s.tb := by
  unfold State.addNotes; split <;> rfl
@[simp] theorem State.settleDead_tb (s : State) (first last : Nat) : (s.settleDead first last).tb = s.tb := by
  unfold State.settleDead
  apply foldl_tb
  intro a e
  rfl
@[simp] theorem State.sramWrite_tb (s : State) (off : Nat) (bs : List Byte) : (s.sramWrite off bs).tb = s.tb := by
  unfold State.sramWrite
  split
  · rfl
  · simp only [State.addNotes_tb]
    split <;> split <;> simp
@[simp] theorem State.rasOrder_tb (s : State) (i n : Nat) : (s.rasOrder i n).tb = s.tb := by
  induction n generalizing s i with
  | zero => rfl
  | succ n ih =>
    rw [State.rasOrder]
    split
    · simp only [ih, State.sramWrite_tb]
    · rfl
@[simp] theorem State.holdVector_tb (s : State) (vec : Nat) : (s.holdVector vec).tb = s.tb := by
  unfold State.holdVector; split <;> rfl
@[simp] theorem State.eventHeld_tb (s : State) (pg bit : Nat) : (s.eventHeld pg bit).tb = s.tb := by
  simp [State.eventHeld, apply_ite State.tb]
@[simp] theorem State.bumpRaw_tb (s : State) (pg : Nat) (f : Fld) (bit n : Nat) : (s.bumpRaw pg f bit n).1.tb = s.tb := by
  simp [State.bumpRaw, apply_ite Prod.fst, apply_ite State.tb]
@[simp] theorem State.rasRecord_tb (s : State) (cls code src : Nat) (loc : Dword) (detail : Nat) : (s.rasRecord cls code src loc detail).tb = s.tb := by
  simp [State.rasRecord, apply_ite State.tb]
@[simp] theorem State.bump_tb (s : State) (pg : Nat) (f : Fld) (bit n : Nat) : (s.bump pg f bit n).tb = s.tb := by
  simp [State.bump, State.counterSat, apply_ite State.tb]
@[simp] theorem State.sendMsix_tb (s : State) (fn vec : Nat) : (s.sendMsix fn vec).tb = s.tb := by
  simp [State.sendMsix, apply_ite State.tb]
@[simp] theorem State.event_tb (s : State) (pg bit : Nat) : (s.event pg bit).tb = s.tb := by
  simp [State.event, State.vectorDue, apply_ite State.tb]

/-- The loss of the source is marked at the instant it is found (R23). -/
theorem State.sourceLost_spec (t : State) : t.sourceLost.disc.srcLost = true ∧ t.sourceLost.disc.lostAt = t.tb ∧ t.sourceLost.tb = t.tb := by
  have kept : t.sourceLost.tb = t.tb := by
    simp [State.sourceLost, apply_ite State.tb]
  exact ⟨rfl, kept, kept⟩

end Sys2Proof.Machine

open Sys2Proof Sys2Proof.Machine

/-- Settles O18: the order of instants is asymmetric over half the range, so an instant that moves the timebase cannot lie before it. -/
theorem timebaseNeverRunsBackwards : Obligations.TimebaseNeverRunsBackwards := by
  unfold Obligations.TimebaseNeverRunsBackwards
  intro s a
  exact ⟨s.advance_tb a, s.not_before_advance a, s.advance_with_tb a⟩

/-- Settles O20: in each of the stopped conditions the frame engine does not run and no reset waits in SLEEP; in SLEEP the engine does not run
either, but a reset may wait. -/
theorem noTickWhileStopped : Obligations.NoTickWhileStopped := by
  unfold Obligations.NoTickWhileStopped
  intro sensors temps given s
  have tick (h : s.frameOn = false) : exec (.tick sensors temps given) s = _ := execTick_of_not_frameOn sensors temps given h
  have guardStart (h : s.frameOn = false) : exec .guardStart s = .next s := execGuardStart_of_not_frameOn h
  constructor
  · intro h
    obtain ⟨stands, noReset⟩ := State.no_instant_of_stopped h
    exact ⟨by rw [tick stands, noReset]; rfl, guardStart stands⟩
  · intro sleeps
    have stands : s.frameOn = false := State.not_frameOn_of_deep sleeps.ge
    refine ⟨guardStart stands, fun noReset => ?_, fun reset => ?_⟩
    · rw [tick stands, noReset]; rfl
    · rw [tick stands, reset]; rfl

/-- Settles O16: both rows are one write that takes effect while the frame engine is disabled. -/
theorem timebaseAndEpochWrites : Obligations.TimebaseAndEpochWrites := by
  unfold Obligations.TimebaseAndEpochWrites
  constructor
  · intro rq val s h
    exact congrArg Host.Outcome.next (State.whenDisabled_of_writes val (fun t => t.setTimebase val) h)
  · intro rq val s h
    exact congrArg Host.Outcome.next (State.whenDisabled_of_writes val (fun t => t.setFld64 pgFrame R.frame_EPOCH val.toNat) h)

/-- Settles O17: both rows are one performed write of FRAME.CTL. -/
theorem frameEngineEnable : Obligations.FrameEngineEnable := by
  unfold Obligations.FrameEngineEnable
  constructor
  · intro rq s h
    show execFrameEnable rq s = _
    refine (congrArg Host.Outcome.next (State.busWrite_of_writes 1 _ h)).trans ?_
    simp only [State.enabled_iff]
  · intro rq s h
    exact congrArg Host.Outcome.next (State.busWrite_of_writes 0 (fun t => (t.setFld pgFrame R.hdr_CTL_ENABLE 0, resDone)) h)

/-- Settles O19: none of the row's four reasons to pass over holds, and no reset waits in SLEEP as the frame engine runs. -/
theorem tickCompletes : Obligations.TickCompletes := by
  unfold Obligations.TickCompletes
  intro sensors temps given s on up entry rest
  have noReset : s.resetInSleep = false := by
    refine Bool.eq_false_iff.2 fun hr => ?_
    rw [State.not_frameOn_of_deep (State.of_resetInSleep hr).2.2.ge] at on
    cases on
  have firmware : (s.sys.booted || s.sys.recovery) = true := by simpa using up
  show execTick sensors temps given s = _
  simp [execTick, noReset, on, firmware, entry, rest]

/-- Settles O21: each row's conditions rule out, one by one, the reasons for which it passes over. -/
theorem runsStartAndEnd : Obligations.RunsStartAndEnd := by
  unfold Obligations.RunsStartAndEnd
  refine ⟨?guardStart, ?runStart, ?budgetExpire, ?runComplete, ?drainComplete, ?drainTimeout, ?idleTimeout, ?heldRelease⟩
  case guardStart =>
    intro s on
    exact if_pos on
  case runStart =>
    intro sid r t s scheduled loaded on inPhase notPast may
    show execRunStart sid s = _
    simp [execRunStart, scheduled, loaded, on, inPhase, notPast, may]
  case budgetExpire =>
    intro sid r t s grid run loaded active first
    have ends : exec (.budgetExpire sid) s = if (s.advance (s.expiry t r)).runComplete t
        then .next ((s.advance (s.expiry t r)).completeRun t r)
        else .next ((s.advance (s.expiry t r)).cutRun t r 1 t.budget) := by
      show execBudgetExpire sid s = _
      rw [execBudgetExpire, State.onGrid_of_runs _ grid]
      simp [run, loaded, active, first]
    exact ⟨fun complete => ends.trans (if_pos complete), fun cut => ends.trans (if_neg (Bool.eq_false_iff.1 cut))⟩
  case runComplete =>
    intro sid at_ r t s grid run loaded active complete within
    show execRunComplete sid at_ s = _
    rw [execRunComplete, State.onGrid_of_runs _ grid]
    simp [run, loaded, active, complete, within]
  case drainComplete =>
    intro sid bad at_ r t s grid run loaded draining drained stays apart notPast
    show execDrainComplete sid ⟨at_, bad⟩ s = _
    rw [execDrainComplete, State.onGrid_of_runs _ grid]
    simp [run, loaded, draining, drained, stays, apart, notPast]
  case drainTimeout =>
    intro sid r t s clocks run loaded draining
    show execDrainTimeout sid s = _
    rw [execDrainTimeout, State.onClock_of_runs _ clocks]
    simp [run, loaded, draining]
  case idleTimeout =>
    intro sid r s clocks idle
    show execRunIdleTimeout sid s = _
    rw [execRunIdleTimeout, State.onClock_of_runs _ clocks]
    simp [idle]
  case heldRelease =>
    intro sid t s loaded held
    show execHeldRelease sid s = _
    simp only [execHeldRelease, loaded, held, if_true]

/-- Settles O22: each row's conditions rule out, one by one, the reasons for which it passes over. -/
theorem disciplineEventsComplete : Obligations.DisciplineEventsComplete := by
  unfold Obligations.DisciplineEventsComplete
  refine ⟨?srcLost, ?holdover, ?recover, ?edgeIn, ?edgeSelect, ?ptp, ?flitSend, ?flitReceive, ?disabledDelay⟩
  case srcLost =>
    intro at_ s
    dsimp only
    intro source notLost on late
    refine ⟨if_neg ?_, (s.advance at_).sourceLost_spec⟩
    simp only [source, notLost, on, late.not_gt, Bool.not_true, Bool.false_eq_true, or_self, not_false_eq_true]
  case holdover =>
    intro at_ s
    dsimp only
    intro lost notYet expired
    refine if_neg ?_
    simp only [lost, notYet, expired.not_gt, Bool.not_true, Bool.false_eq_true, or_self, not_false_eq_true]
  case recover =>
    intro s lost sixteen
    exact if_pos ⟨lost, sixteen⟩
  case edgeIn =>
    intro at_ s
    dsimp only
    refine ⟨fun off => if_pos (.inl off), fun used on => if_neg ?_⟩
    simp [used, on]
  case edgeSelect =>
    intro at_ e es s
    dsimp only
    intro edges
    show (_ → execSyncEdgeSelect at_ s = _) ∧ (_ → _ → _ → execSyncEdgeSelect at_ s = _)
    simp only [execSyncEdgeSelect, edges]
    refine ⟨fun off => if_pos (.inl off), fun used on judged => ?_⟩
    simp [used, on, judged]
  case ptp =>
    intro k at_ offset s
    dsimp only
    intro clocks runs synced
    refine (State.onClock_of_runs _ clocks).trans (if_neg ?_)
    simp [runs, synced]
  case flitSend =>
    intro n at_ s
    dsimp only
    intro clocks serves
    refine ⟨(State.onClock_of_runs _ clocks).trans (if_neg ?_), rfl, rfl, rfl, rfl⟩
    simp [serves]
  case flitReceive =>
    intro n at_ f s
    dsimp only
    intro clocks serves
    have heard : exec (.alignFlitReceive n at_ f) s = _ :=
      (State.onClock_of_runs _ clocks).trans (if_neg (by simp [serves]))
    rw [heard]
    refine ⟨fun root => if_pos root, fun root other => ?_, fun root parent => ?_⟩
    · simp [root, other]
    · simp [root, parent]
  case disabledDelay =>
    intro at_ s
    dsimp only
    intro alive disabled waited
    show execDisabledDelayExpire at_ s = _
    rcases waited with page | ⟨k, w, reset, due⟩ | ⟨q, w, request, due⟩
    · simp only [execDisabledDelayExpire, alive, disabled, page]; rfl
    · simp only [execDisabledDelayExpire, alive, disabled, reset, due, Bool.not_false, Bool.or_true]; rfl
    · simp only [execDisabledDelayExpire, alive, disabled, request, due, Bool.not_false, Bool.or_true]; rfl

end

/-! Settlement of the rows of the mesh, its reductions, the host's accesses to memory and the repairs (O23, O24, O26, O42). -/
section
namespace Sys2Proof.Machine

/-- A whole operand set of the oldest SEQ of its entry, all of one operation, is merged (R85). -/
theorem State.mergeAt_of_ready {s : State} {pos region tag seq w1 w2 : Nat} {e : RedPend} {first : MeshPacket} {rest : List MeshPacket}
    (entry : (s.router pos).redEntry region tag = some (w1, w2))
    (oldest : ((s.router pos).pend.find? fun e => e.key == redKey region tag) = some e) (inSeq : e.seq = seq)
    (operands : (childOrder w2).filterMap (fun k => (e.ops.find? fun o => o.1 == k).map (·.2)) = first :: rest)
    (ready : (s.router pos).mergeReady e = true) :
    s.mergeAt (hOp first.hdr) pos region tag seq = .next (s.mergeSet (hOp first.hdr) pos (redKey region tag) w1 e first rest) := by
  simp only [State.mergeAt, entry, oldest, operands]
  exact if_neg (by simp [inSeq, ready])

/-- A BAR4 access past the last cell of the scratchpad window is an Unsupported Request (R131). -/
theorem State.bar4Access_past_window {s : State} {off : Nat} (write : Bool) (size : Nat) (data : TlpData) (hits : List Upset)
    (past : 2048 * 524288 ≤ off) : s.bar4Access write off size data hits = s.emit .unsupported :=
  if_pos (.inl (by omega))

end Sys2Proof.Machine

open Sys2Proof Sys2Proof.Machine

/-- Settles O23: on a running grid each row is decided by its first condition that holds, and the conditions of the clauses single out one
branch. -/
theorem meshRowsComplete : Obligations.MeshRowsComplete := by
  unfold Obligations.MeshRowsComplete
  refine ⟨?arrive, ?forward, ?creditReturn, ?promote, ?planeFault⟩
  case arrive =>
    intro pos port pkt flip hits s grid inOrder
    dsimp only
    have arrives : exec (.meshPacketArrive pos port pkt ⟨flip, hits⟩) s = _ := (State.onGrid_of_runs _ grid).trans (if_neg (by simp [inOrder]))
    simp only [arrives]
    refine ⟨fun bad => if_pos bad, fun good mc noEntry => ?_, fun good mc entry => ?_, fun good single vn1 => ?_, fun good single other => ?_⟩
    · simp only [good, mc, noEntry, ne_eq, not_true, if_false, if_true]
    · obtain ⟨w1, hw1⟩ := Option.ne_none_iff_exists'.1 entry
      simp only [good, mc, hw1, ne_eq, not_true, if_false, if_true]
    · simp only [good, single, vn1, ne_eq, not_true, Bool.false_eq_true, if_false, if_true]
    · simp only [good, single, other, ne_eq, not_true, Bool.false_eq_true, if_false]
  case forward =>
    intro pos w e s grid oldest entry
    show execMcForward pos s = _
    rw [execMcForward, State.onGrid_of_runs _ grid]
    simp only [oldest, entry]
    split <;> rfl
  case creditReturn =>
    intro pos port vn n s grid
    have runs : exec (.linkCreditReturn pos port vn n) s = _ := State.onGrid_of_runs _ grid
    exact ⟨fun within => runs.trans (if_neg within.not_gt), fun above => runs.trans (if_pos above)⟩
  case promote =>
    intro pos w s grid oldest
    show execVn0AgePromote pos s = _
    rw [execVn0AgePromote, State.onGrid_of_runs _ grid]
    simp only [oldest]
  case planeFault =>
    intro pos s onDie power
    dsimp only
    have fails : exec (.routerPlaneFault pos) s = _ := if_neg (by simp [onDie, power])
    exact ⟨fun first => fails.trans (if_pos first), fun later => fails.trans (if_neg later)⟩

/-- Settles O24: each merge row is the merge of its operation code, and a whole operand set of that operation waits. -/
theorem reductionRowsComplete : Obligations.ReductionRowsComplete := by
  unfold Obligations.ReductionRowsComplete
  intro pos region tag seq w1 w2 e first rest s grid entry oldest inSeq operands ready
  have merges (op : Nat) (h : hOp first.hdr = op) : s.onGrid (s.mergeAt op pos region tag seq)
      = .next (s.mergeSet op pos (redKey region tag) w1 e first rest) := by
    rw [State.onGrid_of_runs _ grid, ← h, State.mergeAt_of_ready entry oldest inSeq operands ready]
  exact ⟨merges 1, merges 2, merges 3, merges 4⟩

/-- Settles O26: with the clocks running, the window, the sender's address and the memory's answer decide each access. -/
theorem hostAccessesToMemoryComplete : Obligations.HostAccessesToMemoryComplete := by
  unfold Obligations.HostAccessesToMemoryComplete
  refine ⟨?scratchpad, ?memory, ?cxlMem, ?snoop⟩
  case scratchpad =>
    intro write off size data hits s clocks
    have runs : exec (.bar4ScratchpadAccess write off size data hits) s = _ := State.onClock_of_runs _ clocks
    have made (free : s.sys.tickRest = none) : exec (.bar4ScratchpadAccess write off size data hits) s = _ := runs.trans (if_neg (by simp [free]))
    refine ⟨made, fun waits => runs.trans (if_pos (Option.isSome_iff_ne_none.2 waits)), fun free past => ?_⟩
    rw [made free, State.bar4Access_past_window write size data hits past]
  case memory =>
    intro fn slot off size data hits s clocks
    dsimp only
    have runs (write : Bool) : exec (.bar4MemoryAccess fn slot write off size data hits) s = _ := State.onClock_of_runs _ clocks
    constructor
    · intro write noAddress
      simp only [runs, noAddress]
    · intro a address inMemory inView
      have reached := not_or.2 ⟨inMemory.not_gt, inView.not_gt⟩
      simp only [runs, address]
      refine ⟨fun t ps written => ?_, fun f refused => ?_, fun t ps read => ?_, fun f refused => ?_⟩
      · rw [if_neg reached, written]; rfl
      · rw [if_neg reached, refused]; rfl
      · rw [if_neg reached, read]; rfl
      · rw [if_neg reached, refused]; rfl
  case cxlMem =>
    intro off size data poison hits s clocks
    dsimp only
    intro exposed
    have runs (write : Bool) : exec (.cxlMemRequest write off size data poison hits) s = _ :=
      (State.onClock_of_runs _ clocks).trans (if_neg exposed.not_gt)
    simp only [runs]
    refine ⟨fun t ps written => ?_, fun f lost => ?_, fun t ps read => ?_, fun f lost => ?_⟩
    · rw [written]; rfl
    · rw [lost]; rfl
    · rw [read]; rfl
    · rw [lost]; rfl
  case snoop =>
    intro addr s clocks
    exact State.onClock_of_runs _ clocks

/-- Settles O42: each row's conditions rule out, one by one, the reasons for which it passes over. -/
theorem repairRowsComplete : Obligations.RepairRowsComplete := by
  unfold Obligations.RepairRowsComplete
  refine ⟨?copy, ?waited, ?nvRetry, ?heartbeat, ?release⟩
  case copy =>
    intro q y p at_ s copying on inPhase notPast
    show execRepairCopy q y at_ s = _
    rw [execRepairCopy]
    simp only [copying]
    exact if_neg (by simp only [on, inPhase, notPast]; decide)
  case waited =>
    intro at_ r s clocks waits
    constructor
    · intro empty inTime
      show execRepairSwap at_ s = _
      rw [execRepairSwap, State.onClock_of_runs _ clocks]
      simp [waits, empty, inTime]
    · intro notEmpty late
      show execSwapWaitExpire at_ s = _
      rw [execSwapWaitExpire, State.onClock_of_runs _ clocks]
      simp [waits, notEmpty, late]
  case nvRetry =>
    intro at_ seq w s failed idle minute
    show execRepairNvRetry at_ s = _
    rw [execRepairNvRetry]
    simp only [failed, idle, minute, Bool.false_eq_true, if_false]
  case heartbeat =>
    intro k at_ s
    dsimp only
    intro isCore bus firmware inService limit
    show execCoreHeartbeatMiss k at_ s = _
    refine (if_neg ?_).trans (if_neg ?_)
    · have served := Bool.or_eq_true_iff.2 firmware
      simp only [isCore, bus, served, inService, decide_true, Bool.not_true, Bool.false_eq_true, ne_eq, not_true, or_self, not_false_eq_true]
    · rcases limit with missed | ues
      · simp [missed]
      · simp [ues]
  case release =>
    intro at_ w s cut waited ops cur
    show execPwrfailRelease at_ s = _
    rw [execPwrfailRelease]
    simp only [cut, waited, ops, cur]
    rfl

end

/-! Settlement of the scratchpad (O57, O25): what reporting leaves of the state, the bytes a store writes and the rows of the scratchpad. -/
section
namespace Sys2Proof.Machine

/-! ### What reporting may change (R438 to R445, R607, R608) -/

/-- A state with the pieces that counters, events, RAS reports and trace records write taken from another one. -/
def State.reportsFrom (r s : State) : State :=
  { s with out := r.out, regs := r.regs, bus := r.bus, ras := r.ras, sram := r.sram, cl := r.cl, trace := r.trace }

@[simp] theorem State.reportsFrom_bus (r s : State) (x : Bus) : State.reportsFrom r { s with bus := x } = State.reportsFrom r s := rfl
@[simp] theorem State.reportsFrom_ras (r s : State) (x : Ras) : State.reportsFrom r { s with ras := x } = State.reportsFrom r s := rfl
@[simp] theorem State.reportsFrom_trace (r s : State) (x : Trace) : State.reportsFrom r { s with trace := x } = State.reportsFrom r s := rfl
@[simp] theorem State.reportsFrom_sram_cl (r s : State) (m : EccMem) (c : Cluster) :
    State.reportsFrom r { s with sram := m, cl := c } = State.reportsFrom r s := rfl
@[simp] theorem State.reportsFrom_setReg (r s : State) (a : Nat) (v : Word) :
    State.reportsFrom r (s.setReg a v) = State.reportsFrom r s := rfl
@[simp] theorem State.reportsFrom_setFld (r s : State) (pg : Nat) (f : Fld) (v : Nat) :
    State.reportsFrom r (s.setFld pg f v) = State.reportsFrom r s := rfl
@[simp] theorem State.reportsFrom_setFld64 (r s : State) (pg : Nat) (f : Fld) (v : Nat) :
    State.reportsFrom r (s.setFld64 pg f v) = State.reportsFrom r s := rfl
@[simp] theorem State.reportsFrom_setRegBit (r s : State) (a k : Nat) (b : Bool) :
    State.reportsFrom r (s.setRegBit a k b) = State.reportsFrom r s := rfl
@[simp] theorem State.reportsFrom_emit (r s : State) (e : Emit) : State.reportsFrom r (s.emit e) = State.reportsFrom r s := rfl

@[simp] theorem State.reportsFrom_addNotes (r s : State) (ns : List SramNote) :
    State.reportsFrom r (s.addNotes ns) = State.reportsFrom r s := by
  unfold State.addNotes; split <;> rfl

@[simp] theorem State.reportsFrom_settleDead (r s : State) (first last : Nat) :
    State.reportsFrom r (s.settleDead first last) = State.reportsFrom r s := by
  unfold State.settleDead
  refine List.foldlRecOn (motive := fun a => State.reportsFrom r a = State.reportsFrom r s) _ _ rfl ?_
  intro a kept e _
  exact kept

@[simp] theorem State.reportsFrom_sramWrite (r s : State) (off : Nat) (bs : List Byte) :
    State.reportsFrom r (s.sramWrite off bs) = State.reportsFrom r s := by
  unfold State.sramWrite
  split
  · rfl
  · simp only [State.reportsFrom_addNotes, State.reportsFrom_sram_cl]
    split <;> split <;> simp only [State.reportsFrom_settleDead]

@[simp] theorem State.reportsFrom_rasOrder (r s : State) (i n : Nat) :
    State.reportsFrom r (s.rasOrder i n) = State.reportsFrom r s := by
  induction n generalizing s i with
  | zero => rfl
  | succ n ih =>
    rw [State.rasOrder]
    split
    · simp only [ih, State.reportsFrom_sramWrite]
    · rfl

@[simp] theorem State.reportsFrom_holdVector (r s : State) (vec : Nat) :
    State.reportsFrom r (s.holdVector vec) = State.reportsFrom r s := by
  unfold State.holdVector; split <;> rfl

@[simp] theorem State.reportsFrom_eventHeld (r s : State) (pg bit : Nat) :
    State.reportsFrom r (s.eventHeld pg bit) = State.reportsFrom r s := by
  simp [State.eventHeld, apply_ite (State.reportsFrom r)]

@[simp] theorem State.reportsFrom_bumpRaw (r s : State) (pg : Nat) (f : Fld) (bit n : Nat) :
    State.reportsFrom r (s.bumpRaw pg f bit n).1 = State.reportsFrom r s := by
  simp [State.bumpRaw, apply_ite Prod.fst, apply_ite (State.reportsFrom r)]

@[simp] theorem State.reportsFrom_rasRecord (r s : State) (cls code src : Nat) (loc : Dword) (detail : Nat) :
    State.reportsFrom r (s.rasRecord cls code src loc detail) = State.reportsFrom r s := by
  simp [State.rasRecord, apply_ite (State.reportsFrom r)]

@[simp] theorem State.reportsFrom_bump (r s : State) (pg : Nat) (f : Fld) (bit n : Nat) :
    State.reportsFrom r (s.bump pg f bit n) = State.reportsFrom r s := by
  simp [State.bump, State.counterSat, apply_ite (State.reportsFrom r)]

@[simp] theorem State.reportsFrom_sendMsix (r s : State) (fn vec : Nat) :
    State.reportsFrom r (s.sendMsix fn vec) = State.reportsFrom r s := by
  unfold State.sendMsix
  dsimp only
  split
  · split
    · rfl
    · rw [State.reportsFrom_bump, State.reportsFrom_bus]
  · rw [State.reportsFrom_bump, State.reportsFrom_emit]

@[simp] theorem State.reportsFrom_event (r s : State) (pg bit : Nat) :
    State.reportsFrom r (s.event pg bit) = State.reportsFrom r s := by
  unfold State.event State.vectorDue
  dsimp only
  split
  · split
    · rw [State.reportsFrom_sendMsix, State.reportsFrom_setRegBit]
    · rw [State.reportsFrom_holdVector, State.reportsFrom_setRegBit]
  · rw [State.reportsFrom_setRegBit]

@[simp] theorem State.reportsFrom_rasFirst (r s : State) (cls code src : Nat) (loc : Dword) :
    State.reportsFrom r (s.rasFirst cls code src loc) = State.reportsFrom r s := by
  unfold State.rasFirst
  dsimp only
  split
  · rfl
  · rw [State.reportsFrom_setFld64, State.reportsFrom_setFld64, State.reportsFrom_setFld, State.reportsFrom_setReg]

@[simp] theorem State.reportsFrom_traceRec (r s : State) (typ src : Nat) (payload : List Byte) :
    State.reportsFrom r (s.traceRec typ src payload) = State.reportsFrom r s := by
  simp [State.traceRec, apply_ite (State.reportsFrom r)]

@[simp] theorem State.reportsFrom_rasReport (r s : State) (cls code src : Nat) (loc : List Nat) (detail : Nat) :
    State.reportsFrom r (s.rasReport cls code src loc detail) = State.reportsFrom r s := by
  simp [State.rasReport, apply_ite (State.reportsFrom r)]

/-- States that agree but for what reports write have the same grid. -/
theorem State.grid_of_reportsFrom {r s t : State} (h : State.reportsFrom r t = State.reportsFrom r s) : t.grid = s.grid := by
  show (State.reportsFrom r t).grid = (State.reportsFrom r s).grid
  rw [h]

@[simp] theorem State.event_grid (s : State) (pg bit : Nat) : (s.event pg bit).grid = s.grid :=
  State.grid_of_reportsFrom (State.reportsFrom_event s s pg bit)
@[simp] theorem State.bump_grid (s : State) (pg : Nat) (f : Fld) (bit n : Nat) : (s.bump pg f bit n).grid = s.grid :=
  State.grid_of_reportsFrom (State.reportsFrom_bump s s pg f bit n)
@[simp] theorem State.rasReport_grid (s : State) (cls code src : Nat) (loc : List Nat) (detail : Nat) :
    (s.rasReport cls code src loc detail).grid = s.grid :=
  State.grid_of_reportsFrom (State.reportsFrom_rasReport s s cls code src loc detail)

/-! ### A position's errors leave every cell (R446 to R448, Table 4.7) -/

@[simp] theorem State.setCause_grid (s : State) (bit : Nat) (b : Bool) : (s.setCause bit b).grid = s.grid := by
  simp [State.setCause, apply_ite State.grid]

@[simp] theorem State.setPosFaulty_grid (s : State) (pos : Nat) : (s.setPosFaulty pos).grid = s.grid := rfl

@[simp] theorem State.decideRepair_cells (s : State) (pos : Nat) : (s.decideRepair pos).grid.cells = s.grid.cells := by
  simp [State.decideRepair, apply_ite State.grid, apply_ite Grid.cells]

@[simp] theorem State.makeFaulty_cells (s : State) (pos : Nat) : (s.makeFaulty pos).grid.cells = s.grid.cells := by
  simp [State.makeFaulty, apply_ite State.grid, apply_ite Grid.cells]

@[simp] theorem State.strike_cells (s : State) (pos : Nat) : (s.strike pos).grid.cells = s.grid.cells := by
  simp [State.strike, apply_ite State.grid, apply_ite Grid.cells]

@[simp] theorem State.ceReport_cells (s : State) (pos : Nat) : (s.ceReport pos).grid.cells = s.grid.cells := by
  simp [State.ceReport, apply_ite State.grid, apply_ite Grid.cells]

theorem State.cell_of_cells {s t : State} (h : t.grid.cells = s.grid.cells) (p : Nat) : t.cell p = s.cell p :=
  congrArg (mapGet Cell.zero · p) h

@[simp] theorem State.spCe_cell (s : State) (pos off p : Nat) : (s.spCe pos off).cell p = s.cell p :=
  State.cell_of_cells (by simp [State.spCe]) p
@[simp] theorem State.spUe_cell (s : State) (pos off p : Nat) : (s.spUe pos off).cell p = s.cell p :=
  State.cell_of_cells (by simp [State.spUe]) p
@[simp] theorem State.spPoisonRd_cell (s : State) (pos p : Nat) : (s.spPoisonRd pos).cell p = s.cell p :=
  State.cell_of_cells (by simp [State.spPoisonRd]) p
@[simp] theorem State.spScrubOw_cell (s : State) (pos p : Nat) : (s.spScrubOw pos).cell p = s.cell p :=
  State.cell_of_cells (by simp [State.spScrubOw]) p

/-! ### The bytes that a store leaves (R123, R648) -/

/-- Writing a list in two pieces, one after the other, writes the list. -/
theorem mapWrite_take_drop {α : Type} [DecidableEq α] (d : α) (n : Nat) (m : SMap α) (a : Nat) (vs : List α) :
    mapWrite d (mapWrite d m a (vs.take n)) (a + n) (vs.drop n) = mapWrite d m a vs := by
  induction n generalizing m a vs with
  | zero => rfl
  | succ n ih =>
    cases vs with
    | nil => rfl
    | cons v vs =>
      rw [show a + (n + 1) = a + 1 + n by omega]
      exact ih (mapSet d m a v) (a + 1) vs

/-- Whatever the class of the old value, a granule's write stores its bytes, and only its counts and reports depend on that class. -/
theorem State.spWriteGranule_bytes (s : State) (pos off : Nat) (bs : List Byte) (poison : Bool) (p : Nat) :
    ((s.spWriteGranule pos off bs poison).cell p).slice.bytes
      = if p = pos then mapWrite 0 (s.cell p).slice.bytes off bs else (s.cell p).slice.bytes := by
  have stored (c : Cell) (hc : c.slice.bytes = mapWrite 0 (s.cell pos).slice.bytes off bs) :
      ((s.setCell pos c).cell p).slice.bytes
        = if p = pos then mapWrite 0 (s.cell p).slice.bytes off bs else (s.cell p).slice.bytes := by
    rw [State.setCell_cell]
    split
    · next here => rw [hc, here]
    · rfl
  unfold State.spWriteGranule
  dsimp only
  split
  case h_1 clean => exact stored _ rfl
  case h_2 ce => rw [State.spCe_cell]; exact stored _ rfl
  case h_3 ue =>
    rw [apply_ite (State.cell · p), State.spScrubOw_cell, ite_self, State.spUe_cell]
    exact stored _ rfl
  case h_4 poisoned =>
    rw [apply_ite (State.cell · p), apply_ite (State.cell · p), State.spScrubOw_cell, State.spPoisonRd_cell, ite_self, ite_self]
    exact stored _ rfl

/-- Granule by granule, as far as the fuel reaches, a store writes all its bytes. -/
theorem State.spWriteFrom_bytes (s : State) (pos off : Nat) (bs : List Byte) (poison : List Nat) (fuel p : Nat)
    (reach : bs.length ≤ 8 * fuel - off % 8) :
    ((s.spWriteFrom pos off bs poison fuel).cell p).slice.bytes
      = if p = pos then mapWrite 0 (s.cell p).slice.bytes off bs else (s.cell p).slice.bytes := by
  induction fuel generalizing s off bs with
  | zero =>
    have nothing : bs = [] := List.eq_nil_of_length_eq_zero (by omega)
    simp [State.spWriteFrom, nothing, mapWrite]
  | succ fuel ih =>
    rw [State.spWriteFrom]
    split
    · next empty => simp [List.isEmpty_iff.1 empty, mapWrite]
    · have rest : (bs.drop (8 - off % 8)).length ≤ 8 * fuel - (off + (8 - off % 8)) % 8 := by
        rw [List.length_drop]; omega
      rw [ih _ _ _ rest, State.spWriteGranule_bytes]
      split
      · rw [mapWrite_take_drop]
      · rfl

/-- The granules that a range touches cover it. -/
theorem le_granulesOf (off size : Nat) : size ≤ 8 * granulesOf off size - off % 8 := by
  unfold granulesOf
  split <;> omega

theorem State.spWrite_bytes (s : State) (pos off : Nat) (bs : List Byte) (poison : List Nat) (p : Nat) :
    ((s.spWrite pos off bs poison).cell p).slice.bytes
      = if p = pos then mapWrite 0 (s.cell p).slice.bytes off bs else (s.cell p).slice.bytes :=
  s.spWriteFrom_bytes pos off bs poison _ p (le_granulesOf off bs.length)

/-- Each byte of the range reads the byte stored, every other byte of every slice reads as before. -/
theorem State.spWrite_byte (s : State) (pos off : Nat) (bs : List Byte) (poison : List Nat) (p i : Nat) :
    mapGet 0 ((s.spWrite pos off bs poison).cell p).slice.bytes i
      = if p = pos ∧ off ≤ i ∧ i < off + bs.length then bs.getD (i - off) 0 else mapGet 0 (s.cell p).slice.bytes i := by
  rw [State.spWrite_bytes]
  by_cases here : p = pos
  · simp only [here, if_true, true_and, mapGet_mapWrite]
  · simp only [here, if_false, false_and]

/-! ### The rows of the scratchpad (R112, R115, R116, R122, R127, R129) -/

@[simp] theorem length_takePad {α : Type} (d : α) (n : Nat) (l : List α) : (takePad d n l).length = n := by
  simp only [takePad, List.length_append, List.length_take, List.length_replicate]; omega

@[simp] theorem State.strikeSlice_nil (s : State) (pos : Nat) : s.strikeSlice pos [] = s := rfl

theorem requestMatches_self (r : Remote) (p : MeshPacket) :
    requestMatches r p r.src r.region r.write r.off r.size p.payload p.poison = true := by
  simp [requestMatches]

theorem responseMatches_self (r : Remote) (p : MeshPacket) : responseMatches r p r.srcCtx p.payload p.poison r.err = true := by
  simp [responseMatches]

/-- A granted access is decided by where its address leads. -/
theorem execSpAccessGrant_of_slice {s : State} {pos n addr size off : Nat} {write : Bool} {data : List Byte} {poison : List Nat}
    {hits : List Upset} (grid : s.gridRuns = true) (leads : ((s.strikeSlice pos hits).ctx pos n).access addr size = .slice off) :
    execSpAccessGrant pos n write addr size data poison hits s
      = .next (if write then (s.strikeSlice pos hits).spWrite pos off (takePad 0 size data) (poison.map (· + off / 8))
        else ((s.strikeSlice pos hits).spRead pos off size).1.setCell pos
          { ((s.strikeSlice pos hits).spRead pos off size).1.cell pos with
            rdata := ((s.strikeSlice pos hits).spRead pos off size).2.1
            rpoison := ((s.strikeSlice pos hits).spRead pos off size).2.2.map (· - off / 8) }) := by
  rw [execSpAccessGrant, State.onGrid_of_runs _ grid]
  simp only [leads]
  split <;> rfl

end Sys2Proof.Machine

open Sys2Proof Sys2Proof.Machine

/-- Settles O57: a store is its granules' stores one after the other, and the reports between them touch no cell. -/
theorem scratchpadStoreWritesItsBytes : Obligations.ScratchpadStoreWritesItsBytes := by
  unfold Obligations.ScratchpadStoreWritesItsBytes
  constructor
  · intro pos off p i bs poison s
    exact s.spWrite_byte pos off bs poison p i
  · intro pos n addr size off p i data poison s t leads granted outside
    change execSpAccessGrant pos n true addr size data poison [] s = .next t at granted
    by_cases grid : s.gridRuns = true
    · rw [execSpAccessGrant_of_slice (hits := []) grid leads] at granted
      cases granted
      rw [State.strikeSlice_nil, if_pos rfl, State.spWrite_byte, length_takePad, if_neg outside]
    · rw [execSpAccessGrant, State.onGrid_of_stopped _ (Bool.eq_false_iff.2 grid)] at granted
      cases granted
      rfl

/-- Settles O25: on a running grid each row is decided by where its address leads, what stands oldest at the Local port, or the condition of
its scrubber. -/
theorem scratchpadRowsComplete : Obligations.ScratchpadRowsComplete := by
  unfold Obligations.ScratchpadRowsComplete
  refine ⟨?slice, ?remote, ?refused, ?arrive, ?response, ?writeback, ?visit, ?late⟩
  case slice =>
    intro pos n addr size data poison hits off s grid
    dsimp only
    intro leads
    exact ⟨execSpAccessGrant_of_slice grid leads, execSpAccessGrant_of_slice grid leads⟩
  case remote =>
    intro pos n write addr size data poison hits x y off s grid
    dsimp only
    intro leads
    show execSpAccessGrant pos n write addr size data poison hits s = _
    rw [execSpAccessGrant, State.onGrid_of_runs _ grid]
    simp only [leads]
  case refused =>
    intro pos n write addr size data poison hits s grid
    dsimp only
    have runs : exec (.spAccessGrant pos n write addr size data poison hits) s = _ := State.onGrid_of_runs _ grid
    rw [runs]
    constructor
    · intro misformed
      simp only [misformed]
    · intro outOfBound
      simp only [outOfBound]
  case arrive =>
    intro pos hits p r s grid oldest
    show execRemoteAccessArrive pos r.src r.region r.write r.off r.size p.payload p.poison hits s = _
    rw [execRemoteAccessArrive, State.onGrid_of_runs _ grid]
    simp only [oldest, requestMatches_self, Bool.not_true, Bool.false_eq_true, if_false]
  case response =>
    intro pos p r s grid oldest
    dsimp only
    have answers : exec (.remoteReadResponse pos r.srcCtx p.payload p.poison r.err) s = _ := State.onGrid_of_runs _ grid
    simp only [oldest, responseMatches_self, Bool.not_true, Bool.false_eq_true, if_false] at answers
    exact ⟨fun error => answers.trans (if_pos error), fun good => answers.trans (if_neg (Bool.eq_false_iff.1 good))⟩
  case writeback =>
    intro pos granule e s grid pending
    show execCeWriteback pos granule s = _
    rw [execCeWriteback, State.onGrid_of_runs _ grid]
    simp only [pending]
  case visit =>
    intro pos hits s scrubs grid holds
    dsimp only
    exact (if_neg scrubs).trans (if_neg (by simp [grid, holds]))
  case late =>
    intro pos s scrubs grid holds past
    exact (if_neg (by simp [scrubs, grid, holds])).trans (if_neg past.not_gt)

end

/-! Settlement of the rows of the matrix engine (O29). -/
section
open Sys2Proof Sys2Proof.Machine

/-- Settles O29: on a running grid each row waits on its own hazard (R148, R191, R193), and without it the operand's format and its read decide
the effect. -/
theorem matrixRowsComplete : Obligations.MatrixRowsComplete := by
  unfold Obligations.MatrixRowsComplete
  intro pos n op u s grid
  dsimp only
  have swap : exec (.mxSwap pos n op u) s = _ := State.onGrid_of_runs _ grid
  have loadw : exec (.mxLoadw pos n op u) s = _ := State.onGrid_of_runs _ grid
  have mac : exec (.mxMac pos n op u) s = _ := State.onGrid_of_runs _ grid
  have read : exec (.mxRead pos n op u) s = _ := State.onGrid_of_runs _ grid
  refine ⟨?swap, ?swapWaits, ?load, ?loadWaits, ?mac, ?macWaits, ?read, ?readWaits⟩
  case swap =>
    intro complete
    exact swap.trans (if_pos complete)
  case swapWaits =>
    intro loading
    exact swap.trans (if_neg (Bool.eq_false_iff.1 loading))
  case load =>
    intro bs t free aligned operand
    rw [loadw, if_neg (Bool.eq_false_iff.1 free), if_neg (not_not.2 aligned), operand]
    rfl
  case loadWaits =>
    intro held
    exact loadw.trans (if_pos held)
  case mac =>
    intro bs ps t ready aligned nonempty atMost operand
    have format : ¬ (op.addr % blockBytes ((s.strikeSlice pos u.hits).ctx pos n).fmt ≠ 0 ∨ op.n = 0 ∨ 32 < op.n) := by
      omega
    rw [mac, if_neg (Bool.eq_false_iff.1 ready), if_neg format, operand]
  case macWaits =>
    intro waits
    exact mac.trans (if_pos waits)
  case read =>
    intro noneStalled
    rw [read, if_neg (by simp [noneStalled])]
    exact ⟨fun kept => if_pos kept, fun emitted => if_neg (Bool.eq_false_iff.1 emitted)⟩
  case readWaits =>
    intro stalled
    exact read.trans (if_pos (by simp [stalled]))

end

/-! Settlement of the vector engine (O30 to O33): what a mask register and a tile register read after a write, the lanes of an element-wise
operation, and the rows. -/
section
namespace Sys2Proof.Machine

/-! ### Tile registers (R163, R181) -/

/-- A slot of a tile register reads back what is written there, and no other slot changes. -/
theorem Ctx.setSlot_slot (c : Ctx) (r q : Nat) {i j : Nat} (x : Slot) (hi : i < 256) (hj : j < 256) :
    (c.setSlot r j x).slot q i = if q % 32 = r % 32 ∧ i = j then x else c.slot q i := by
  have sameKey : q % 32 * 256 + i = r % 32 * 256 + j ↔ q % 32 = r % 32 ∧ i = j := by omega
  simp only [Ctx.slot, Ctx.setSlot, mapGet_mapSet, sameKey]

theorem Ctx.setSlots_cons (c : Ctx) (r : Nat) (e : Nat × Slot) (vs : List (Nat × Slot)) :
    c.setSlots r (e :: vs) = (c.setSlot r e.1 e.2).setSlots r vs := rfl

/-- What a write under a mask puts into lane `i`: nothing where the mask disables it and its mode merges. -/
def Ctx.masked (c : Ctx) (op : OpFields) (res : Nat → Slot) (i : Nat) : Option Slot :=
  if c.enabled op i then some (res i) else if op.zeroMode then some Slot.zero else none

theorem Ctx.masked_getD (c : Ctx) (op : OpFields) (res : Nat → Slot) (i : Nat) (old : Slot) :
    (c.masked op res i).getD old = if c.enabled op i then res i else if op.zeroMode then Slot.zero else old := by
  unfold Ctx.masked
  split
  · rfl
  · split <;> rfl

theorem State.tileWrite_masked (s : State) (pos n : Nat) (op : OpFields) (idx : List Nat) (res : Nat → Slot) :
    s.tileWrite pos n op idx res = s.setCtx pos n ((s.ctx pos n).setSlots op.dst
      (idx.filterMap fun i => ((s.ctx pos n).masked op res i).map (i, ·))) := by
  unfold State.tileWrite Ctx.masked
  simp only [apply_ite (Option.map _), Option.map_some, Option.map_none]

/-- Each written lane of the tile holds what was put there, the lanes left out and every other tile what they held. -/
theorem Ctx.setSlots_filterMap_slot (c : Ctx) (r q : Nat) (put : Nat → Option Slot) {idx : List Nat} {i : Nat} (hi : i < 256)
    (bounded : ∀ j ∈ idx, j < 256) :
    (c.setSlots r (idx.filterMap fun j => (put j).map (j, ·))).slot q i
      = if q % 32 = r % 32 ∧ i ∈ idx then (put i).getD (c.slot q i) else c.slot q i := by
  induction idx generalizing c with
  | nil => simp [Ctx.setSlots, Ctx.slot]
  | cons j idx ih =>
    have hj : j < 256 := bounded j List.mem_cons_self
    have rest (c : Ctx) := ih c fun k hk => bounded k (List.mem_cons_of_mem j hk)
    cases h : put j with
    | none =>
      simp only [List.filterMap_cons, h, Option.map_none, rest, List.mem_cons]
      by_cases here : i = j
      · simp [here, h]
      · simp [here]
    | some x =>
      simp only [List.filterMap_cons, h, Option.map_some, Ctx.setSlots_cons, rest, Ctx.setSlot_slot c r q x hi hj, List.mem_cons]
      by_cases here : i = j
      · by_cases tile : q % 32 = r % 32 <;> simp [here, h, tile]
      · simp [here]

/-- A write of a whole tile under the operation's mask reaches each lane of DST as R181 says, and no other tile. -/
theorem State.tileWrite_slot (s : State) (pos n : Nat) (op : OpFields) (res : Nat → Slot) (r : Nat) {i : Nat} (hi : i < 256) :
    ((s.tileWrite pos n op allSlots res).ctx pos n).slot r i
      = if r % 32 = op.dst % 32 then
          (if (s.ctx pos n).enabled op i then res i else if op.zeroMode then Slot.zero else (s.ctx pos n).slot r i)
        else (s.ctx pos n).slot r i := by
  have everyLane : i ∈ allSlots := List.mem_range.2 hi
  rw [State.tileWrite_masked, State.setCtx_ctx, if_pos ⟨rfl, rfl⟩,
    Ctx.setSlots_filterMap_slot (idx := allSlots) _ _ _ _ hi fun j hj => List.mem_range.1 hj, Ctx.masked_getD]
  simp only [everyLane, and_true]

@[simp] theorem State.vxFlag_slot (s : State) (pos n fl r i : Nat) : ((s.vxFlag pos n fl).ctx pos n).slot r i = (s.ctx pos n).slot r i := by
  rw [State.vxFlag, State.setCtx_ctx, if_pos ⟨rfl, rfl⟩]
  rfl

@[simp] theorem State.vxRetire_ctx (s : State) (pos n : Nat) (op : OpFields) (p j : Nat) : (s.vxRetire pos n op).ctx p j = s.ctx p j := by
  unfold State.ctx State.vxRetire
  rw [State.setCell_cell]
  split
  · next here => subst here; rfl
  · rfl

theorem getD_map_allSlots {α : Type} (g : Nat → α) (d : α) {i : Nat} (hi : i < 256) : (allSlots.map g).getD i d = g i := by
  simp [allSlots, hi]

/-! ### Mask registers (R180) -/

theorem Ctx.mask_zero (c : Ctx) : c.mask 0 = BitVec.allOnes 256 := rfl
theorem Ctx.setMask_zero (c : Ctx) (v : BitVec 256) : c.setMask 0 v = c := rfl

/-- A mask register other than MK0 reads back what is written, and no other mask register changes. -/
theorem Ctx.setMask_mask (c : Ctx) (k j : Nat) (v : BitVec 256) (written : k % 8 ≠ 0) :
    (c.setMask k v).mask j = if j % 8 = k % 8 then v else c.mask j := by
  rw [Ctx.setMask, if_neg written]
  unfold Ctx.mask
  by_cases zero : j % 8 = 0
  · rw [if_pos zero, if_pos zero, if_neg (by omega)]
  · rw [if_neg zero, if_neg zero, mapGet_mapSet]

/-! ### The shapes of the element-wise rows (R170, R178) -/

variable {pos n : Nat} {op : OpFields} {u : EngineUpset} {v : VFmt} {s : State}

/-- An operation of one tile in a format it admits writes each lane's result. -/
theorem State.vx1_of_fmt {ok : VFmt → Bool} {consume : Bool} {f : VFmt → Nat → FRes} (format : vfmt op.fmt = some v) (admits : ok v = true) :
    s.vx1 pos n op u ok consume f = .next ((s.strikeSlice pos u.hits).vxTile pos n op u [op.srcA] consume v fun c i =>
      f v (v.get (c.slot op.srcA i).v)) := by
  simp only [State.vx1, format, admits, if_true]

/-- An operation of two tiles in a format it admits writes each lane's result. -/
theorem State.vx2_of_fmt {ok : VFmt → Bool} {f : VFmt → Nat → Nat → FRes} (format : vfmt op.fmt = some v) (admits : ok v = true) :
    s.vx2 pos n op u ok f = .next ((s.strikeSlice pos u.hits).vxTile pos n op u [op.srcA, op.srcB] true v fun c i =>
      f v (v.get (c.slot op.srcA i).v) (v.get (c.slot op.srcB i).v)) := by
  simp only [State.vx2, format, admits, if_true]

/-- A special function in a float format writes each lane's result, of one free value a lane. -/
theorem State.vxSpecial_of_float {fn : Nat → BitVec 64 → FRes} (format : vfmt op.fmt = some v) (float : v.isInt = false) :
    let s0 := s.strikeSlice pos u.hits
    s.vxSpecial pos n op u fn fn = .next (({ s0 with free := s0.free + 256 }).vxTile pos n op u [op.srcA] true v fun c i =>
      laneSpecial fn v (v.get (c.slot op.srcA i).v) (Config.freeValue (s0.free + i))) := by
  simp only [State.vxSpecial, format, float, ite_self, Bool.false_eq_true, if_false]

/-- A comparison in an element format writes its mask register and retires. -/
theorem State.vxCompare_of_fmt {f : VFmt → Nat → Nat → FRes} (format : vfmt op.fmt = some v) :
    s.vxCompare pos n op u f = .next (((s.strikeSlice pos u.hits).compareTiles pos n op u v (f v)).vxRetire pos n op) := by
  simp only [State.vxCompare, format]

end Sys2Proof.Machine

open Sys2Proof Sys2Proof.Machine

/-- Settles O31: the tile is written under the mask of the state its operands left, and flags and retirement touch no tile. -/
theorem vectorLanesWritten : Obligations.VectorLanesWritten := by
  unfold Obligations.VectorLanesWritten
  intro pos n op u srcs consume d f r i s hi
  show (((((s.vxOperands pos n op u srcs consume).1.tileWrite pos n op allSlots _).vxFlag pos n _).vxRetire pos n op).ctx pos n).slot r i = _
  rw [State.vxRetire_ctx, State.vxFlag_slot, State.tileWrite_slot _ _ _ _ _ _ hi, getD_map_allSlots _ _ hi]
  rfl

/-- Settles O32: MK0 is no entry of the map, and below 8 the other registers have an entry each. -/
theorem maskZeroReadsAllOnes : Obligations.MaskZeroReadsAllOnes := by
  unfold Obligations.MaskZeroReadsAllOnes
  intro c k j v hk hj
  refine ⟨c.mask_zero, c.setMask_zero v, ?same, ?other, fun op x y => rfl⟩
  case same =>
    intro written
    rw [Ctx.setMask_mask c k k v (by omega), if_pos rfl]
  case other =>
    intro apart
    by_cases zero : k = 0
    · rw [zero, Ctx.setMask_zero]
    · rw [Ctx.setMask_mask c k j v (by omega), if_neg (by omega)]

/-- Settles O30: on a running grid a row's format is one it admits, and then it is the lane function its shape applies. -/
theorem vectorArithmeticComplete : Obligations.VectorArithmeticComplete := by
  unfold Obligations.VectorArithmeticComplete
  intro pos n op u v s grid format
  dsimp only
  have unary (consume : Bool) (f : VFmt → Nat → FRes) := (State.onGrid_of_runs _ grid).trans
    (State.vx1_of_fmt (pos := pos) (n := n) (u := u) (s := s) (ok := anyFmt) (consume := consume) (f := f) format rfl)
  have binary (ok : VFmt → Bool) (f : VFmt → Nat → Nat → FRes) (admits : ok v = true) := (State.onGrid_of_runs _ grid).trans
    (State.vx2_of_fmt (pos := pos) (n := n) (u := u) (s := s) (f := f) format admits)
  refine ⟨binary anyFmt _ rfl, binary anyFmt _ rfl, binary anyFmt _ rfl, binary anyFmt laneMin rfl, binary anyFmt laneMax rfl,
    unary true _, unary true _, unary false _, ?sel, ?cvt, ?int, ?float⟩
  case sel =>
    have runs : exec (.vxSel pos n op u) s = _ := State.onGrid_of_runs _ grid
    rw [runs, format]
  case cvt =>
    intro d target
    have runs : exec (.vxCvt pos n op u) s = _ := State.onGrid_of_runs _ grid
    rw [runs, format, target]
  case int =>
    intro int
    exact ⟨binary intFmt _ int, binary intFmt _ int, binary intFmt _ int, binary intFmt _ int, binary intFmt laneShra int,
      binary intFmt laneShrl int⟩
  case float =>
    intro float
    have special (fn : Nat → BitVec 64 → FRes) := (State.onGrid_of_runs _ grid).trans
      (State.vxSpecial_of_float (pos := pos) (n := n) (u := u) (s := s) (fn := fn) format float)
    refine ⟨?fma, special (f32Exp 2), special f32Rcp, special f32Rsqrt, special f32Tanh, special f32Erf⟩
    have runs : exec (.vxFma pos n op u) s = _ := State.onGrid_of_runs _ grid
    rw [runs, format]
    exact if_neg (Bool.eq_false_iff.1 float)

/-- Settles O33: on a running grid the operand's format or shape is legal, and then its reads and writes decide the effect. -/
theorem vectorMovesAndMasksComplete : Obligations.VectorMovesAndMasksComplete := by
  unfold Obligations.VectorMovesAndMasksComplete
  intro pos n op u s grid
  dsimp only
  refine ⟨?inFormat, ?quantized, ?regrouped, ?pop, ?accrd, State.onGrid_of_runs _ grid, ?mkrange, State.onGrid_of_runs _ grid,
    State.onGrid_of_runs _ grid, State.onGrid_of_runs _ grid⟩
  case inFormat =>
    intro v format
    have compare (f : VFmt → Nat → Nat → FRes) := (State.onGrid_of_runs _ grid).trans
      (State.vxCompare_of_fmt (pos := pos) (n := n) (u := u) (s := s) (f := f) format)
    refine ⟨?bcast, ?trn, ?rows, ?red, compare laneEq, compare laneNe, compare laneLt, compare laneLe⟩
    case bcast =>
      have runs : exec (.vxBcast pos n op u) s = _ := State.onGrid_of_runs _ grid
      rw [runs, format]
      rfl
    case trn =>
      have runs : exec (.vxTrn pos n op u) s = _ := State.onGrid_of_runs _ grid
      rw [runs, format]
    case rows =>
      intro nonempty atMost aligned
      have legal : ¬ (op.n = 0 ∨ 16 < op.n ∨ op.addr % v.bytes ≠ 0) := by omega
      have load : exec (.vxLd pos n op u) s = _ := State.onGrid_of_runs _ grid
      have store : exec (.vxSt pos n op u) s = _ := State.onGrid_of_runs _ grid
      simp only [format, if_neg legal] at load store
      constructor
      · intro t bs ps got
        rw [load, got]
      · intro t written
        rw [store, written]
    case red =>
      intro scope place
      have runs : exec (.vxRed pos n op u) s = _ := State.onGrid_of_runs _ grid
      rw [runs, format]
      exact if_neg (not_or.2 ⟨scope, place⟩)
  case quantized =>
    intro t block pairs nonempty atMost written
    have legal : ¬ ((op.fmt ≠ 2 ∧ op.fmt ≠ 3) ∨ op.n % 2 ≠ 0 ∨ op.n = 0 ∨ 16 < op.n) := by omega
    have runs : exec (.vxQst pos n op u) s = _ := State.onGrid_of_runs _ grid
    rw [runs, if_neg legal]
    simp only [written]
  case regrouped =>
    intro t t2 bs ps off format shape inSource inTarget apart leads ready operand written
    have legal : ¬ (¬ (op.fmt = 4 ∨ op.fmt = 5 ∨ op.fmt = 8) ∨ s2cOk op.subop op.n op.ag op.c30 = false
        ∨ (op.addr < op.addr2 + op.n * op.ag * op.c30 * s2cBytes op.fmt ∧ op.addr2 < op.addr + op.n * op.ag * op.c30 * s2cBytes op.fmt)
        ∨ 2 ^ 30 ≤ op.addr ∨ 2 ^ 30 ≤ op.addr2) := by
      simp only [format, shape, not_true, Bool.true_eq_false, false_or]
      omega
    have runs : exec (.vxS2c pos n op u) s = _ := State.onGrid_of_runs _ grid
    rw [runs, if_neg legal, leads]
    simp only [ready, Bool.false_eq_true, if_false]
    rw [operand]
    simp only [written]
  case pop =>
    intro x r queue
    have runs : exec (.vxPop pos n op u) s = _ := State.onGrid_of_runs _ grid
    rw [runs, queue]
  case accrd =>
    intro subTile
    exact (State.onGrid_of_runs _ grid).trans (if_neg subTile.not_gt)
  case mkrange =>
    intro inTile
    exact (State.onGrid_of_runs _ grid).trans (if_neg inTile.not_gt)

end

/-! Settlement of the sections, their contexts and tokens (O28, O34): what a token's arrival does to its queue, and the rows of the sequencer
and of loads. -/
section
namespace Sys2Proof.Machine

/-! ### Tokens at a context (R97, R205, R206, R207, R223) -/

variable {s : State} {pos n ti : Nat}

/-- A context that is EMPTY, LOADING or HELD keeps no token (log entry 89). -/
theorem State.receiveToken_of_closed (tok : Token)
    (closed : (s.ctx pos n).state = .empty ∨ (s.ctx pos n).state = .loading ∨ (s.ctx pos n).state = .held) :
    s.receiveToken pos n ti tok = s.bump (pgCell pos) R.cell_XDROP 5 1 :=
  if_pos closed

/-- In any other context four places hold the tokens that wait, and a fifth token is a protocol error. -/
theorem State.receiveToken_of_opened (tok : Token) (notEmpty : (s.ctx pos n).state ≠ .empty) (notLoading : (s.ctx pos n).state ≠ .loading)
    (notHeld : (s.ctx pos n).state ≠ .held) :
    s.receiveToken pos n ti tok = if 4 ≤ ((s.ctx pos n).queue ti).length
      then (s.protoError pos (s.ctx pos n).region ti 0).faultRunAt pos n endInternal
      else s.setCtx pos n ((s.ctx pos n).setQueue ti ((s.ctx pos n).queue ti ++ [tok])) :=
  if_neg (by simp [notEmpty, notLoading, notHeld])

/-- TOKEN_ARRIVE with the value of the oldest token on its way lets that token in. -/
theorem execTokenArrive_of_taken {t : State} {tok : Token} (grid : s.gridRuns = true) (taken : s.takeToken pos n ti = some (t, tok)) :
    execTokenArrive pos n ti tok.v tok.poison s = .next (t.receiveToken pos n ti tok) := by
  rw [execTokenArrive, State.onGrid_of_runs _ grid, taken]
  exact if_pos rfl

end Sys2Proof.Machine

open Sys2Proof Sys2Proof.Machine

/-- Settles O28: both firing rows take the cell's next entry, and a token's arrival is decided by the state of its context and the room in its
queue. -/
theorem sequencerRowsComplete : Obligations.SequencerRowsComplete := by
  unfold Obligations.SequencerRowsComplete
  refine ⟨?fire, ?token⟩
  case fire =>
    intro pos t s grid entry
    have fires : exec (.triggerFire pos) s = _ := State.onGrid_of_runs _ grid
    have nops : exec (.nop pos) s = _ := State.onGrid_of_runs _ grid
    simp only [entry] at fires nops
    exact ⟨fires, fun noOperation => nops.trans (if_pos noOperation)⟩
  case token =>
    intro pos n ti tok s t grid taken
    dsimp only
    have arrives : exec (.tokenArrive pos n ti tok.v tok.poison) s = _ := execTokenArrive_of_taken grid taken
    rw [arrives]
    refine ⟨fun closed => ?_, fun notEmpty notLoading notHeld room => ?_, fun notEmpty notLoading notHeld full => ?_⟩
    · rw [State.receiveToken_of_closed tok closed]
    · rw [State.receiveToken_of_opened tok notEmpty notLoading notHeld, if_neg room.not_ge]
    · rw [State.receiveToken_of_opened tok notEmpty notLoading notHeld, if_pos full]

/-- Settles O34: each row's conditions rule out, one by one, the reasons for which it passes over, and the read of its image decides a LOAD. -/
theorem sectionRowsComplete : Obligations.SectionRowsComplete := by
  unfold Obligations.SectionRowsComplete
  refine ⟨?descriptors, ?accept, ?verify, ?readFail⟩
  case descriptors =>
    intro d x place image s clocks fetched ready noOutcome
    refine ⟨fun isLoad => ?load, fun isUnload => ?unload, fun isRun => ?run⟩
    case load =>
      have waits : ¬(x.type ≠ 2 ∨ x.phase ≠ .ready ∨ x.post.isSome) := by simp [isLoad, ready, noOutcome]
      have takenUp : exec (.descLoad d place image) s = _ := State.onClock_of_runs _ clocks
      simp only [fetched, if_neg waits] at takenUp
      constructor
      · intro t bs read
        rw [takenUp, read]
      · intro t e failed
        rw [takenUp, failed]
    case unload =>
      have takenUp : exec (.descUnload d) s = _ := State.onClock_of_runs _ clocks
      rw [takenUp, fetched]
      exact if_pos ⟨isUnload, ready, Option.isNone_iff_eq_none.2 noOutcome⟩
    case run =>
      have takenUp : exec (.descRun d) s = _ := State.onClock_of_runs _ clocks
      rw [takenUp, fetched]
      exact if_pos ⟨isRun, ready, Option.isNone_iff_eq_none.2 noOutcome⟩
  case accept =>
    intro d reg l s clocks loading notAccepted power notHeld free region
    show execLoadAccept d s = _
    rw [execLoadAccept, State.onClock_of_runs _ clocks]
    simp [loading, notAccepted, power, notHeld, free, region]
  case verify =>
    intro d l at_ s clocks loading accepted arriving
    have completes : exec (.imageVerifyComplete d at_) s = _ := State.onClock_of_runs _ clocks
    rw [completes, loading]
    exact if_neg (by simp [accepted, arriving])
  case readFail =>
    intro d l how at_ s clocks loading arriving fails
    have ends : exec (.imageReadFail d how at_) s = _ := State.onClock_of_runs _ clocks
    rw [ends, loading]
    exact if_neg (by simp [arriving, fails])

end

/-! Settlement of the stream rows of the cells and of the stream engines (O35). -/
section
namespace Sys2Proof.Machine

/-- A local packet that no earlier one of its network precedes is taken, and the place it is taken from decides who receives it: an engine
(R245), or the cell. -/
theorem execStreamDataArrive_of_mayTake {s : State} {pos : Nat} {pkt : MeshPacket} (grid : s.gridRuns = true) (op : hOp pkt.hdr = 0)
    (crd : hCrd pkt.hdr = false) (body : pkt.body = .data) (first : s.mayTake pos pkt = true) :
    execStreamDataArrive pos pkt s = .next (match (s.takePacket pos pkt).2 with
      | some k => (s.takePacket pos pkt).1.engineTakes k pkt
      | none => (s.takePacket pos pkt).1.cellData pos pkt) := by
  rw [execStreamDataArrive, State.onGrid_of_runs _ grid, if_neg (by simp [op, crd, body]), if_neg (by simp [first])]
  rcases s.takePacket pos pkt with ⟨s1, _ | k⟩ <;> rfl
/-- A CRD packet likewise returns its credits to the producer end of an engine, of a bridge, or of the cell (R236). -/
theorem execCrdArrive_of_mayTake {s : State} {pos : Nat} {pkt : MeshPacket} (grid : s.gridRuns = true) (op : hOp pkt.hdr = 0)
    (crd : hCrd pkt.hdr = true) (body : pkt.body = .data) (first : s.mayTake pos pkt = true) :
    execCrdArrive pos pkt s = .next (match (s.takePacket pos pkt).2 with
      | some k => if k < 32 then (s.takePacket pos pkt).1.engineCredit k pkt else (s.takePacket pos pkt).1.bridgeCredit k pkt
      | none => (s.takePacket pos pkt).1.cellCredit pos pkt) := by
  rw [execCrdArrive, State.onGrid_of_runs _ grid, if_neg (by simp [op, crd, body]), if_neg (by simp [first])]
  rcases s.takePacket pos pkt with ⟨s1, _ | k⟩ <;> rfl

end Sys2Proof.Machine

open Sys2Proof Sys2Proof.Machine

/-- Settles O35: each row's conditions rule out, one by one, the reasons for which it passes over; where the unit lies, whether the host must
be asked for its lines, and the memory's answer then decide the effect. -/
theorem streamAndEngineRowsComplete : Obligations.StreamAndEngineRowsComplete := by
  unfold Obligations.StreamAndEngineRowsComplete
  refine ⟨?arrive, ?cellReturn, ?engineReturn, ?send, ?read, ?write, ?migrateIn, ?migrateOut, ?return_, ?complete, ?granted, ?resume⟩
  case arrive =>
    intro pos pkt s grid op body first
    exact ⟨fun data => execStreamDataArrive_of_mayTake grid op data body first, fun crd => execCrdArrive_of_mayTake grid op crd body first⟩
  case cellReturn =>
    intro pos n i e s grid isCell bound consumer released
    show execCrdTimerReturn pos n i s = _
    rw [execCrdTimerReturn, State.onGrid_of_runs _ grid, if_pos isCell, bound]
    exact if_pos ⟨consumer, released⟩
  case engineReturn =>
    intro k n i e s grid isEngine bound consumer released
    show execCrdTimerReturn k n i s = _
    rw [execCrdTimerReturn, State.onGrid_of_runs _ grid, if_neg isEngine.not_gt, bound]
    exact if_pos (by simp [consumer, released])
  case send =>
    intro pos n i e peer s grid bound toPeer producer packet credits
    have sends : exec (.streamUnitSend pos n i) s = _ := State.onGrid_of_runs _ grid
    simp only [bound, toPeer] at sends
    exact sends.trans (if_neg (by simp [producer, packet.ne', credits.not_gt]))
  case read =>
    intro k i ei j e s clocks inHand bound end_ isRead good running units window credit
    dsimp only
    have reads : exec (.seRead k i) s = _ := State.onClock_of_runs _ clocks
    have mayRead : ¬(j.opc ≠ 0 ∨ j.bad.isSome ∨ s.stopped j.region ∨ j.total ≤ j.issued ∨ 256 ≤ j.issued - j.moved ∨ !e.hasCredit 1) := by
      simp [isRead, good, running, units.not_ge, window.not_ge, credit]
    simp only [inHand, bound, end_, if_neg mayRead] at reads
    refine ⟨fun host => reads.trans (if_pos host), fun local_ remote => ?_, fun local_ own ask => ?_, fun local_ own ready => ?_⟩
    all_goals rw [if_neg local_] at reads
    · exact reads.trans (if_pos remote)
    · rw [if_neg (not_not.2 own)] at reads
      exact reads.trans (if_pos ask)
    · rw [if_neg (not_not.2 own), if_neg (Bool.eq_false_iff.1 ready)] at reads
      constructor
      · intro ps lies
        rw [reads, lies]
      · intro f fails
        rw [reads, fails]
  case write =>
    intro k i ei j e un rest hits s clocks inHand bound end_ received isWrite good
    dsimp only
    have writes : exec (.seWrite k i hits) s = _ := State.onClock_of_runs _ clocks
    have mayWrite : ¬(j.opc ≠ 1 ∨ j.bad.isSome) := by simp [isWrite, good]
    simp only [inHand, bound, end_, received, if_neg mayWrite] at writes
    refine ⟨fun host room => ?_, fun local_ units remote => ?_, fun local_ units own ask => ?_, fun local_ units own ready => ?_⟩
    · rw [writes, if_pos host, if_neg room.not_gt]
    all_goals rw [if_neg local_, if_neg units.not_ge] at writes
    · exact writes.trans (if_pos remote)
    · rw [if_neg (not_not.2 own)] at writes
      exact writes.trans (if_pos ask)
    · rw [if_neg (not_not.2 own), if_neg (Bool.eq_false_iff.1 ready)] at writes
      constructor
      · intro t ps written
        rw [writes, written]
      · intro f fails
        rw [writes, fails]
  case migrateIn =>
    intro k i j hits s clocks inHand may
    dsimp only
    have migrates : exec (.seMigrateIn k i hits) s = _ := State.onClock_of_runs _ clocks
    simp only [inHand, may, Bool.not_true, Bool.false_eq_true, if_false, Option.isNone_iff_eq_none] at migrates
    refine ⟨fun outOfBound => migrates.trans (if_pos outOfBound), fun lies remote => ?_, fun lies own ask => ?_, fun t ps lies own ready read => ?_⟩
    all_goals rw [if_neg lies] at migrates
    · exact migrates.trans (if_pos remote)
    · rw [if_neg (not_not.2 own)] at migrates
      exact migrates.trans (if_pos ask)
    · rw [migrates, if_neg (not_not.2 own), if_neg (Bool.eq_false_iff.1 ready), read]
  case migrateOut =>
    intro k i pos off j strike hits s clocks inHand may lies
    dsimp only
    have migrates : exec (.seMigrateOut k i strike hits) s = _ := State.onClock_of_runs _ clocks
    simp only [inHand, may, lies, Bool.not_true, Bool.false_eq_true, if_false] at migrates
    refine ⟨fun own ask => migrates.trans (if_pos ⟨own, ask⟩), fun remote => ?_, fun t ps own ready written => ?_⟩
    · exact migrates.trans ((if_neg fun asks => remote asks.1).trans (if_pos remote))
    · rw [migrates, if_neg fun asks => Bool.eq_false_iff.1 ready asks.2, if_neg (not_not.2 own), written]
  case return_ =>
    intro k i u j data how hits s clocks inHand issued notMoved notBack isRead
    have returns : exec (.moduleReadReturn k i u data how hits) s = _ := State.onClock_of_runs _ clocks
    have outstanding : ¬(j.issued ≤ u ∨ u < j.moved ∨ j.buf.any (fun b => b.1 == u) ∨ j.opc ≠ 0) := by
      simp [issued.not_ge, notMoved.not_gt, Bool.eq_false_iff.1 notBack, isRead]
    simp only [inHand, if_neg outstanding] at returns
    refine ⟨fun host => ?_, fun t ps local_ own read => ?_, fun f local_ own fails => ?_⟩
    · rw [returns, if_pos host]
      split <;> rfl
    · rw [returns, if_neg local_, if_neg (not_not.2 own), read]
    · rw [returns, if_neg local_, if_neg (not_not.2 own), fails]
  case complete =>
    intro k i j s clocks inHand ended
    have completes : exec (.seDescComplete k i) s = _ := State.onClock_of_runs _ clocks
    rw [completes, inHand]
    refine if_neg ?_
    rintro ⟨good, left⟩
    rcases ended with failed | ⟨moved, acked⟩
    · simp [Option.isNone_iff_eq_none.1 good] at failed
    · omega
  case granted =>
    intro k i u j e data s clocks inHand asked
    have grants : exec (.bisnpResponse k i ⟨u, data⟩) s = _ := State.onClock_of_runs _ clocks
    simp only [inHand, asked] at grants
    exact grants
  case resume =>
    intro k s clocks paused admitted
    have resumes : exec (.migrationResume k) s = _ := State.onClock_of_runs _ clocks
    exact resumes.trans (if_pos ⟨paused, by rw [admitted]; rfl⟩)

end

/-! Settlement of the rows of the module channels and of the press (O36, O37). -/
section
namespace Sys2Proof.Machine

/-- When a channel meets a loss condition (R454). -/
theorem State.lossMet_iff (s : State) (c why : Nat) : s.lossMet c why = true ↔
    why = 0 ∧ 3 ≤ (s.module c).trainFails ∨ why = 1 ∧ 3 ≤ (recent s.tb 1000000000 (s.module c).wcrcTimes).length
      ∨ why = 2 ∧ s.fld pgRepair R.repair_CH_UE_THR ≤ (recent s.tb 3600000000000 (s.module c).ueTimes).length ∨ why = 3 := by
  match why with
  | 0 | 1 | 2 | 3 => simp [State.lossMet]
  | _ + 4 => simp [State.lossMet]

/-- A channel neither lost nor in service is brought up: the SPD tells whether the module is fit, then the training decides (R268, R269). -/
theorem execChannelBringup_of_idle {s : State} {c : Nat} (spd : Spd) (trains : Bool) (clocks : s.clocked = true) (isChannel : c < 16)
    (notLost : s.memLost c = false) (idle : s.inService c = false) :
    execChannelBringup c spd trains s = if !spd.fits then .next ((s.setMemSts c 3 true).channelCause)
      else .next (if trains then s.channelUp c spd else s.trainFailed c) := by
  rw [execChannelBringup, State.onClock_of_runs _ clocks]
  exact if_neg (by simp [isChannel, notLost, idle])

/-- At 105 °C the press is granted no burst, whatever its limit was (R301). -/
theorem State.goHot_pawLimit (s : State) (c : Nat) (temp : Int) : ((s.goHot c temp).pressOf c).pawLimit = 0 := by
  simp only [State.goHot, State.setPress_pressOf, if_true]

end Sys2Proof.Machine

open Sys2Proof Sys2Proof.Machine

/-- Settles O36: the service state of the channel lets each row act, and the SPD, the training, the retry or the loss condition picks its
effect. -/
theorem channelRowsComplete : Obligations.ChannelRowsComplete := by
  unfold Obligations.ChannelRowsComplete
  refine ⟨?bringup, ?writeCrc, ?writeback, ?scrub, ?lost⟩
  case bringup =>
    intro c spd trains s clocks isChannel notLost idle
    have bringsUp (b : Bool) : exec (.channelBringup c spd b) s = _ := execChannelBringup_of_idle spd b clocks isChannel notLost idle
    refine ⟨fun unfit => ?_, fun fit => ⟨?_, ?_⟩⟩
    · rw [bringsUp, if_pos (by simp [unfit])]
    · rw [bringsUp, if_neg (by simp [fit]), if_neg Bool.false_ne_true]
    · rw [bringsUp, if_neg (by simp [fit]), if_pos rfl]
  case writeCrc =>
    intro c off thrice s clocks inService
    have retries (again : Bool) : exec (.memWcrcError c off again thrice) s = _ := State.onClock_of_runs _ clocks
    simp only [inService, Bool.not_true, Bool.false_eq_true, if_false] at retries
    exact ⟨retries false, retries true⟩
  case writeback =>
    intro c granule s clocks pending
    have writesBack : exec (.moduleCeWriteback c granule) s = _ := State.onClock_of_runs _ clocks
    exact writesBack.trans (if_pos (List.contains_iff_mem.2 pending))
  case scrub =>
    intro c hits s clocks scrubs inService
    have visits : exec (.moduleScrubVisit c hits) s = _ := State.onClock_of_runs _ clocks
    rw [if_neg scrubs, if_neg (by simp [inService])] at visits
    exact visits
  case lost =>
    intro c why s clocks isChannel notLost condition
    have loses : exec (.channelLost c why) s = _ := State.onClock_of_runs _ clocks
    exact loses.trans (if_neg (by simp [isChannel, notLost, (State.lossMet_iff s c why).2 condition]))

/-- Settles O37: what each row finds in its queue selects the command it works on, its conditions rule out the reasons for which it passes
over, and for issue and burst the reach of the segments decides between the effect and the refusal. -/
theorem pressRowsComplete : Obligations.PressRowsComplete := by
  unfold Obligations.PressRowsComplete
  refine ⟨?issue, ?accept, ?attn, ?burst, ?complete, ?reset, ?hot, ?poll, ?timeout⟩
  case issue =>
    intro c q ei at_ pr e un rest s
    dsimp only
    intro clocks pair bound end_ received available inService whole mayIssue
    have issues : exec (.pressCmdIssue c q at_) s = _ := State.onClock_of_runs _ clocks
    rw [received] at whole
    simp only [pair, bound, end_, received, available, inService, if_neg whole.not_gt, mayIssue, Bool.not_true, Bool.or_self, Bool.false_eq_true,
      if_false] at issues
    constructor
    · intro unexposed
      exact issues.trans (if_neg (Bool.eq_false_iff.1 unexposed))
    · intro exposed
      exact issues.trans (if_pos exposed)
  case accept =>
    intro c q slot at_ e s clocks written valid
    have accepts : exec (.pressCmdAccept c q slot at_) s = _ := State.onClock_of_runs _ clocks
    simp only [written, valid] at accepts
    exact accepts
  case attn =>
    intro c q m ms s clocks oldest good notComputed hasRead
    have computes : exec (.pressAttn c q) s = _ := State.onClock_of_runs _ clocks
    simp only [oldest] at computes
    exact computes.trans (if_neg (by simp [good, notComputed, hasRead]))
  case burst =>
    intro c q at_ hits m s
    dsimp only
    intro clocks atWork ready window inService
    have starts : exec (.pressBurstStart c at_ hits) s = _ := State.onClock_of_runs _ clocks
    simp only [atWork] at starts
    rw [if_neg (by simp [ready, window, inService])] at starts
    constructor
    · intro unexposed
      exact starts.trans (if_neg (Bool.eq_false_iff.1 unexposed))
    · intro exposed
      exact starts.trans (if_pos exposed)
  case complete =>
    intro c q at_ m ms s
    dsimp only
    intro clocks oldest ended waited notEarly inService
    have completes : exec (.pressCmdComplete c q at_) s = _ := State.onClock_of_runs _ clocks
    simp only [oldest] at completes
    refine completes.trans (if_neg ?_)
    rintro (⟨good, unfinished⟩ | early | future | outOfService)
    · rcases ended with rejected | computed
      · exact rejected good
      · simp [computed] at unfinished
    · exact waited.not_gt early
    · simp [notEarly] at future
    · simp [inService] at outOfService
  case reset =>
    intro c q s clocks available isQueue
    have resets : exec (.pressQueueReset c q) s = _ := State.onClock_of_runs _ clocks
    exact resets.trans (if_pos ⟨available, isQueue⟩)
  case hot =>
    intro c temp s clocks hot available
    have rejects : exec (.pressHot c temp) s = _ := State.onClock_of_runs _ clocks
    exact ⟨rejects.trans (if_neg (not_or.2 ⟨hot.not_gt, by simp [available]⟩)), s.goHot_pawLimit c temp⟩
  case poll =>
    intro c q at_ pr s clocks pair outstanding
    have polls : exec (.pressQcompPoll c q at_) s = _ := State.onClock_of_runs _ clocks
    simp only [pair] at polls
    refine polls.trans (if_neg ?_)
    simp only [Bool.and_eq_true, List.isEmpty_iff, not_and_or]
    exact outstanding
  case timeout =>
    intro c q at_ pr m s clocks pair waiting late
    have timesOut : exec (.pressTimeout c q at_) s = _ := State.onClock_of_runs _ clocks
    simp only [pair, waiting] at timesOut
    exact timesOut.trans (if_neg late.not_gt)

end

/-! Settlement of the register reads, the host's snoops, the rows of the host link and its queues, and the rows that write registers of control
pages and tenants (O12, O27, O38, O51). -/
section
namespace Sys2Proof.Machine

/-! ### Register reads over the bus (R309, R609, R610) -/

/-- An answered read outside the VFs sends its requester what the register reads. -/
theorem State.busRead_of_answers {s : State} {rq : Req} {addr : Nat} (answers : (s.onBus rq).readAnswers rq.iface addr = true)
    (notVf : vfOf rq addr = none) :
    s.busRead rq addr = ((s.onBus rq).readReg rq.iface addr).1.emit (.regData rq ((s.onBus rq).readReg rq.iface addr).2) := by
  simp only [State.onBus] at answers ⊢
  rw [State.busRead, answers, notVf]
  rfl

/-- An answered read in BAR0 of an enabled VF sends its requester what that BAR0 shows (R309). -/
theorem State.busRead_of_vf {s : State} {rq : Req} {addr v : Nat} (answers : (s.onBus rq).readAnswers rq.iface addr = true)
    (inVf : vfOf rq addr = some v) (enabled : (s.onBus rq).vfEnabled v = true) :
    s.busRead rq addr = ((s.onBus rq).readVf v (addr % 2 ^ 26)).1.emit (.regData rq ((s.onBus rq).readVf v (addr % 2 ^ 26)).2) := by
  simp only [State.onBus] at answers enabled ⊢
  rw [State.busRead, answers, inVf]
  simp only [enabled, Bool.not_true, Bool.false_eq_true, if_false]

/-! ### What leaves the block -/

/-- While the clocks run nothing silences the links (R433, R638, R416). -/
theorem State.linksQuiet_of_clocked {s : State} (clocks : s.clocked = true) : s.linksQuiet = false := by
  simp only [State.clocked, Bool.and_eq_true, Bool.not_eq_true', Option.isNone_iff_eq_none] at clocks
  obtain ⟨⟨⟨-, notTripped⟩, noCut⟩, -⟩ := clocks
  simp [State.linksQuiet, notTripped, noCut]

/-- While the clocks run everything emitted leaves. -/
theorem State.emit_out_of_clocked {s : State} (e : Emit) (clocks : s.clocked = true) : (s.emit e).out = e :: s.out := by
  simp [State.emit, State.linksQuiet_of_clocked clocks]

/-- What has left is all that an emission changes. -/
theorem State.emit_with_out (s : State) (e : Emit) : { s.emit e with out := s.out } = s := rfl

/-! ### Doorbells and VF windows (R313, R319, R320) -/

/-- A doorbell page that a tenant holds takes 4-byte writes; any other width is an error of that tenant. -/
theorem State.doorbell_of_held {s : State} {vf page t : Nat} (size off : Nat) (f : State → Nat → State)
    (held : s.pageTenant vf page = some (some t)) :
    s.doorbell vf page size off f = if size ≠ 4 then s.hostError off 0x10 (some t) vf (if vf = 0 then 0 else page) else f s t := by
  simp only [State.doorbell, held]

/-- A tail within the queue of an enabled tenant becomes its tail. -/
theorem State.tailRung_sqTail {a : State} {val : Word} {t : Nat} (vf page : Nat) (enabled : a.qEnabled t = true)
    (within : val.toNat % 2 ^ 13 < a.sqSize t) : ((a.tailRung vf page val t).tenant t).sqTail = val.toNat % 2 ^ 13 := by
  simp only [State.tailRung, enabled, Bool.not_true, Bool.false_eq_true, if_false, if_neg within.not_ge, State.onTenant_tenant, if_true]

/-- A write through one of the eight windows of an enabled VF reaches that window. -/
theorem execVfWindowWrite_of_enabled {s : State} {vf k : Nat} (off : Nat) (val : Word) (at_ : Dword) (clocks : s.clocked = true) (notPf : vf ≠ 0)
    (enabled : (s.advance at_).vfEnabled vf = true) (isWindow : k < 8) :
    execVfWindowWrite vf k off val at_ s = .next ((s.advance at_).windowWrite vf k off val) := by
  rw [execVfWindowWrite, State.onClock_of_runs _ clocks]
  exact if_neg (by simp [notPf, enabled, isWindow])

/-- What a window shows decides a write through it: a tenant's word that windows may write, another word of the tenant, or no tenant. -/
theorem State.windowWrite_of_tenant {s : State} {vf k t : Nat} (off : Nat) (val : Word) (shows : s.tenantOf vf k = some t) :
    s.windowWrite vf k off val
      = if windowWritable off then (s.writeTenant .fn t off vf k val).1 else s.hostError off 0x11 (some t) vf k := by
  rw [State.windowWrite, shows, Option.elim_some]

theorem State.windowWrite_of_empty {s : State} {vf k : Nat} (off : Nat) (val : Word) (empty : s.tenantOf vf k = none) :
    s.windowWrite vf k off val = s.hostError off 0x11 none vf k := by
  rw [State.windowWrite, empty, Option.elim_none]

/-! ### Rows that are one register write -/

/-- A row that performs one register write answers what the write leaves. -/
theorem next_busWrite_of_writes {s : State} {rq : Req} {addr : Nat} (val : Word) (body : State → State × Nat) (performed : s.writes rq addr) :
    (.next (s.busWrite rq addr val body) : Host.Outcome State Fault Refusal) = .next (s.logged rq addr val (body (s.onBus rq))) :=
  congrArg Host.Outcome.next (State.busWrite_of_writes val body performed)

/-- The power-state requests keep NAP_EN in the word they write (R589). -/
theorem State.busLp_of_writes {s : State} {rq : Req} (q : Nat) (performed : s.writes rq (pgPower * 0x1000 + 0xC0)) :
    s.busLp rq q = s.logged rq (pgPower * 0x1000 + 0xC0) (BitVec.ofNat 32 (q + s.fld pgPower R.power_LP_NAP_EN * 16))
      ((s.onBus rq).writeLp rq.iface (BitVec.ofNat 32 (q + s.fld pgPower R.power_LP_NAP_EN * 16))) := by
  rw [State.busLp, State.busWrite_of_writes _ _ performed]

/-- The reset rows write their kind with GO set (R581). -/
theorem State.busRst_of_writes {s : State} {rq : Req} (kind : Nat) (performed : s.writes rq (pgTop * 0x1000 + 0x54)) :
    s.busRst rq kind = s.logged rq (pgTop * 0x1000 + 0x54) (BitVec.ofNat 32 (0x100 + kind))
      ((s.onBus rq).writeRst rq.iface (BitVec.ofNat 32 (0x100 + kind))) := by
  rw [State.busRst, State.busWrite_of_writes _ _ performed]

end Sys2Proof.Machine

open Sys2Proof Sys2Proof.Machine

/-- Settles O12: both bus rows are one read, and the UART's row reads where the bus is alive. -/
theorem registerReadsComplete : Obligations.RegisterReadsComplete := by
  unfold Obligations.RegisterReadsComplete
  refine ⟨?register, ?vf, ?uart⟩
  case register =>
    intro rq addr s answers notVf
    have read := congrArg (Host.Outcome.next (φ := Fault) (ρ := Refusal)) (State.busRead_of_answers answers notVf)
    exact ⟨read, read⟩
  case vf =>
    intro rq addr v s answers inVf enabled
    have read := congrArg (Host.Outcome.next (φ := Fault) (ρ := Refusal)) (State.busRead_of_vf answers inVf enabled)
    exact ⟨read, read⟩
  case uart =>
    intro addr val at_ image how places s alive
    show execUartRegAccess false addr val at_ image how places s = _
    simp only [execUartRegAccess, alive, Bool.not_true, Bool.false_eq_true, if_false]

/-- Settles O27: the snoop's row only emits its answer, and while the clocks run the links let it out. -/
theorem snoopsFindNoLine : Obligations.SnoopsFindNoLine := by
  unfold Obligations.SnoopsFindNoLine
  intro addr s clocks
  exact ⟨s.emit (.cxl cxlNotHeld addr [] false), State.onClock_of_runs _ clocks, State.emit_out_of_clocked _ clocks, State.emit_with_out s _⟩

/-- Settles O38: each row's conditions rule out the reasons for which it passes over; what a doorbell page or a window holds decides the rest. -/
theorem hostRowsComplete : Obligations.HostRowsComplete := by
  unfold Obligations.HostRowsComplete
  refine ⟨?train, ?linkLoss, ?flrVf, ?flrPf, ?unmask, ?sriovAndHdm, ?doorbells, ?window, ?fetch, ?fetched⟩
  case train =>
    intro rate width flit cxl at_ s up slowest fastest
    show (_ → execHostLinkTrain rate width flit cxl at_ s = _) ∧ (_ → _ → execHostLinkTrain rate width flit cxl at_ s = _)
    have isRate : rate ≠ 0 ∧ ¬ 3 < rate := by omega
    constructor
    · rintro (rfl | rfl | rfl) <;> simp [execHostLinkTrain, up, isRate]
    · rintro (rfl | rfl) down <;> simp [execHostLinkTrain, up, isRate, down]
  case linkLoss =>
    intro at_ s inL0
    exact ⟨if_neg inL0, fun clocks => (State.onClock_of_runs _ clocks).trans (if_neg inL0)⟩
  case flrVf =>
    intro v at_ s clocks enabled
    have resets : exec (.flrVf v at_) s = _ := State.onClock_of_runs _ clocks
    exact resets.trans (if_neg (by simp [enabled]))
  case flrPf =>
    intro at_ s clocks
    exact ⟨State.onClock_of_runs _ clocks, State.onClock_of_runs _ clocks⟩
  case unmask =>
    intro fn vec addr data s clocks isVector isFn
    have unmasks : exec (.msixVectorUnmask fn vec addr data) s = _ := State.onClock_of_runs _ clocks
    exact unmasks.trans (if_neg (not_or.2 ⟨isVector.not_ge, isFn.not_gt⟩))
  case sriovAndHdm =>
    intro n on_ commit s clocks
    have enables : exec (.sriovVfEnable n on_) s = _ := State.onClock_of_runs _ clocks
    exact ⟨fun few => enables.trans (if_neg few.not_gt), State.onClock_of_runs _ clocks⟩
  case doorbells =>
    intro vf page size t val at_ s clocks held
    have tail (n : Nat) : exec (.dbSqTail vf page n val at_) s = _ := (State.onClock_of_runs _ clocks).trans
      (congrArg Host.Outcome.next (State.doorbell_of_held n 0 (fun a u => a.tailRung vf page val u) held))
    have head (n : Nat) : exec (.dbCqHead vf page n val at_) s = _ := (State.onClock_of_runs _ clocks).trans
      (congrArg Host.Outcome.next (State.doorbell_of_held n 4 (fun a u => a.freeHead val u) held))
    refine ⟨⟨tail 4, head 4⟩, fun width => ?_, State.tailRung_sqTail vf page⟩
    rw [tail, head, if_pos width, if_pos width]
    exact ⟨rfl, rfl⟩
  case window =>
    intro vf k off val at_ s clocks notPf enabled isWindow
    have writes : exec (.vfWindowWrite vf k off val at_) s = _ := execVfWindowWrite_of_enabled off val at_ clocks notPf enabled isWindow
    rw [writes]
    refine ⟨fun t shows may => ?_, fun t shows mayNot => ?_, fun empty => ?_⟩
    · rw [State.windowWrite_of_tenant off val shows, if_pos may]
    · rw [State.windowWrite_of_tenant off val shows, if_neg (Bool.eq_false_iff.1 mayNot)]
    · rw [State.windowWrite_of_empty off val empty]
  case fetch =>
    intro t s clocks isTenant may
    have fetches : exec (.sqFetch t) s = _ := State.onClock_of_runs _ clocks
    exact fetches.trans ((if_neg isTenant.not_ge).trans (if_pos may))
  case fetched =>
    intro t sq host sqEnd hostEnd at_ s clocks fetching
    have arrives : exec (.sqFetchComplete t sq host sqEnd hostEnd at_) s = _ := State.onClock_of_runs _ clocks
    exact arrives.trans (if_pos fetching)

/-- Settles O51: each row is one performed write of its register, for the power-state and reset rows of the word the lemmas above give. -/
theorem controlAndTenantWritesComplete : Obligations.ControlAndTenantWritesComplete := by
  unfold Obligations.ControlAndTenantWritesComplete
  refine ⟨?wdtService, ?traceEnable, ?traceFwRec, ?traceDumpGo, ?traceDumpAck, ?lpSleep, ?lpStandby, ?lpRun, ?rstGrid, ?rstCluster, ?rstDevice,
    ?queueEnable, ?queueReset, ?tenantCreate, ?tenantDestroy, ?tenantFn, ?noticeAck⟩
  case wdtService | traceFwRec => exact fun _ val _ performed => next_busWrite_of_writes val _ performed
  case traceEnable | traceDumpGo | traceDumpAck => exact fun _ _ performed => next_busWrite_of_writes _ _ performed
  case lpSleep => exact fun _ _ performed => congrArg Host.Outcome.next (State.busLp_of_writes 2 performed)
  case lpStandby => exact fun _ _ performed => congrArg Host.Outcome.next (State.busLp_of_writes 3 performed)
  case lpRun => exact fun _ _ performed => congrArg Host.Outcome.next (State.busLp_of_writes 0 performed)
  case rstGrid => exact fun _ _ performed => congrArg Host.Outcome.next (State.busRst_of_writes 0 performed)
  case rstCluster => exact fun _ _ performed => congrArg Host.Outcome.next (State.busRst_of_writes 1 performed)
  case rstDevice => exact fun _ _ performed => congrArg Host.Outcome.next (State.busRst_of_writes 2 performed)
  case queueEnable | tenantFn | noticeAck => exact fun _ _ val _ performed => next_busWrite_of_writes val _ performed
  case queueReset | tenantCreate | tenantDestroy => exact fun _ _ _ performed => next_busWrite_of_writes _ _ performed

end

/-! Settlement of the rows of the Tyzil ports and packets, of the Ethernet ports and of policy, power and energy (O39, O40, O41). -/
section
namespace Sys2Proof.Machine

/-- The oldest contribution of an operation that need not wait leaves the delivered packets, is credited and joins its entry (R84, R359). -/
theorem State.collArrive_of_next {s : State} {op : Nat} {p : TyzPkt} (next : s.nextContribution op = some p) :
    s.collArrive op
      = .next ((({ s with tyz := { s.tyz with delivered := s.tyz.delivered.erase p } }).creditBack p).contribution op p) := by
  rw [State.collArrive, next]

/-- Which job a ring has in hand does not depend on the Tyzil unit. -/
theorem State.jobIdx_with_tyz (s : State) (x : Tyz) (k ring : Nat) : { s with tyz := x }.jobIdx k ring = s.jobIdx k ring := rfl

end Sys2Proof.Machine

open Sys2Proof Sys2Proof.Machine

/-- Settles O39: the state each row needs of its port rules out its reasons to pass over; for a flit its check decides, for a lane map the
first lane that differs. -/
theorem tyzilLinkRowsComplete : Obligations.TyzilLinkRowsComplete := by
  unfold Obligations.TyzilLinkRowsComplete
  refine ⟨?training, ?retraining, ?lost, ?inService, ?route, ?promote⟩
  case training =>
    intro n peerGen s clocks trains notRetraining
    have completes : exec (.tyzTrainComplete n peerGen) s = _ := State.onClock_of_runs _ clocks
    have expires : exec (.tyzTrainTimeout n) s = _ := State.onClock_of_runs _ clocks
    exact ⟨completes.trans ((if_neg (Bool.eq_false_iff.1 notRetraining)).trans (if_pos trains)), expires.trans (if_pos trains)⟩
  case retraining =>
    intro n peerGen s clocks retraining
    have completes : exec (.tyzTrainComplete n peerGen) s = _ := State.onClock_of_runs _ clocks
    exact completes.trans (if_pos retraining)
  case lost =>
    intro n peerGen s clocks isLost
    have attempt (ok : Bool) : exec (.tyzLostRetrain n ok peerGen) s = _ :=
      (State.onClock_of_runs _ clocks).trans (if_neg (not_not.2 isLost))
    exact ⟨(attempt true).trans (if_pos rfl), (attempt false).trans (if_neg Bool.false_ne_true)⟩
  case inService =>
    intro n b at_ s clocks serves
    have notOut : ¬(!s.portServes n) = true := by simp [serves]
    have dataFlit : exec (.tyzDataFlit n b) s = _ := (State.onClock_of_runs _ clocks).trans (if_neg notOut)
    have idleFlit : exec (.tyzIdleFlit n b) s = _ := (State.onClock_of_runs _ clocks).trans (if_neg notOut)
    have nakFlit : exec (.tyzNakFlit n b at_) s = _ := (State.onClock_of_runs _ clocks).trans (if_neg notOut)
    have mapFlit (map : Nat) : exec (.tyzLanemapFlit n map) s = _ := (State.onClock_of_runs _ clocks).trans (if_neg notOut)
    refine ⟨fun lane isLane => ?_, fun map l differs => ?_, fun map agrees => ?_, fun bad => ?_, fun good => ?_, fun unacked => ?_⟩
    · have fails : exec (.tyzLaneFail n lane) s = _ := State.onClock_of_runs _ clocks
      exact fails.trans (if_pos ⟨serves, isLane⟩)
    · rw [mapFlit, differs]
    · rw [mapFlit, agrees]
    · simp only [bad, Bool.not_false, Bool.false_eq_true, if_true, if_false] at dataFlit idleFlit nakFlit
      exact ⟨dataFlit, idleFlit, nakFlit⟩
    · simp only [good, Bool.not_true, Bool.false_eq_true, if_true, if_false] at dataFlit idleFlit nakFlit
      exact ⟨dataFlit, idleFlit, nakFlit⟩
    · have expires : exec (.tyzAckTimeout n) s = _ := State.onClock_of_runs _ clocks
      exact expires.trans (if_pos (by simp [serves, unacked]))
  case route =>
    intro p r s clocks waits
    have routes : exec .tyzPacketRoute s = _ := State.onClock_of_runs _ clocks
    rw [routes, waits]
  case promote =>
    intro n i s clocks oldest
    have promotes : exec (.tc0AgePromote n) s = _ := State.onClock_of_runs _ clocks
    simp only [oldest] at promotes
    exact promotes

/-- Settles O40: the packet delivered fixes what each row acts on; the memory's answer, the request, the bridge end or the collective entry
found for it then decides the effect. -/
theorem tyzilPacketRowsComplete : Obligations.TyzilPacketRowsComplete := by
  unfold Obligations.TyzilPacketRowsComplete
  refine ⟨?readRequest, ?write, ?readResponse, ?writeAck, ?stream, ?credit, ?contributions, ?result, ?mgmt, ?timeout⟩
  case readRequest =>
    intro hits s1 p s clocks delivered
    have answers : exec (.tyzRdReq hits) s = _ := State.onClock_of_runs _ clocks
    simp only [delivered] at answers
    refine ⟨fun unfit => answers.trans (if_pos unfit), fun awake fits => ?_⟩
    rw [if_neg (not_or.2 ⟨Bool.eq_false_iff.1 awake, fits.not_gt⟩)] at answers
    constructor
    · intro t ps read
      rw [answers, read]
    · intro f refused
      rw [answers, refused]
  case write =>
    intro hits s1 p s clocks delivered
    have answers : exec (.tyzWr hits) s = _ := State.onClock_of_runs _ clocks
    simp only [delivered] at answers
    refine ⟨fun asleep => answers.trans (if_pos asleep), fun awake => ?_⟩
    rw [if_neg (Bool.eq_false_iff.1 awake)] at answers
    constructor
    · intro t ps written
      rw [answers, written]
    · intro f refused
      rw [answers, refused]
  case readResponse =>
    intro s1 p s clocks delivered
    have responds : exec .tyzRdRsp s = _ := State.onClock_of_runs _ clocks
    simp only [delivered] at responds
    refine ⟨fun unawaited => ?_, fun s2 r awaited => ⟨fun noJob => ?_, fun i job mayMove => ?_⟩⟩
    · rw [responds, unawaited]
    · simp only [awaited, noJob] at responds
      exact responds
    · simp only [awaited, job] at responds
      refine responds.trans (if_neg ?_)
      rintro ⟨migration, outside⟩
      rcases mayMove with other | inPhase
      · exact other migration
      · simp [inPhase] at outside
  case writeAck =>
    intro s1 p s clocks delivered
    have acks : exec .tyzWrAck s = _ := State.onClock_of_runs _ clocks
    simp only [delivered] at acks
    refine ⟨fun unawaited => ?_, fun s2 r awaited => ⟨fun noJob => ?_, fun i job => ?_⟩⟩
    · rw [acks, unawaited]
    · simp only [awaited, noJob] at acks
      exact acks
    · simp only [awaited, job] at acks
      exact acks
  case stream =>
    intro s1 p s clocks delivered
    have arrives : exec .tyzStream s = _ := State.onClock_of_runs _ clocks
    simp only [delivered] at arrives
    refine ⟨fun unbound => ?_, fun k i e bridge end_ => ?_⟩
    · rw [arrives, unbound]
    · simp only [bridge, end_] at arrives
      exact arrives
  case credit =>
    intro s1 p s clocks delivered
    have returns : exec .tyzCrd s = _ := State.onClock_of_runs _ clocks
    simp only [delivered] at returns
    refine ⟨fun unbound => ?_, fun k i e bridge end_ => ?_⟩
    · rw [returns, unbound]
    · simp only [bridge, end_] at returns
      exact returns
  case contributions =>
    intro p s clocks
    have merges (op : Nat) (next : s.nextContribution op = some p) : s.onClock (s.collArrive op) = _ :=
      (State.onClock_of_runs _ clocks).trans (State.collArrive_of_next next)
    exact ⟨merges 0x11, merges 0x12, merges 0x13, merges 0x14⟩
  case result =>
    intro s1 p s clocks delivered
    have passesOn : exec .tyzCollRes s = _ := State.onClock_of_runs _ clocks
    simp only [delivered] at passesOn
    refine ⟨fun orphan => ?_, fun w entry => ?_⟩
    · rw [passesOn, orphan]
    · rw [passesOn, entry]
  case mgmt =>
    intro reach p s clocks delivered
    have reaches : exec (.tyzMgmt reach) s = _ := State.onClock_of_runs _ clocks
    simp only [delivered] at reaches
    exact reaches
  case timeout =>
    intro tag at_ r s
    dsimp only
    intro clocks outstanding late
    have expires : exec (.tyzRmaTimeout tag at_) s = _ := State.onClock_of_runs _ clocks
    simp only [outstanding, if_neg late.not_gt, State.jobIdx_with_tyz] at expires
    rw [expires]
    cases (s.advance at_).jobIdx r.engine r.ring with
    | none => rfl
    | some i => rfl

/-- Settles O41: each row's conditions rule out, one by one, the reasons for which it passes over. -/
theorem ethernetPolicyEnergyComplete : Obligations.EthernetPolicyEnergyComplete := by
  unfold Obligations.EthernetPolicyEnergyComplete
  refine ⟨?linkUp, ?ethUp, ?resend, ?adapt, ?evict, ?rails, ?throttle, ?trip, ?cut, ?boundary⟩
  case linkUp =>
    intro k b s clocks up
    have notDown : ¬(!s.regBit (ethSts k) 0) = true := by simp [up]
    have receives (fcsOk : Bool) : exec (.ethDgramReceive k b fcsOk) s = _ := (State.onClock_of_runs _ clocks).trans (if_neg notDown)
    have goesDown : exec (.ethLinkDown k) s = _ := (State.onClock_of_runs _ clocks).trans (if_neg notDown)
    have good := (receives true).trans (if_neg (by decide))
    exact ⟨(receives false).trans (if_pos rfl), fun mine => good.trans (congrArg Host.Outcome.next (if_pos mine)),
      fun other => good.trans (congrArg Host.Outcome.next (if_neg (Bool.eq_false_iff.1 other))), goesDown⟩
  case ethUp =>
    intro k s clocks enabled
    have comesUp : exec (.ethLinkUp k) s = _ := State.onClock_of_runs _ clocks
    exact comesUp.trans (if_neg (by simp [enabled]))
  case resend =>
    intro d k s clocks port unacked
    have expires : exec (.ethRtoExpire d) s = _ := State.onClock_of_runs _ clocks
    simp only [port] at expires
    exact expires.trans (if_neg (by simp [unacked]))
  case adapt =>
    intro s clocks due
    have adapts : exec .policyAdaptWindow s = _ := State.onClock_of_runs _ clocks
    exact adapts.trans (if_pos due)
  case evict =>
    intro d x s clocks found idle
    have evicts : exec (.kvIdleEvict d) s = _ := State.onClock_of_runs _ clocks
    simp only [found] at evicts
    exact evicts.trans (if_pos idle)
  case rails =>
    intro mw at_ s
    rfl
  case throttle =>
    intro sensors at_ s tooMuch notYet
    refine if_pos ?_
    rw [Bool.or_eq_true_iff.2 tooMuch, notYet]
    rfl
  case trip =>
    intro i raw at_ s isSensor hot notYet
    refine if_neg ?_
    rintro (noSensor | cool | tripped)
    · exact isSensor.not_ge noSensor
    · exact hot.not_gt cool
    · exact Bool.eq_false_iff.1 notYet tripped
  case cut =>
    intro at_ s notYet
    have uncut : ¬(s.advance at_).sys.cut.isSome = true := by rw [notYet]; exact Bool.false_ne_true
    refine ⟨fun notStandby => (if_neg uncut).trans (if_neg (not_and_or.2 notStandby)), fun k raw lo hi watched outside => ?_⟩
    show execRailFault k raw at_ s = _
    simp only [execRailFault, watched]
    exact if_neg (not_or.2 ⟨uncut, fun within => outside.elim within.1.not_gt within.2.not_gt⟩)
  case boundary =>
    intro at_ s asleep inSleep due
    refine (if_neg ?_).trans (if_pos due)
    exact not_or.2 ⟨not_not.2 asleep, not_not.2 inSleep⟩

end

/-! Settlement of the queue and of the register file's words and fields (O1, O2, O5, O7, O8). -/
section
namespace Sys2Proof.Machine

/-! ### Bit fields of a number (Table 20.1) -/

/-- A number with bits `hi..lo` set lies below, in and above the field as it is read there. -/
theorem setBits_eq {hi lo : Nat} (h : lo ≤ hi) (n v : Nat) :
    setBits n hi lo v = n % 2 ^ lo + 2 ^ lo * (v % 2 ^ (hi + 1 - lo) + 2 ^ (hi + 1 - lo) * (n / 2 ^ (hi + 1))) := by
  have split : 2 ^ (hi + 1) = 2 ^ lo * 2 ^ (hi + 1 - lo) := by rw [← Nat.pow_add]; congr 1; omega
  rw [setBits, split]
  ring

theorem bitsOf_setBits {hi lo : Nat} (h : lo ≤ hi) (n v : Nat) : bitsOf (setBits n hi lo v) hi lo = v % 2 ^ (hi + 1 - lo) := by
  rw [bitsOf, setBits_eq h, Nat.add_mul_div_left _ _ (Nat.two_pow_pos lo), Nat.div_eq_of_lt (Nat.mod_lt _ (Nat.two_pow_pos lo)), Nat.zero_add,
    Nat.add_mul_mod_self_left, Nat.mod_mod]

theorem setBits_mod {hi lo : Nat} (h : lo ≤ hi) (n v : Nat) : setBits n hi lo v % 2 ^ lo = n % 2 ^ lo := by
  rw [setBits_eq h, Nat.add_mul_mod_self_left, Nat.mod_mod]

theorem setBits_div {hi lo : Nat} (h : lo ≤ hi) (n v : Nat) : setBits n hi lo v / 2 ^ (hi + 1) = n / 2 ^ (hi + 1) := by
  have split : 2 ^ (hi + 1) = 2 ^ lo * 2 ^ (hi + 1 - lo) := by rw [← Nat.pow_add]; congr 1; omega
  rw [setBits_eq h]
  conv_lhs => rw [split]
  rw [← Nat.div_div_eq_div_mul, Nat.add_mul_div_left _ _ (Nat.two_pow_pos lo), Nat.div_eq_of_lt (Nat.mod_lt _ (Nat.two_pow_pos lo)), Nat.zero_add,
    Nat.add_mul_div_left _ _ (Nat.two_pow_pos _), Nat.div_eq_of_lt (Nat.mod_lt _ (Nat.two_pow_pos _)), Nat.zero_add, split]

/-- A field within 32 bits keeps a number within 32 bits. -/
theorem setBits_lt {hi lo n : Nat} (h : lo ≤ hi) (within : hi < 32) (v : Nat) (hn : n < 2 ^ 32) : setBits n hi lo v < 2 ^ 32 := by
  have high : n / 2 ^ (hi + 1) < 2 ^ (32 - (hi + 1)) := by
    apply Nat.div_lt_of_lt_mul
    rwa [← Nat.pow_add, show hi + 1 + (32 - (hi + 1)) = 32 by omega]
  rw [← setBits_div h n v, Nat.div_lt_iff_lt_mul (Nat.two_pow_pos _), ← Nat.pow_add] at high
  rwa [show 32 - (hi + 1) + (hi + 1) = 32 by omega] at high

theorem bitOf_eq_testBit (n k : Nat) : bitOf n k = n.testBit k := by
  rw [bitOf, Nat.testBit_eq_decide_div_mod_eq]; rfl

theorem bitOf_setBits_of_outside {hi lo k : Nat} (h : lo ≤ hi) (outside : k < lo ∨ hi < k) (n v : Nat) :
    bitOf (setBits n hi lo v) k = bitOf n k := by
  rw [bitOf_eq_testBit, bitOf_eq_testBit]
  rcases outside with below | above
  · have low (x : Nat) : (x % 2 ^ lo).testBit k = x.testBit k := by simp [Nat.testBit_mod_two_pow, below]
    rw [← low, setBits_mod h, low]
  · have high (x : Nat) : (x / 2 ^ (hi + 1)).testBit (k - (hi + 1)) = x.testBit k := by
      rw [Nat.testBit_div_two_pow, Nat.sub_add_cancel above]
    rw [← high, setBits_div h, high]

/-- The word of a field that is set. -/
theorem State.setFld_word {f : Fld} (s : State) (pg v : Nat) (h : f.lo ≤ f.hi) (within : f.hi < 32) :
    ((s.setFld pg f v).reg (pg * 0x1000 + f.off)).toNat = setBits (s.reg (pg * 0x1000 + f.off)).toNat f.hi f.lo v := by
  rw [State.setFld, State.setReg_reg_self, BitVec.toNat_ofNat, Nat.mod_eq_of_lt (setBits_lt h within v (BitVec.isLt _))]

end Sys2Proof.Machine

open Sys2Proof Sys2Proof.Machine

/-- Settles O1: the step is defined by the front of the queue. -/
theorem stepRunsFrontCommand : Obligations.StepRunsFrontCommand := by
  unfold Obligations.StepRunsFrontCommand
  refine ⟨fun c s => rfl, fun s idle => ?_⟩
  rw [step, idle]

/-- Settles O2: the decoder's table holds no row. -/
theorem wordsSpellNoCommand : Obligations.WordsSpellNoCommand := by
  unfold Obligations.WordsSpellNoCommand
  exact fun nbits w s => ⟨rfl, rfl⟩

/-- Settles O5: the reset state lists one word. -/
theorem registerFileCanonicalAtReset : Obligations.RegisterFileCanonicalAtReset := by
  unfold Obligations.RegisterFileCanonicalAtReset
  exact ⟨List.pairwise_singleton _ _, by decide⟩

/-- Settles O7: the laws of the sparse map, and that a write changes the map alone. -/
theorem registerReadsBackWhatIsWritten : Obligations.RegisterReadsBackWhatIsWritten := by
  unfold Obligations.RegisterReadsBackWhatIsWritten
  exact fun s a v => ⟨s.setReg_reg_self a v, fun b other => s.setReg_reg_of_ne a b v other, rfl⟩

/-- Settles O8: the word written is the old one with the field's bits replaced. -/
theorem fieldReadsBackWhatIsWritten : Obligations.FieldReadsBackWhatIsWritten := by
  unfold Obligations.FieldReadsBackWhatIsWritten
  intro s pg f v h within
  refine ⟨?_, fun k _ outside => ?_, fun b other => s.setReg_reg_of_ne _ b _ other⟩
  · rw [State.fld, State.setFld_word s pg v h within, bitsOf_setBits h]
  · rw [State.regBit, State.setFld_word s pg v h within, bitOf_setBits_of_outside h outside, ← State.regBit]

end

/-! Settlement of the register bus's refusals, the 64-bit latch, counters and captures (O9, O10, O13, O14, O15). -/
section
namespace Sys2Proof.Machine

/-- While an error is captured, a further one of the page is only counted (R440). -/
theorem State.pageError_of_valid {s : State} {pg : Nat} (off iface cause : Nat) (log1 : Word)
    (valid : (s.bump pg R.hdr_ERR_CNT 31 1).regBit (pg * 0x1000 + 0x24) 31 = true) :
    s.pageError pg off iface cause log1 = s.bump pg R.hdr_ERR_CNT 31 1 := if_pos valid

/-- A write without right leaves the error alone, and so does one that waits for the audit log's room (R545, R497). -/
theorem State.busWrite_of_noRight {s : State} {rq : Req} {addr : Nat} (val : Word) (body : State → State × Nat)
    (answers : (s.onBus rq).busAnswers rq.iface = true) (page : pageKind (addr / 0x1000) ≠ none)
    (noRight : (s.onBus rq).mayWrite rq.iface (addr / 0x1000) (addr % 0x1000) = false) :
    s.busWrite rq addr val body = (s.onBus rq).pageError (addr / 0x1000) (addr % 0x1000) (ifaceCode rq.iface) 0x02 val := by
  obtain ⟨k, kind⟩ := Option.ne_none_iff_exists'.1 page
  simp only [State.onBus] at answers noRight ⊢
  simp only [State.busWrite, answers, if_true, kind, noRight, Bool.not_false]

theorem State.busWrite_of_auditFull {s : State} {rq : Req} {addr : Nat} (val : Word) (body : State → State × Nat)
    (answers : (s.onBus rq).busAnswers rq.iface = true) (page : pageKind (addr / 0x1000) ≠ none)
    (may : (s.onBus rq).mayWrite rq.iface (addr / 0x1000) (addr % 0x1000) = true)
    (audited : (s.onBus rq).audits rq.iface (addr / 0x1000) (addr % 0x1000) = true) (full : (s.onBus rq).auditFull = true) :
    s.busWrite rq addr val body = (s.onBus rq).pageError (addr / 0x1000) (addr % 0x1000) (ifaceCode rq.iface) 0x03 val := by
  obtain ⟨k, kind⟩ := Option.ne_none_iff_exists'.1 page
  simp only [State.onBus] at answers may audited full ⊢
  simp only [State.busWrite, answers, if_true, kind, may, audited, full, Bool.not_true, Bool.false_eq_true, if_false, Bool.and_self]

/-- A write outside the VFs and the MSI-X tables goes over the register bus. -/
theorem State.writeReg_page {s : State} {rq : Req} {addr : Nat} (val : Word) (image : List Byte) (how : ReadEnd) (places : List Placement)
    (notVf : vfOf rq addr = none) (notMsix : ¬ (0x28000 ≤ addr ∧ addr < 0x30000)) :
    s.writeReg rq addr val image how places
      = s.busWrite rq addr val fun t => t.writeBody rq.iface (addr / 0x1000) (addr % 0x1000) val image how places := by
  simp only [State.writeReg, notVf, if_neg notMsix]

/-- A read of a register page outside the MSI-X tables, by right, by the word's place in a 64-bit register, and by what the latch holds. -/
theorem State.readReg_of_noRight {s : State} {i : Iface} {addr : Nat} (notMsix : ¬ (0x28000 ≤ addr ∧ addr < 0x31000))
    (noRight : s.mayRead i (addr / 0x1000) (addr % 0x1000) = false) : s.readReg i addr = (s, 0) := by
  rw [State.readReg, if_neg (by omega), if_neg (by omega), if_pos (by simp [noRight])]

theorem State.readReg_of_low {s : State} {i : Iface} {addr : Nat} (notMsix : ¬ (0x28000 ≤ addr ∧ addr < 0x31000))
    (may : s.mayRead i (addr / 0x1000) (addr % 0x1000) = true) (low : isPart .low (addr / 0x1000) (addr % 0x1000) = true) :
    s.readReg i addr = ({ s with bus := { s.bus with
        latch := mapSet none s.bus.latch (addr + 4) (some (s.viewWord i (addr / 0x1000) (addr % 0x1000 + 4))) } },
      s.viewWord i (addr / 0x1000) (addr % 0x1000)) := by
  rw [State.readReg, if_neg (by omega), if_neg (by omega), if_neg (by simp [may]), if_pos low]

theorem State.readReg_of_latched {s : State} {i : Iface} {addr : Nat} {w : Word} (notMsix : ¬ (0x28000 ≤ addr ∧ addr < 0x31000))
    (may : s.mayRead i (addr / 0x1000) (addr % 0x1000) = true) (notLow : isPart .low (addr / 0x1000) (addr % 0x1000) = false)
    (latched : mapGet none s.bus.latch addr = some w) :
    s.readReg i addr = ({ s with bus := { s.bus with latch := mapSet none s.bus.latch addr none } }, w) := by
  rw [State.readReg, if_neg (by omega), if_neg (by omega), if_neg (by simp [may]), if_neg (by simp [notLow])]
  simp only [latched]

end Sys2Proof.Machine

open Sys2Proof Sys2Proof.Machine

/-- Settles O14: the sum decides the branch, and past the maximum the CNT_OVF bit does. -/
theorem counterSaturates : Obligations.CounterSaturates := by
  unfold Obligations.CounterSaturates
  intro s pg f bit n other small a o
  refine ⟨fun below => ?_, fun past set => ?_, fun past clear => ?_⟩
  · rw [State.bump, State.bumpRaw]
    simp only [a, below, if_true, Bool.false_eq_true, if_false]
  · rw [State.bump, State.bumpRaw]
    simp only [o] at set
    simp only [a, Nat.not_lt.2 past, if_false, set, if_true, Bool.false_eq_true]
  · rw [State.bump, State.bumpRaw]
    simp only [o] at clear
    simp only [a, Nat.not_lt.2 past, if_false, clear, if_true, Bool.false_eq_true, o]

/-- Settles O15. -/
theorem firstErrorCaptureHolds : Obligations.FirstErrorCaptureHolds := by
  unfold Obligations.FirstErrorCaptureHolds
  exact fun s pg off iface cause log1 valid => State.pageError_of_valid off iface cause log1 valid

/-- Settles O9: the write stops at its right, and a read without right reads 0. -/
theorem writeWithoutRightIsCaptured : Obligations.WriteWithoutRightIsCaptured := by
  unfold Obligations.WriteWithoutRightIsCaptured
  constructor
  · intro rq addr val image how places s notMsix notVf answers page noRight
    exact congrArg Host.Outcome.next ((State.writeReg_page val image how places notVf notMsix).trans
      (State.busWrite_of_noRight val _ answers page noRight))
  · intro rq addr s notMsix notVf answers noRight
    have reads : exec (.readLowWordLatch rq addr) s = _ := congrArg Host.Outcome.next (State.busRead_of_answers answers notVf)
    rw [reads, State.readReg_of_noRight notMsix noRight]

/-- Settles O10: the write has its right and stops at the audit log's room. -/
theorem auditedWriteWaitsForRoom : Obligations.AuditedWriteWaitsForRoom := by
  unfold Obligations.AuditedWriteWaitsForRoom
  intro rq addr val image how places s notMsix notVf answers page may audited full
  exact congrArg Host.Outcome.next ((State.writeReg_page val image how places notVf notMsix).trans
    (State.busWrite_of_auditFull val _ answers page may audited full))

/-- Settles O13: the word's place in its register and the latch decide what is read. -/
theorem lowWordReadLatchesHighWord : Obligations.LowWordReadLatchesHighWord := by
  unfold Obligations.LowWordReadLatchesHighWord
  constructor
  · intro i addr s notMsix may low
    rw [State.readReg_of_low notMsix may low]
    exact ⟨rfl, by simp only [mapGet_mapSet_self]⟩
  · intro i addr w s notMsix may notLow latched
    rw [State.readReg_of_latched notMsix may notLow latched]
    exact ⟨rfl, rfl⟩

end

/-! Settlement of the cores' accesses and the bus rows (O43, O44, O45). -/
section
namespace Sys2Proof.Machine

/-- An upgrade of a line that its requester does not hold is a read for ownership (R474). -/
theorem State.grantUpgrade_of_invalid {t : State} {r : BusReq} (hits : List Upset) (invalid : (t.core r.who).line r.line = none) :
    t.grantUpgrade r hits = t.grantRead r.who .rdX r.line r.acc (0, []) hits := by
  rw [State.grantUpgrade, invalid]

end Sys2Proof.Machine

open Sys2Proof Sys2Proof.Machine

/-- Settles O43: the accesses go through `State.coreAccess`; the miss and the eviction pass their own checks. -/
theorem coreRowsComplete : Obligations.CoreRowsComplete := by
  unfold Obligations.CoreRowsComplete
  refine ⟨?accesses, ?fetch, ?evict⟩
  case accesses =>
    intro k addr size data hits image how places at_ s s0 runs free
    have loads : exec (.coreLoad k addr size hits at_) s = .next (s0.coreLoads k addr size hits) :=
      State.coreAccess_of_runs at_ (fun t => t.coreLoads k addr size hits) runs free
    have stores : exec (.coreStore k addr data hits image how places at_) s = .next (s0.coreStores k addr data hits image how places) :=
      State.coreAccess_of_runs at_ (fun t => t.coreStores k addr data hits image how places) runs free
    have reserves : exec (.coreLr k addr size hits at_) s = .next (s0.coreReserves k addr size hits) :=
      State.coreAccess_of_runs at_ (fun t => t.coreReserves k addr size hits) runs free
    have conditional : exec (.coreSc k addr data hits at_) s = .next (s0.coreConditional k addr data hits) :=
      State.coreAccess_of_runs at_ (fun t => t.coreConditional k addr data hits) runs free
    refine ⟨loads, stores, reserves, conditional, fun outside => ?_, fun rom => ?_, fun rom => ?_, fun sram lost => ?_⟩
    · rw [loads, reserves, State.coreLoads, State.coreReserves, outside]
      exact ⟨rfl, rfl⟩
    · rw [loads, State.coreLoads, rom]
    · rw [stores, State.coreStores, rom]
    · rw [conditional, State.coreConditional, sram]
      exact congrArg Host.Outcome.next (if_neg lost)
  case fetch =>
    intro k addr at_ s s0 runs free sram notHeld parity
    show execL1iMiss k addr parity at_ s = _
    simp only [s0] at *
    simp only [execL1iMiss, runs, free, notHeld, sram, Bool.not_true, Bool.false_eq_true, if_false, ne_eq, not_true_eq_false, Bool.false_and]
  case evict =>
    intro k line hits at_ x s s0 isCore serves alive holds
    have evicts : exec (.l1dEvict k line hits at_) s
        = if x.st = .e ∨ x.st = .s then .next (s0.setCore k ((s0.core k).dropLine line))
          else if 4 ≤ (s0.core k).wb.length then s.passOver "the write-back buffer is full" else .next (s0.evictOwned k line x hits) := by
      show execL1dEvict k line hits at_ s = _
      simp only [s0] at *
      simp only [execL1dEvict, isCore, serves, alive, holds, decide_true, Bool.not_true, Bool.false_eq_true, ne_eq, not_true_eq_false, or_self, if_false]
    refine ⟨fun clean => evicts.trans (if_pos clean), fun owned room => ?_⟩
    exact evicts.trans ((if_neg (by rcases owned with st | st <;> simp [st])).trans (if_neg room.not_ge))

/-- Settles O44: the rows are grants of the arbiter's winner; a supply passes the checks of its grant. -/
theorem busRowsComplete : Obligations.BusRowsComplete := by
  unfold Obligations.BusRowsComplete
  refine ⟨?cores, ?ap, ?supplies⟩
  case cores =>
    intro k r hits at_ s s0 alive wins oldest
    have grants (kind : BusKind) (f : State → BusReq → State) (asks : r.kind = kind) :
        s.grantCore kind at_ f = .next (f (s0.granted k r) r).flushNotes := State.grantCore_of_winner at_ f alive wins oldest asks
    exact ⟨grants .rd fun t r => t.grantRead r.who .rd r.line r.acc (0, []) hits,
      grants .rdX fun t r => t.grantRead r.who .rdX r.line r.acc (0, []) hits, grants .upgr fun t r => t.grantUpgrade r hits,
      grants .wb fun t r => t.wentHome r hits, fun asks _ => grants .rdCur (fun t r => t.grantRead r.who .rdCur r.line r.acc (0, []) hits) asks⟩
  case ap =>
    intro off line data hits at_ s s0 t alive wins
    have grants (f : State → State) : s.grantAp at_ f = .next (f t).flushNotes := State.grantAp_of_winner at_ f alive wins
    exact ⟨grants fun t => t.writeLine (off / 64 % 131072) data hits,
      grants fun t => t.grantRead 8 .wrMrg (off / 64 % 131072) .none (off % 64, data.take (64 - off % 64)) hits,
      grants fun t => t.grantRead 8 .rdCur (line % 131072) .none (0, []) hits⟩
  case supplies =>
    intro g at_ s s0
    constructor
    · intro first inTime way
      show execDataSupply at_ s = _
      simp only [s0] at *
      simp only [execDataSupply, first, inTime, way, Bool.not_true, Bool.false_eq_true, if_false]
    · intro late way
      show execHomeTimeout at_ s = _
      simp only [s0] at *
      simp only [execHomeTimeout, late, way, Bool.not_true, Bool.false_eq_true, if_false]

/-- Settles O45: the grant of the upgrade, and what it does for a requester in I. -/
theorem upgradeInInvalidIsReadExclusive : Obligations.UpgradeInInvalidIsReadExclusive := by
  unfold Obligations.UpgradeInInvalidIsReadExclusive
  intro k r hits at_ s s0 alive wins oldest upgrade invalid
  have grants : exec (.busUpgr hits at_) s = .next ((s0.granted k r).grantUpgrade r hits).flushNotes :=
    State.grantCore_of_winner at_ (fun t r => t.grantUpgrade r hits) alive wins oldest upgrade
  rw [grants, State.grantUpgrade_of_invalid (t := s0.granted k r) hits invalid]

end

/-! Settlement of the reset, power, boot, flash, watchdog, debug and security rows (O46 to O50): each row's conditions rule out its other branches. -/
section
namespace Sys2Proof.Machine

/-- A performed write of a session register, and of the key register, leaves its effect and its record (R548, R555). -/
theorem State.busSess_of_writes {s : State} {rq : Req} {off : Nat} (val : Word) (body : State → State × Nat) (performed : s.writes rq (rindPage + off)) :
    s.busSess rq off val body = s.logged rq (rindPage + off) val (body (s.onBus rq)) := State.busWrite_of_writes val body performed

theorem State.busKey_of_writes {s : State} {rq : Req} (act slot : Nat) (performed : s.writes rq (rindPage + 0x100)) :
    s.busKey rq act slot = s.logged rq (rindPage + 0x100) (BitVec.ofNat 32 (act + slot % 32 * 256))
      ((s.onBus rq).writeKeyCtl rq.iface (BitVec.ofNat 32 (act + slot % 32 * 256))) := by
  rw [State.busKey, State.busWrite_of_writes _ _ performed]

end Sys2Proof.Machine

open Sys2Proof Sys2Proof.Machine

/-- Settles O46. -/
theorem resetAndPowerRowsComplete : Obligations.ResetAndPowerRowsComplete := by
  unfold Obligations.ResetAndPowerRowsComplete
  refine ⟨fun s => rfl, ?powerUp, ?board, ?refclk, ?nap, ?enter, fun s => ⟨rfl, rfl, rfl⟩, ?exit, ?wake⟩
  case powerUp => exact fun s held => if_neg (by simp [held])
  case board => exact fun at_ s outOfPor clocks => if_pos (by simp_all)
  case refclk => exact fun s runs => if_neg (by simp [runs])
  case nap => exact fun s may ended => ⟨if_neg (by simp_all), rfl⟩
  case enter =>
    intro s alive accepted
    exact ⟨fun sleep => if_neg (by simp [alive, accepted, sleep]), fun standby => if_neg (by simp [alive, accepted, standby])⟩
  case exit => exact fun at_ s alive leaving inSleep => if_neg (by simp_all)
  case wake =>
    intro at_ s
    exact ⟨fun alive asleep standby => if_neg (by simp_all), fun awake => if_pos (by simp_all)⟩

/-- Settles O47: what waits, runs and is suspended selects the branch of FLASH_OP_START. -/
theorem bootFlashRowsComplete : Obligations.BootFlashRowsComplete := by
  unfold Obligations.BootFlashRowsComplete
  refine ⟨?boot, ?idle, ?resume, ?suspend, ?ends, ?keyBurn, ?lcBurn⟩
  case boot =>
    intro b s alive notBooted notRecovery noState
    have boots : exec (.boot b) s = _ := if_neg (by simp_all)
    exact ⟨fun living => boots.trans (if_neg living), fun scrapped => boots.trans (if_pos scrapped)⟩
  case idle =>
    intro o s on_ noHold next noCur noSusp
    show execFlashOpStart s = _
    simp only [execFlashOpStart, on_, noHold, next, noCur, noSusp, Bool.not_true, Bool.false_eq_true, Option.isSome_none, if_false]
  case resume =>
    intro e s on_ noNext noCur susp
    show execFlashOpStart s = _
    simp only [execFlashOpStart, on_, noNext, noCur, susp, Bool.not_true, Bool.false_eq_true, if_false, ite_self]
  case suspend =>
    intro o e s on_ noHold next cur noSusp isErase may isProgram higher
    show execFlashOpStart s = _
    simp only [execFlashOpStart, on_, noHold, next, cur, noSusp, isErase, may, isProgram, higher, Bool.not_true, Bool.not_false, Bool.false_eq_true,
      Option.isSome_none, Option.isNone_none, Bool.and_self, decide_true, if_false, if_true]
  case ends =>
    intro o s cur
    refine ⟨fun isProgram => ?_, fun isErase ok => ?_⟩
    · have ends (ok : Bool) : exec (.flashProgramComplete ok) s = .next (if ok then s.programmed o else s.programFails o) := by
        show execFlashProgramComplete ok s = _
        simp only [execFlashProgramComplete, cur, isProgram, Bool.false_eq_true, if_false]
      exact ⟨ends true, ends false⟩
    · show execFlashEraseComplete ok s = _
      simp only [execFlashEraseComplete, cur, isErase, Bool.true_eq_false, if_false]
  case keyBurn =>
    intro b ok s burn
    show execKeyBurnComplete ok s = _
    rw [execKeyBurnComplete, burn]
  case lcBurn =>
    intro x s burn
    refine ⟨?_, rfl⟩
    show execLcBurnComplete s = _
    rw [execLcBurnComplete, burn]

/-- Settles O48. -/
theorem watchdogTraceDebugComplete : Obligations.WatchdogTraceDebugComplete := by
  unfold Obligations.WatchdogTraceDebugComplete
  refine ⟨?expire, ?clock, ?stage2, ?hold, ?ring, ?jtag, fun pins preload s => rfl, ?debug, ?sensor, ?effecter⟩
  case expire =>
    intro at_ s counts passed
    exact (if_neg (by simp [counts])).trans (if_neg passed.not_gt)
  case clock =>
    intro count at_ s counts inWindow past
    exact (if_neg (by simp [counts, inWindow])).trans (if_neg (Int.not_lt.2 past))
  case stage2 =>
    intro at_ s s1 t2 inStage1 noHold outOfPor due
    have notWaiting : ¬((!s1.sys.refLost && before s1.tb t2) = true) := by rcases due with h | h <;> simp [h]
    have acts : exec (.wdtStage2 at_) s = if s1.erasing then .next { s1 with wdt := { s1.wdt with hold := some t2 } } else .next (s1.wdtReset t2 0 0) :=
      (if_neg (by simp [s1] at inStage1 noHold outOfPor; simp [inStage1, noHold, outOfPor])).trans (if_neg notWaiting)
    exact ⟨fun erases => acts.trans (if_pos erases), fun idle => acts.trans (if_neg (by simp [idle]))⟩
  case hold =>
    intro at_ t2 s s1 held due
    show execWdtHoldExpire at_ s = _
    simp only [s1] at *
    simp only [execWdtHoldExpire, held]
    exact if_neg (by rcases due with h | h <;> simp_all)
  case ring =>
    intro s waits enabled
    show execTraceRingWrite s = _
    have nonempty : s.trace.buf.isEmpty = false := by simpa using waits
    simp only [execTraceRingWrite, nonempty, enabled, Bool.not_true, Bool.or_self, Bool.false_eq_true, if_false]
  case jtag => exact fun s => ⟨rfl, rfl, rfl, rfl, rfl⟩
  case debug =>
    intro k at_ s
    refine ⟨fun closed => ⟨if_neg (by simp [closed]), if_neg (by simp [closed])⟩, fun opened isCore serves => ?_⟩
    exact ⟨if_pos (by simp [opened, isCore, serves]), if_pos (by simp [opened, isCore])⟩
  case sensor =>
    intro sensor s
    refine ⟨fun scrapped => if_pos scrapped, fun living => ⟨fun isTemp => ?_, ?_, ?_⟩⟩
    · exact (if_neg living).trans (if_pos isTemp)
    · exact (if_neg living).trans rfl
    · exact (if_neg living).trans rfl
  case effecter =>
    intro w at_ s s0
    exact ⟨fun may => if_pos may, fun notInstaller notMaker => if_neg (not_or.2 ⟨notInstaller, notMaker⟩)⟩

/-- Settles O49: each row is one performed write of its register. -/
theorem pageCommandWritesComplete : Obligations.PageCommandWritesComplete := by
  unfold Obligations.PageCommandWritesComplete
  refine ⟨?repairApply, ?repairClear, ?chanRestored, ?streamDb, ?rtCopy, ?portEnable, ?wallOfs, ?stageData, ?stageGo, ?updGo, ?acctAck, ?auditAck⟩
  case repairApply | repairClear | chanRestored | stageData | acctAck | auditAck => exact fun _ val _ performed => next_busWrite_of_writes val _ performed
  case streamDb | portEnable => exact fun _ _ val _ performed => next_busWrite_of_writes val _ performed
  case rtCopy => exact fun _ _ performed => next_busWrite_of_writes _ _ performed
  case wallOfs => exact fun _ _ _ performed => next_busWrite_of_writes _ _ performed
  case stageGo => exact fun _ _ _ performed => next_busWrite_of_writes _ _ performed
  case updGo => exact fun _ _ _ _ _ performed => next_busWrite_of_writes _ _ performed

/-- Settles O50: the register rows are performed writes; the timers pass their conditions. -/
theorem securityRowsComplete : Obligations.SecurityRowsComplete := by
  unfold Obligations.SecurityRowsComplete
  refine ⟨?sessOpen, ?sessResp, ?sessClose, ?keyWrite, ?keyRevoke, ?keyClaim, ?mfuse, ?lcGo, ?secVer, ?attest, ?calSave, ?calClear, ?idle, ?nonce,
    ?lockout⟩
  case sessOpen => exact fun _ _ _ _ performed => congrArg Host.Outcome.next (State.busSess_of_writes _ _ performed)
  case sessResp => exact fun _ val _ performed => congrArg Host.Outcome.next (State.busSess_of_writes val _ performed)
  case sessClose => exact fun _ _ performed => congrArg Host.Outcome.next (State.busSess_of_writes 2 _ performed)
  case keyWrite => exact fun _ slot _ performed => congrArg Host.Outcome.next (State.busKey_of_writes 1 slot performed)
  case keyRevoke => exact fun _ slot _ performed => congrArg Host.Outcome.next (State.busKey_of_writes 2 slot performed)
  case keyClaim => exact fun _ _ performed => congrArg Host.Outcome.next (State.busKey_of_writes 3 20 performed)
  case lcGo => exact fun _ _ _ performed => next_busWrite_of_writes _ _ performed
  case mfuse | secVer | attest => exact fun _ val _ performed => next_busWrite_of_writes val _ performed
  case calSave | calClear => exact fun _ _ performed => next_busWrite_of_writes _ _ performed
  case idle =>
    intro k at_ s isBank opened due
    exact (if_neg (by simp [opened, isBank])).trans (if_neg (by simp_all))
  case nonce => exact fun k at_ s issued due => if_neg (by simp_all)
  case lockout => exact fun k at_ s locked due => if_neg (by simp_all)

end

/-! ### Footprints: which pieces of the state each operation of the model may change

The calculus comes first, then one lemma for each operation, in the order of the model's files. The lemmas of an operation are elaborated one
after another (`Elab.async false`): side by side they ask for more threads than the memory a check may take. -/

section
open Sys2Proof
namespace Sys2Proof.Machine

/-- The pieces of the state. The contents of flash are held apart from the rest of NV. -/
inductive Piece where
  | pending | free | out | tb | regs | bus | ras | rind | cal | calSel | eff | grid | work | mods | modHeld | press | ses | sram | cl | flash
  | nv | tyz | eth | peers | disc | sys | meter | acct | trace | wdt | jtag
deriving DecidableEq

/-- What a register write may change, over all registers. -/
def anyWrite : List Piece :=
  [.free, .out, .tb, .regs, .bus, .ras, .rind, .cal, .calSel, .grid, .work, .mods, .modHeld, .ses, .sram, .cl, .nv, .tyz, .eth, .disc, .sys,
    .acct, .trace, .wdt]

/-- Every piece but the queue of waiting commands, the largest footprint a command has. -/
def allButQueue : List Piece :=
  [.free, .out, .tb, .regs, .bus, .ras, .rind, .cal, .calSel, .eff, .grid, .work, .mods, .modHeld, .press, .ses, .sram, .cl, .flash, .nv,
    .tyz, .eth, .peers, .disc, .sys, .meter, .acct, .trace, .wdt, .jtag]

/-- One side for a piece in `P`, the other for a piece outside. -/
def Piece.pick {α : Type} (p : Piece) (P : List Piece) (inside outside : α) : α := if p ∈ P then inside else outside

variable {P Q : List Piece}

theorem Piece.pick_self {α : Type} (p : Piece) (a : α) : p.pick P a a = a := ite_self a

theorem Piece.pick_pick {α : Type} (p : Piece) (sub : Q ⊆ P) (a b c : α) : p.pick P a (p.pick Q b c) = p.pick P a c := by
  by_cases h : p ∈ P
  · simp only [pick, if_pos h]
  · simp only [pick, if_neg h, if_neg fun h' => h (sub h')]

/-- `t` with the pieces in `P` put back as they are in `s`. -/
def State.putBack (P : List Piece) (s t : State) : State :=
  { pending := Piece.pending.pick P s.pending t.pending
    free := Piece.free.pick P s.free t.free
    out := Piece.out.pick P s.out t.out
    tb := Piece.tb.pick P s.tb t.tb
    regs := Piece.regs.pick P s.regs t.regs
    bus := Piece.bus.pick P s.bus t.bus
    ras := Piece.ras.pick P s.ras t.ras
    rind := Piece.rind.pick P s.rind t.rind
    cal := Piece.cal.pick P s.cal t.cal
    calSel := Piece.calSel.pick P s.calSel t.calSel
    eff := Piece.eff.pick P s.eff t.eff
    grid := Piece.grid.pick P s.grid t.grid
    work := Piece.work.pick P s.work t.work
    mods := Piece.mods.pick P s.mods t.mods
    modHeld := Piece.modHeld.pick P s.modHeld t.modHeld
    press := Piece.press.pick P s.press t.press
    ses := Piece.ses.pick P s.ses t.ses
    sram := Piece.sram.pick P s.sram t.sram
    cl := Piece.cl.pick P s.cl t.cl
    nv := { Piece.nv.pick P s.nv t.nv with flash := Piece.flash.pick P s.nv.flash t.nv.flash }
    tyz := Piece.tyz.pick P s.tyz t.tyz
    eth := Piece.eth.pick P s.eth t.eth
    peers := Piece.peers.pick P s.peers t.peers
    disc := Piece.disc.pick P s.disc t.disc
    sys := Piece.sys.pick P s.sys t.sys
    meter := Piece.meter.pick P s.meter t.meter
    acct := Piece.acct.pick P s.acct t.acct
    trace := Piece.trace.pick P s.trace t.trace
    wdt := Piece.wdt.pick P s.wdt t.wdt
    jtag := Piece.jtag.pick P s.jtag t.jtag }

theorem State.putBack_self (s : State) : State.putBack P s s = s := by simp only [State.putBack, Piece.pick_self]

theorem State.putBack_putBack (sub : Q ⊆ P) (s t u : State) : State.putBack P s (State.putBack Q t u) = State.putBack P s u := by
  simp only [State.putBack, Piece.pick_pick _ sub]
  congr 1
  by_cases h : Piece.nv ∈ P
  · simp only [Piece.pick, if_pos h]
  · simp only [Piece.pick, if_neg h, if_neg fun h' => h (sub h')]

/-! ### The register file's canonical form under a write -/

theorem mapErase_sublist {α : Type} (m : SMap α) (a : Nat) : (mapErase m a).Sublist m := by
  induction m with
  | nil => exact List.Sublist.refl _
  | cons e m ih =>
    rw [mapErase]
    split
    · exact ih.cons e
    · exact ih.cons_cons e

theorem mem_mapPut {α : Type} {m : SMap α} {a : Nat} {v : α} {e : Nat × α} (h : e ∈ mapPut m a v) : e = (a, v) ∨ e ∈ m := by
  induction m with
  | nil => exact .inl (List.mem_singleton.1 h)
  | cons x m ih =>
    rw [mapPut] at h
    split at h
    · exact List.mem_cons.1 h
    split at h
    · exact (List.mem_cons.1 h).imp_right (List.mem_cons_of_mem x)
    · rcases List.mem_cons.1 h with rfl | h
      · exact .inr List.mem_cons_self
      · exact (ih h).imp_right (List.mem_cons_of_mem x)

theorem pairwise_mapPut {α : Type} {m : SMap α} (a : Nat) (v : α) (h : (m.map (·.1)).Pairwise (· < ·)) :
    ((mapPut m a v).map (·.1)).Pairwise (· < ·) := by
  induction m with
  | nil => exact List.pairwise_singleton _ _
  | cons x m ih =>
    obtain ⟨first, rest⟩ := List.pairwise_cons.1 h
    simp only [List.mem_map, forall_exists_index, and_imp, forall_apply_eq_imp_iff₂] at first
    rw [mapPut]
    split
    case isTrue below =>
      refine List.pairwise_cons.2 ⟨?_, h⟩
      simp only [List.map_cons, List.mem_cons, List.mem_map]
      rintro k (rfl | ⟨e, mem, rfl⟩)
      · exact below
      · exact below.trans (first e mem)
    split
    case isTrue same => exact List.pairwise_cons.2 ⟨by simpa [same] using first, rest⟩
    case isFalse above other =>
      refine List.pairwise_cons.2 ⟨?_, ih rest⟩
      simp only [List.mem_map]
      rintro k ⟨e, mem, rfl⟩
      rcases mem_mapPut mem with rfl | mem
      · simp only; omega
      · exact first e mem

theorem regsWf_filter {m : SMap Word} (p : Nat × Word → Bool) (h : regsWf m) : regsWf (m.filter p) :=
  ⟨h.1.sublist ((List.filter_sublist (l := m)).map _), fun e mem => h.2 e (List.mem_of_mem_filter mem)⟩

theorem regsWf_mapPut {m : SMap Word} {a : Nat} {v : Word} (h : regsWf m) (off : v ≠ regReset a) : regsWf (mapPut m a v) := by
  refine ⟨pairwise_mapPut a v h.1, fun e mem => ?_⟩
  rcases mem_mapPut mem with rfl | mem
  · exact off
  · exact h.2 e mem

theorem regsWf_foldl_mapPut {m l : SMap Word} (h : regsWf m) (off : ∀ e ∈ l, e.2 ≠ regReset e.1) :
    regsWf (l.foldl (fun m e => mapPut m e.1 e.2) m) := by
  induction l generalizing m with
  | nil => exact h
  | cons x l ih => exact ih (regsWf_mapPut h (off x List.mem_cons_self)) fun e mem => off e (List.mem_cons_of_mem x mem)

theorem regsWf_mapSet {m : SMap Word} (a : Nat) (v : Word) (h : regsWf m) : regsWf (mapSet (regReset a) m a v) := by
  obtain ⟨rising, listed⟩ := h
  rw [mapSet]
  split
  · have sub := mapErase_sublist m a
    exact ⟨rising.sublist (sub.map _), fun e mem => listed e (sub.subset mem)⟩
  · next off => exact regsWf_mapPut ⟨rising, listed⟩ off

/-- `t` is `s` but for the pieces in `P`, and its register file is canonical where that of `s` is. -/
structure Only (P : List Piece) (s t : State) : Prop where
  putBack : State.putBack P s t = s
  canonical : regsWf s.regs → regsWf t.regs

namespace Only
variable {r s t u : State}

theorem refl : Only P s s := ⟨State.putBack_self s, id⟩

theorem mono (h : Only Q s t) (sub : Q ⊆ P := by decide) : Only P s t :=
  ⟨by rw [← State.putBack_putBack sub s s t, h.putBack, State.putBack_self], h.canonical⟩

theorem trans (h : Only P s t) (h' : Only P t u) : Only P s u :=
  ⟨by rw [← State.putBack_putBack (List.Subset.refl P) s t u, h'.putBack, h.putBack], fun wf => h'.canonical (h.canonical wf)⟩

/-- What changes only pieces in `Q` of any state changes only pieces in `P` beside them. -/
theorem step (h : Only P r s) (sub : Q ⊆ P) (f : ∀ r, Only Q r s → Only Q r t) : Only P r t := h.trans ((f s refl).mono sub)

/-! One field of the state set anew. -/

theorem withFree {x : Nat} (h : Only P r s) (sub : [.free] ⊆ P := by decide) : Only P r { s with free := x } := h.trans (mono ⟨rfl, id⟩ sub)
theorem withOut {x : List Emit} (h : Only P r s) (sub : [.out] ⊆ P := by decide) : Only P r { s with out := x } :=
  h.trans (mono ⟨rfl, id⟩ sub)
theorem withTb {x : Dword} (h : Only P r s) (sub : [.tb] ⊆ P := by decide) : Only P r { s with tb := x } := h.trans (mono ⟨rfl, id⟩ sub)
theorem withRegs {x : SMap Word} (h : Only P r s) (wf : regsWf s.regs → regsWf x) (sub : [.regs] ⊆ P := by decide) :
    Only P r { s with regs := x } := h.trans (mono ⟨rfl, wf⟩ sub)
theorem withBus {x : Bus} (h : Only P r s) (sub : [.bus] ⊆ P := by decide) : Only P r { s with bus := x } := h.trans (mono ⟨rfl, id⟩ sub)
theorem withRas {x : Ras} (h : Only P r s) (sub : [.ras] ⊆ P := by decide) : Only P r { s with ras := x } := h.trans (mono ⟨rfl, id⟩ sub)
theorem withRind {x : Rind} (h : Only P r s) (sub : [.rind] ⊆ P := by decide) : Only P r { s with rind := x } :=
  h.trans (mono ⟨rfl, id⟩ sub)
theorem withCal {x : SMap CalEntry} (h : Only P r s) (sub : [.cal] ⊆ P := by decide) : Only P r { s with cal := x } :=
  h.trans (mono ⟨rfl, id⟩ sub)
theorem withCalSel {x : SMap Nat} (h : Only P r s) (sub : [.calSel] ⊆ P := by decide) : Only P r { s with calSel := x } :=
  h.trans (mono ⟨rfl, id⟩ sub)
theorem withEff {x : SMap Word} (h : Only P r s) (sub : [.eff] ⊆ P := by decide) : Only P r { s with eff := x } :=
  h.trans (mono ⟨rfl, id⟩ sub)
theorem withGrid {x : Grid} (h : Only P r s) (sub : [.grid] ⊆ P := by decide) : Only P r { s with grid := x } :=
  h.trans (mono ⟨rfl, id⟩ sub)
theorem withWork {x : Work} (h : Only P r s) (sub : [.work] ⊆ P := by decide) : Only P r { s with work := x } :=
  h.trans (mono ⟨rfl, id⟩ sub)
theorem withMods {x : SMap Module} (h : Only P r s) (sub : [.mods] ⊆ P := by decide) : Only P r { s with mods := x } :=
  h.trans (mono ⟨rfl, id⟩ sub)
theorem withModHeld {x : BitVec 256} (h : Only P r s) (sub : [.modHeld] ⊆ P := by decide) : Only P r { s with modHeld := x } :=
  h.trans (mono ⟨rfl, id⟩ sub)
theorem withPress {x : SMap Press} (h : Only P r s) (sub : [.press] ⊆ P := by decide) : Only P r { s with press := x } :=
  h.trans (mono ⟨rfl, id⟩ sub)
theorem withSes {x : SMap SEngine} (h : Only P r s) (sub : [.ses] ⊆ P := by decide) : Only P r { s with ses := x } :=
  h.trans (mono ⟨rfl, id⟩ sub)
theorem withSram {x : EccMem} (h : Only P r s) (sub : [.sram] ⊆ P := by decide) : Only P r { s with sram := x } :=
  h.trans (mono ⟨rfl, id⟩ sub)
theorem withCl {x : Cluster} (h : Only P r s) (sub : [.cl] ⊆ P := by decide) : Only P r { s with cl := x } := h.trans (mono ⟨rfl, id⟩ sub)
theorem withNv {x : Nv} (h : Only P r s) (flash : x.flash = s.nv.flash := by rfl) (sub : [.nv] ⊆ P := by decide) :
    Only P r { s with nv := x } := by
  refine h.trans (mono ⟨?_, id⟩ sub)
  show { s with nv := { s.nv with flash := x.flash } } = s
  rw [flash]
theorem withFlash {x : Nv} (h : Only P r s) (sub : [.flash, .nv] ⊆ P := by decide) : Only P r { s with nv := x } :=
  h.trans (mono ⟨rfl, id⟩ sub)
theorem withTyz {x : Tyz} (h : Only P r s) (sub : [.tyz] ⊆ P := by decide) : Only P r { s with tyz := x } := h.trans (mono ⟨rfl, id⟩ sub)
theorem withEth {x : SMap Eth} (h : Only P r s) (sub : [.eth] ⊆ P := by decide) : Only P r { s with eth := x } :=
  h.trans (mono ⟨rfl, id⟩ sub)
theorem withPeers {x : SMap EthPeer} (h : Only P r s) (sub : [.peers] ⊆ P := by decide) : Only P r { s with peers := x } :=
  h.trans (mono ⟨rfl, id⟩ sub)
theorem withDisc {x : Disc} (h : Only P r s) (sub : [.disc] ⊆ P := by decide) : Only P r { s with disc := x } :=
  h.trans (mono ⟨rfl, id⟩ sub)
theorem withSys {x : Sys} (h : Only P r s) (sub : [.sys] ⊆ P := by decide) : Only P r { s with sys := x } := h.trans (mono ⟨rfl, id⟩ sub)
theorem withMeter {x : Meter} (h : Only P r s) (sub : [.meter] ⊆ P := by decide) : Only P r { s with meter := x } :=
  h.trans (mono ⟨rfl, id⟩ sub)
theorem withAcct {x : Acct} (h : Only P r s) (sub : [.acct] ⊆ P := by decide) : Only P r { s with acct := x } :=
  h.trans (mono ⟨rfl, id⟩ sub)
theorem withTrace {x : Trace} (h : Only P r s) (sub : [.trace] ⊆ P := by decide) : Only P r { s with trace := x } :=
  h.trans (mono ⟨rfl, id⟩ sub)
theorem withWdt {x : Wdt} (h : Only P r s) (sub : [.wdt] ⊆ P := by decide) : Only P r { s with wdt := x } := h.trans (mono ⟨rfl, id⟩ sub)
theorem withJtag {x : Jtag} (h : Only P r s) (sub : [.jtag] ⊆ P := by decide) : Only P r { s with jtag := x } :=
  h.trans (mono ⟨rfl, id⟩ sub)

/-! Several fields set at once, where the model does so. -/

theorem withGridWork {grid : Grid} {work : Work} (h : Only P r s) (sub : [.grid, .work] ⊆ P := by decide) :
    Only P r { s with grid := grid, work := work } := h.trans (mono ⟨rfl, id⟩ sub)
theorem withGridSys {grid : Grid} {sys : Sys} (h : Only P r s) (sub : [.grid, .sys] ⊆ P := by decide) :
    Only P r { s with grid := grid, sys := sys } := h.trans (mono ⟨rfl, id⟩ sub)
theorem withGridWorkPressSes {grid : Grid} {work : Work} {press : SMap Press} {ses : SMap SEngine} (h : Only P r s)
    (sub : [.grid, .work, .press, .ses] ⊆ P := by decide) :
    Only P r { s with grid := grid, work := work, press := press, ses := ses } := h.trans (mono ⟨rfl, id⟩ sub)
theorem withGridSysTraceWdt {grid : Grid} {sys : Sys} {trace : Trace} {wdt : Wdt} (h : Only P r s)
    (sub : [.grid, .sys, .trace, .wdt] ⊆ P := by decide) :
    Only P r { s with grid := grid, sys := sys, trace := trace, wdt := wdt } := h.trans (mono ⟨rfl, id⟩ sub)
theorem withPressSesTyz {press : SMap Press} {ses : SMap SEngine} {tyz : Tyz} (h : Only P r s)
    (sub : [.press, .ses, .tyz] ⊆ P := by decide) :
    Only P r { s with press := press, ses := ses, tyz := tyz } := h.trans (mono ⟨rfl, id⟩ sub)
theorem withSramCl {sram : EccMem} {cl : Cluster} (h : Only P r s) (sub : [.sram, .cl] ⊆ P := by decide) :
    Only P r { s with sram := sram, cl := cl } := h.trans (mono ⟨rfl, id⟩ sub)
theorem withTyzDisc {tyz : Tyz} {disc : Disc} (h : Only P r s) (sub : [.tyz, .disc] ⊆ P := by decide) :
    Only P r { s with tyz := tyz, disc := disc } := h.trans (mono ⟨rfl, id⟩ sub)
theorem withTbWdt {tb : Dword} {wdt : Wdt} (h : Only P r s) (sub : [.tb, .wdt] ⊆ P := by decide) :
    Only P r { s with tb := tb, wdt := wdt } := h.trans (mono ⟨rfl, id⟩ sub)

/-- The grid goes off. -/
theorem withRegsGrid {regs : SMap Word} {grid : Grid} (h : Only P r s) (wf : regsWf s.regs → regsWf regs)
    (sub : [.regs, .grid] ⊆ P := by decide) :
    Only P r { s with regs := regs, grid := grid } := h.trans (mono ⟨rfl, wf⟩ sub)

/-- What a GRID reset returns to reset. -/
theorem withGridReset {regs : SMap Word} {grid : Grid} {press : SMap Press} {ses : SMap SEngine} {tyz : Tyz} {sys : Sys} (h : Only P r s)
    (wf : regsWf s.regs → regsWf regs) (sub : [.regs, .grid, .press, .ses, .tyz, .sys] ⊆ P := by decide) :
    Only P r { s with regs := regs, grid := grid, press := press, ses := ses, tyz := tyz, sys := sys } := h.trans (mono ⟨rfl, wf⟩ sub)

/-- What a CLUSTER reset returns to reset. -/
theorem withClusterReset {regs : SMap Word} {ras : Ras} {rind : Rind} {cal : SMap CalEntry} {calSel : SMap Nat} {bus : Bus} {sram : EccMem}
    {cl : Cluster} {nv : Nv} {wdt : Wdt} {acct : Acct} {sys : Sys} (h : Only P r s) (wf : regsWf s.regs → regsWf regs)
    (sub : [.regs, .ras, .rind, .cal, .calSel, .bus, .sram, .cl, .flash, .nv, .wdt, .acct, .sys] ⊆ P := by decide) :
    Only P r { s with
      regs := regs, ras := ras, rind := rind, cal := cal, calSel := calSel, bus := bus, sram := sram, cl := cl, nv := nv,
      wdt := wdt, acct := acct, sys := sys } := h.trans (mono ⟨rfl, wf⟩ sub)

/-- What a wider reset returns to reset. -/
theorem withWideReset {tb : Dword} {regs : SMap Word} {bus : Bus} {ras : Ras} {rind : Rind} {cal : SMap CalEntry} {calSel : SMap Nat}
    {eff : SMap Word} {grid : Grid} {work : Work} {mods : SMap Module} {press : SMap Press} {ses : SMap SEngine} {sram : EccMem}
    {cl : Cluster} {nv : Nv} {tyz : Tyz} {eth : SMap Eth} {peers : SMap EthPeer} {disc : Disc} {sys : Sys} {meter : Meter} {acct : Acct}
    {trace : Trace} {wdt : Wdt} {jtag : Jtag} (h : Only P r s) (wf : regsWf s.regs → regsWf regs) (flash : nv.flash = s.nv.flash)
    (sub : [.tb, .regs, .bus, .ras, .rind, .cal, .calSel, .eff, .grid, .work, .mods, .press, .ses, .sram, .cl, .nv, .tyz, .eth, .peers,
      .disc, .sys, .meter, .acct, .trace, .wdt, .jtag] ⊆ P := by decide) :
    Only P r { s with
      tb := tb, regs := regs, bus := bus, ras := ras, rind := rind, cal := cal, calSel := calSel, eff := eff, grid := grid,
      work := work, mods := mods, press := press, ses := ses, sram := sram, cl := cl, nv := nv, tyz := tyz, eth := eth,
      peers := peers, disc := disc, sys := sys, meter := meter, acct := acct, trace := trace, wdt := wdt, jtag := jtag } := by
  refine h.trans (mono ⟨?_, wf⟩ sub)
  show { s with nv := { s.nv with flash := nv.flash } } = s
  rw [flash]

theorem ite {c : Prop} [Decidable c] (h : Only P r s) (h' : Only P r t) : Only P r (if c then s else t) := by split <;> assumption

theorem elim {α : Type} {o : Option α} {f : α → State} (h : Only P r s) (hf : ∀ a, Only P r (f a)) : Only P r (o.elim s f) := by
  cases o with
  | none => exact h
  | some a => exact hf a

theorem foldl {α : Type} {f : State → α → State} {l : List α} (h : Only P r s) (hf : ∀ t x, Only P r t → Only P r (f t x)) :
    Only P r (l.foldl f s) := by
  induction l generalizing s with
  | nil => exact h
  | cons x l ih => exact ih (hf s x h)

/-- Pairs of a state and a result: their state. -/
theorem res {α : Type} {b : α} (h : Only P r s) : Only P r (s, b).1 := h
theorem resSnd {α : Type} {b : α} (h : Only P r s) : Only P r (b, s).2 := h

theorem iteFst {α : Type} {c : Prop} [Decidable c] {p q : State × α} (h : Only P r p.1) (h' : Only P r q.1) :
    Only P r (if c then p else q).1 := by split <;> assumption

theorem iteSnd {α : Type} {c : Prop} [Decidable c] {p q : α × State} (h : Only P r p.2) (h' : Only P r q.2) :
    Only P r (if c then p else q).2 := by split <;> assumption

theorem foldlFst {α β : Type} {f : State × β → α → State × β} {l : List α} {p : State × β} (h : Only P r p.1)
    (hf : ∀ q x, Only P r q.1 → Only P r (f q x).1) : Only P r (l.foldl f p).1 := by
  induction l generalizing p with
  | nil => exact h
  | cons x l ih => exact ih (hf p x h)

theorem fst {α : Type} {p : State × α} {b : α} (e : p = (t, b)) (h : Only P r p.1) : Only P r t := by subst e; exact h
theorem snd {α : Type} {p : α × State} {b : α} (e : p = (b, t)) (h : Only P r p.2) : Only P r t := by subst e; exact h

end Only

/-- An outcome that is a next state, which is the given one but for the pieces in `P`. -/
def Answers (P : List Piece) (s : State) (o : Host.Outcome State Fault Refusal) : Prop := ∃ t, o = .next t ∧ Only P s t

theorem Answers.via {r x : State} {o : Host.Outcome State Fault Refusal} (h : Only P r x) (f : Only P r x → Answers P r o) :
    Answers P r o := f h

theorem Answers.ite {r : State} {c : Prop} [Decidable c] {o o' : Host.Outcome State Fault Refusal} (h : Answers P r o) (h' : Answers P r o') :
    Answers P r (if c then o else o') := by split <;> assumption

namespace Only
variable {r s t : State} {o : Host.Outcome State Fault Refusal}

/-- A fact about a value that the rest of the proof uses again. -/
theorem via {x : State} (h : Only P r x) (f : Only P r x → Only P r s) : Only P r s := f h

theorem next (h : Only P r s) : Answers P r (.next s) := ⟨s, rfl, h⟩

theorem passOver {why : String} (h : Only P r s) : Answers P r (s.passOver why) := h.next

theorem answer (h : Only P r s) (sub : Q ⊆ P) (f : ∀ r, Only Q r s → Answers Q r o) : Answers P r o := by
  obtain ⟨t, e, only⟩ := f s refl
  exact ⟨t, e, h.trans (only.mono sub)⟩

theorem onGrid (h : Only P r s) (ho : Answers P r o) : Answers P r (s.onGrid o) := .ite ho h.passOver
theorem onClock (h : Only P r s) (ho : Answers P r o) : Answers P r (s.onClock o) := .ite ho h.passOver

theorem setReg {a : Nat} {v : Word} (h : Only P r s) (sub : [.regs] ⊆ P := by decide) : Only P r (s.setReg a v) :=
  h.trans (mono ⟨rfl, regsWf_mapSet a v⟩ sub)

theorem takeFree (h : Only P r s) (sub : [.free] ⊆ P := by decide) : Only P r s.takeFree.2 :=
  h.step sub fun _ h => h.withFree

end Only

/-- A frame's energy shared among the tenants: the operation of `Machine/Energy.lean` that `attributeNow` ends with, written out again, for its
name is a command of Lean. The lemmas on its callers meet the model's own, which unfolds to this. -/
def State.shareOut (s : State) (ej us : Nat) : State :=
  let fix := min ej (s.fld pgEnergy R.energy_FIXED_W * us)
  let all := s.meter.act.foldl (fun a e => a + s.weighted e.2) 0
  let share := fun (a : Activity) => if all = 0 then 0 else (ej - fix) * s.weighted a / all
  let p := s.acct.price
  let s1 := s.meter.act.foldl (fun (a : State) (e : Nat × Activity) =>
    if 1024 ≤ e.1 then a
    else
      let pg := pgTenant e.1
      let u := share e.2
      let b := ((a.acctAdd e.1 pg (acctReg 0) 2 u).acctAdd e.1 pg (acctReg 1) 3 (s.modUj e.2)).acctAdd e.1 pg (acctReg 3) 5 (u * p)
      b.onTenant e.1 fun x => { x with uj := x.uj + u }) s
  let tenants := s.meter.act.foldl (fun n e => if e.1 < 1024 then n + share e.2 else n) 0
  let mods := s.meter.act.foldl (fun n e => n + s.modUj e.2) 0
  let s2 := (((s1.acctAdd 1024 pgEnergy (openReg 0) 0 ej).acctAdd 1024 pgEnergy (openReg 1) 1 (ej - tenants)).acctAdd 1024 pgEnergy (openReg 2) 2
    (ej * p)).acctAdd 1024 pgEnergy (openReg 4) 4 mods
  let v := s.vid
  let s3 := { s2 with work := { s2.work with descs := s2.work.descs.map fun (d : Desc) =>
    let u := share (mapGet Activity.zero s.meter.items d.id)
    if d.eMax < u then { d with
      eMax := u
      eVid := v }
    else d } }
  { s3 with meter := { s3.meter with
    act := []
    items := []
    lastUj := ej
    lastUs := us } }

end Sys2Proof.Machine
end

/-! ### What the operations of registers may change (`Machine/Regs.lean`) -/

section
open Sys2Proof
namespace Sys2Proof.Machine
namespace Only
set_option Elab.async false
variable {P Q : List Piece} {r s t : State}

theorem setFld {pg : Nat} {f : Fld} {v : Nat} (h : Only P r s) (sub : [.regs] ⊆ P := by decide) : Only P r (s.setFld pg f v) :=
  h.step sub fun _ h => h.setReg

theorem setFld64 {pg : Nat} {f : Fld} {v : Nat} (h : Only P r s) (sub : [.regs] ⊆ P := by decide) : Only P r (s.setFld64 pg f v) :=
  h.step sub fun _ h => h.setFld.setFld

theorem setRegBit {addr k : Nat} {b : Bool} (h : Only P r s) (sub : [.regs] ⊆ P := by decide) : Only P r (s.setRegBit addr k b) :=
  h.step sub fun _ h => h.setReg

theorem emit {e : Emit} (h : Only P r s) (sub : [.out] ⊆ P := by decide) : Only P r (s.emit e) := h.step sub fun _ h => h.withOut

theorem bumpRaw {pg : Nat} {f : Fld} {bit n : Nat} (h : Only P r s) (sub : [.regs] ⊆ P := by decide) : Only P r (s.bumpRaw pg f bit n).1 :=
  h.step sub fun _ h => by
    unfold State.bumpRaw
    extract_lets a v s1
    exact .iteFst h.setReg.res (.iteFst h.setReg.res h.setReg.setRegBit.res)

end Only
end Sys2Proof.Machine
end

/-! ### What the operations of control SRAM may change (`Machine/Sram.lean`) -/

section
open Sys2Proof
namespace Sys2Proof.Machine
namespace Only
set_option Elab.async false
variable {P Q : List Piece} {r s t : State}

theorem addNotes {ns : List SramNote} (h : Only P r s) (sub : [.cl] ⊆ P := by decide) : Only P r (s.addNotes ns) :=
  h.step sub fun _ h => .ite h h.withCl

theorem settleDead {first last : Nat} (h : Only P r s) (sub : [.sram, .cl] ⊆ P := by decide) : Only P r (s.settleDead first last) :=
  h.step sub fun _ h => by
    unfold State.settleDead
    extract_lets owned
    refine h.foldl fun _ _ h1 => ?_
    split
    · exact h1.withSramCl

theorem sramRead {off n : Nat} (h : Only P r s) (sub : [.sram, .cl] ⊆ P := by decide) : Only P r (s.sramRead off n).1 :=
  h.step sub fun _ h => by
    unfold State.sramRead
    extract_lets s0
    split
    · extract_lets bytes
      exact h.settleDead.withSram.addNotes.res

theorem sramWrite {off : Nat} {bs : List Byte} (h : Only P r s) (sub : [.sram, .cl] ⊆ P := by decide) : Only P r (s.sramWrite off bs) :=
  h.step sub fun _ h => by
    unfold State.sramWrite
    extract_lets first last part s0 s1 owned merged src
    have hs0 : Only _ _ s0 := .ite h.settleDead h
    have hs1 : Only _ _ s1 := .ite hs0.settleDead hs0
    refine .ite h ?_
    split
    · exact hs1.withSramCl.addNotes

end Only
end Sys2Proof.Machine
end

/-! ### What the operations of the RAS log may change (`Machine/Ras.lean`) -/

section
open Sys2Proof
namespace Sys2Proof.Machine
namespace Only
set_option Elab.async false
variable {P Q : List Piece} {r s t : State}

theorem holdVector {vec : Nat} (h : Only P r s) (sub : [.bus] ⊆ P := by decide) : Only P r (s.holdVector vec) :=
  h.step sub fun _ h => .ite h h.withBus

theorem eventHeld {pg bit : Nat} (h : Only P r s) (sub : [.regs, .bus] ⊆ P := by decide) : Only P r (s.eventHeld pg bit) :=
  h.step sub fun _ h => .ite h.setRegBit.holdVector h.setRegBit

theorem rasOrder {i x : Nat} (h : Only P r s) (sub : [.sram, .cl] ⊆ P := by decide) : Only P r (s.rasOrder i x) :=
  h.step sub fun _ h => by
    clear * - h
    induction x generalizing s i with
    | zero => exact h
    | succ n ih =>
      unfold State.rasOrder
      exact .ite (ih h.sramWrite.sramWrite) h

theorem rasRecord {cls code src : Nat} {loc : Dword} {detail : Nat} (h : Only P r s)
    (sub : [.regs, .bus, .ras, .sram, .cl] ⊆ P := by decide) : Only P r (s.rasRecord cls code src loc detail) :=
  h.step sub fun _ h => by
    unfold State.rasRecord
    extract_lets head ack src' s0 rec_ s1
    have hs1 : Only _ _ s1 := h.withRas.sramWrite.rasOrder.setFld
    exact .ite (.ite h.withRas.bumpRaw.eventHeld h.withRas.bumpRaw) (.ite hs1.holdVector (.ite hs1.holdVector hs1))

theorem counterSat {pg off : Nat} (h : Only P r s) (sub : [.regs, .bus, .ras, .sram, .cl] ⊆ P := by decide) :
    Only P r (s.counterSat pg off) :=
  h.step sub fun _ h => h.eventHeld.rasRecord

theorem bump {pg : Nat} {f : Fld} {bit n : Nat} (h : Only P r s) (sub : [.regs, .bus, .ras, .sram, .cl] ⊆ P := by decide) :
    Only P r (s.bump pg f bit n) :=
  h.step sub fun _ h => .ite h.bumpRaw.counterSat h.bumpRaw

theorem accumulate {pg : Nat} {f : Fld} {bit n : Nat} (h : Only P r s) (sub : [.regs, .bus, .ras, .sram, .cl] ⊆ P := by decide) :
    Only P r (s.accumulate pg f bit n) :=
  h.step sub fun _ h => .ite h.setFld64 (.ite h.setFld64 h.setFld64.setRegBit.counterSat)

theorem sendMsix {fn vec : Nat} (h : Only P r s) (sub : [.out, .regs, .bus, .ras, .sram, .cl] ⊆ P := by decide) :
    Only P r (s.sendMsix fn vec) :=
  h.step sub fun _ h => .ite (.ite h h.withBus.bump) h.emit.bump

theorem vectorDue {vec : Nat} (h : Only P r s) (sub : [.out, .regs, .bus, .ras, .sram, .cl] ⊆ P := by decide) :
    Only P r (s.vectorDue vec) :=
  h.step sub fun _ h => .ite h.sendMsix h.holdVector

theorem event {pg bit : Nat} (h : Only P r s) (sub : [.out, .regs, .bus, .ras, .sram, .cl] ⊆ P := by decide) : Only P r (s.event pg bit) :=
  h.step sub fun _ h => .ite h.setRegBit.vectorDue h.setRegBit

theorem pageError {pg offset iface cause : Nat} {log1 : Word} (h : Only P r s)
    (sub : [.out, .regs, .bus, .ras, .sram, .cl] ⊆ P := by decide) : Only P r (s.pageError pg offset iface cause log1) :=
  h.step sub fun _ h => .ite h.bump h.bump.setReg.setReg.event

theorem rasFirst {cls code src : Nat} {loc : Dword} (h : Only P r s) (sub : [.regs] ⊆ P := by decide) :
    Only P r (s.rasFirst cls code src loc) :=
  h.step sub fun _ h => .ite h h.setReg.setFld.setFld64.setFld64

theorem traceRec {typ src : Nat} {payload : List Byte} (h : Only P r s) (sub : [.regs, .bus, .ras, .sram, .cl, .trace] ⊆ P := by decide) :
    Only P r (s.traceRec typ src payload) :=
  h.step sub fun _ h => .ite h (.ite h.withTrace.bump h.withTrace)

theorem actOwner {owner : Nat} {f : Activity → Activity} (h : Only P r s) (sub : [.meter] ⊆ P := by decide) :
    Only P r (s.actOwner owner f) :=
  h.step sub fun _ h => h.withMeter

theorem actItem {item : Nat} {f : Activity → Activity} (h : Only P r s) (sub : [.meter] ⊆ P := by decide) : Only P r (s.actItem item f) :=
  h.step sub fun _ h => h.withMeter

theorem rasReport {cls code src : Nat} {loc : List Nat} {detail : Nat} (h : Only P r s)
    (sub : [.out, .regs, .bus, .ras, .sram, .cl, .trace] ⊆ P := by decide) : Only P r (s.rasReport cls code src loc detail) :=
  h.step sub fun _ h => by
    unfold State.rasReport
    extract_lets l s1 s2
    have hs1 : Only _ _ s1 := .ite h.bump (.ite h.bump h)
    refine .ite hs1.rasFirst.rasRecord.traceRec.event ?_
    refine .ite hs1.rasFirst.rasRecord.traceRec.event ?_
    exact .ite hs1.rasFirst.rasRecord.traceRec.setFld.emit.event hs1.rasFirst.rasRecord.traceRec

theorem homeTimedOut {core line : Nat} (h : Only P r s) (sub : [.out, .regs, .bus, .ras, .sram, .cl, .trace] ⊆ P := by decide) :
    Only P r (s.homeTimedOut core line) :=
  h.step sub fun _ h => h.setFld.setFld.rasReport.bump.event

theorem reportNote {x : SramNote} (h : Only P r s) (sub : [.out, .regs, .bus, .ras, .sram, .cl, .trace] ⊆ P := by decide) :
    Only P r (s.reportNote x) :=
  h.step sub fun _ h => by
    unfold State.reportNote
    split
    · exact h.bump
    · exact h.bump.rasReport
    · exact h.homeTimedOut

theorem flushNotes (h : Only P r s) (sub : [.out, .regs, .bus, .ras, .sram, .cl, .trace] ⊆ P := by decide) : Only P r s.flushNotes :=
  h.step sub fun _ h => h.withCl.foldl fun _ _ h1 => h1.reportNote

end Only
end Sys2Proof.Machine
end

/-! ### What the operations of the grid may change (`Machine/Grid.lean`) -/

section
open Sys2Proof
namespace Sys2Proof.Machine
namespace Only
set_option Elab.async false
variable {P Q : List Piece} {r s t : State}

theorem setQrow {q y v : Nat} (h : Only P r s) (sub : [.regs] ⊆ P := by decide) : Only P r (s.setQrow q y v) :=
  h.step sub fun _ h => h.setReg

theorem setCell {pos : Nat} {c : Cell} (h : Only P r s) (sub : [.grid] ⊆ P := by decide) : Only P r (s.setCell pos c) :=
  h.step sub fun _ h => h.withGrid

theorem setRouter {pos : Nat} {r' : Router} (h : Only P r s) (sub : [.grid] ⊆ P := by decide) : Only P r (s.setRouter pos r') :=
  h.step sub fun _ h => h.withGrid

theorem setCtx {pos n : Nat} {x : Ctx} (h : Only P r s) (sub : [.grid] ⊆ P := by decide) : Only P r (s.setCtx pos n x) :=
  h.step sub fun _ h => h.setCell

theorem onRuns {sid : Nat} {f : Run → Run} (h : Only P r s) (sub : [.work] ⊆ P := by decide) : Only P r (s.onRuns sid f) :=
  h.step sub fun _ h => h.withWork

theorem faultDone {sid : Nat} {e : Ending} (h : Only P r s) (sub : [.work] ⊆ P := by decide) : Only P r (s.faultDone sid e) :=
  h.step sub fun _ h => by
    unfold State.faultDone
    split
    · exact h
    · exact h.withWork

theorem haltSection {sid : Nat} (h : Only P r s) (sub : [.work] ⊆ P := by decide) : Only P r (s.haltSection sid) :=
  h.step sub fun _ h => .ite h.withWork h

theorem faultSection {sid : Nat} {e : Ending} (h : Only P r s) (sub : [.work] ⊆ P := by decide) : Only P r (s.faultSection sid e) :=
  h.step sub fun _ h => h.faultDone.haltSection.onRuns

theorem faultRunAt {pos n : Nat} {e : Ending} (h : Only P r s) (sub : [.work] ⊆ P := by decide) : Only P r (s.faultRunAt pos n e) :=
  h.step sub fun _ h => by
    unfold State.faultRunAt
    split
    · exact h
    · exact h.faultSection

theorem faultRegion {region : Nat} {e : Ending} (h : Only P r s) (sub : [.work] ⊆ P := by decide) : Only P r (s.faultRegion region e) :=
  h.step sub fun _ h => by
    unfold State.faultRegion
    split
    · exact h
    · exact h.faultSection

theorem poisonRunAt {pos n : Nat} (h : Only P r s) (sub : [.work] ⊆ P := by decide) : Only P r (s.poisonRunAt pos n) :=
  h.step sub fun _ h => by
    unfold State.poisonRunAt
    split
    · exact h
    · exact h.faultDone.onRuns

theorem actRegion {region : Nat} {f : Activity → Activity} (h : Only P r s) (sub : [.meter] ⊆ P := by decide) :
    Only P r (s.actRegion region f) :=
  h.step sub fun _ h => by
    unfold State.actRegion
    split
    · exact h.actOwner
    · split
      · exact h.actOwner
      · split
        · exact h.actOwner
        · exact h.actOwner.actItem

theorem setCause {bit : Nat} {b : Bool} (h : Only P r s) (sub : [.out, .regs, .bus, .ras, .sram, .cl] ⊆ P := by decide) :
    Only P r (s.setCause bit b) :=
  h.step sub fun _ h => .ite h h.setRegBit.event

theorem setPosFaulty {pos : Nat} (h : Only P r s) (sub : [.regs] ⊆ P := by decide) : Only P r (s.setPosFaulty pos) :=
  h.step sub fun _ h => h.setRegBit

theorem decideRepair {pos : Nat} (h : Only P r s) (sub : [.out, .regs, .bus, .ras, .grid, .sram, .cl] ⊆ P := by decide) :
    Only P r (s.decideRepair pos) :=
  h.step sub fun _ h => .ite h.setCause.withGrid h.setCause.withGrid

theorem makeFaulty {pos : Nat} (h : Only P r s) (sub : [.out, .regs, .bus, .ras, .grid, .sram, .cl] ⊆ P := by decide) :
    Only P r (s.makeFaulty pos) :=
  h.step sub fun _ h => by
    unfold State.makeFaulty
    extract_lets k src s1 base src' at_ src'' s2 src'''
    have hbase : Only _ _ base := h.withGrid.setPosFaulty.event.setCause
    have hs2 : Only _ _ s2 := h.withGrid.setPosFaulty.event.withGrid
    exact .ite h (.ite (.ite h.withGrid.setPosFaulty.event.decideRepair hbase.withGrid) (.ite hs2.withGrid hs2))

theorem strike {pos : Nat} (h : Only P r s) (sub : [.out, .regs, .bus, .ras, .grid, .sram, .cl] ⊆ P := by decide) :
    Only P r (s.strike pos) :=
  h.step sub fun _ h => .ite h.withGrid.makeFaulty h.withGrid

theorem ceReport {pos : Nat} (h : Only P r s) (sub : [.out, .regs, .bus, .ras, .grid, .sram, .cl] ⊆ P := by decide) :
    Only P r (s.ceReport pos) :=
  h.step sub fun _ h => .ite h.withGrid.strike h.withGrid

theorem suspendRec {code : Nat} (h : Only P r s) (sub : [.regs, .bus, .ras, .sram, .cl, .sys, .trace] ⊆ P := by decide) :
    Only P r (s.suspendRec code) :=
  h.step sub fun _ h => h.withSys.traceRec

theorem resumeRec {code : Nat} (h : Only P r s) (sub : [.regs, .bus, .ras, .sram, .cl, .trace] ⊆ P := by decide) :
    Only P r (s.resumeRec code) :=
  h.step sub fun _ h => h.traceRec

theorem endNap (h : Only P r s) (sub : [.regs, .bus, .ras, .grid, .sram, .cl, .trace] ⊆ P := by decide) : Only P r s.endNap :=
  h.step sub fun _ h => .ite h.withGrid.setFld.resumeRec h

theorem wakeGrid (h : Only P r s) (sub : [.regs, .bus, .ras, .grid, .sram, .cl, .trace] ⊆ P := by decide) : Only P r s.wakeGrid :=
  h.step sub fun _ h => .ite h.endNap.withGrid h

end Only
end Sys2Proof.Machine
end

/-! ### What the operations of scratchpads may change (`Machine/Scratchpad.lean`) -/

section
open Sys2Proof
namespace Sys2Proof.Machine
namespace Only
set_option Elab.async false
variable {P Q : List Piece} {r s t : State}

theorem strikeSlice {pos : Nat} {us : List Upset} (h : Only P r s) (sub : [.grid] ⊆ P := by decide) : Only P r (s.strikeSlice pos us) :=
  h.step sub fun _ h => .ite h h.setCell

theorem spCe {pos off : Nat} (h : Only P r s) (sub : [.out, .regs, .bus, .ras, .grid, .sram, .cl, .trace] ⊆ P := by decide) :
    Only P r (s.spCe pos off) :=
  h.step sub fun _ h => h.bump.event.rasReport.ceReport

theorem spUe {pos off : Nat} (h : Only P r s) (sub : [.out, .regs, .bus, .ras, .grid, .sram, .cl, .trace] ⊆ P := by decide) :
    Only P r (s.spUe pos off) :=
  h.step sub fun _ h => h.bump.event.rasReport.strike

theorem spPoisonRd {pos : Nat} (h : Only P r s) (sub : [.regs, .bus, .ras, .sram, .cl] ⊆ P := by decide) : Only P r (s.spPoisonRd pos) :=
  h.step sub fun _ h => h.bump

theorem spScrubOw {pos : Nat} (h : Only P r s) (sub : [.regs, .bus, .ras, .sram, .cl] ⊆ P := by decide) : Only P r (s.spScrubOw pos) :=
  h.step sub fun _ h => h.bump

theorem onSlice {pos : Nat} {f : EccMem → EccMem} (h : Only P r s) (sub : [.grid] ⊆ P := by decide) : Only P r (s.onSlice pos f) :=
  h.step sub fun _ h => h.setCell

theorem spReadGranule {pos g : Nat} (h : Only P r s) (sub : [.out, .regs, .bus, .ras, .grid, .sram, .cl, .trace] ⊆ P := by decide) :
    Only P r (s.spReadGranule pos g).1 :=
  h.step sub fun _ h => by
    unfold State.spReadGranule
    split
    · exact h.res
    · extract_lets c
      exact h.setCell.spCe.res
    · exact h.spPoisonRd.res
    · exact h.onSlice.spUe.res

theorem spReadGranules {pos g x : Nat} (h : Only P r s) (sub : [.out, .regs, .bus, .ras, .grid, .sram, .cl, .trace] ⊆ P := by decide) :
    Only P r (s.spReadGranules pos g x).1 :=
  h.step sub fun _ h => by
    clear * - h
    induction x generalizing s pos g with
    | zero => exact h.res
    | succ n ih =>
      unfold State.spReadGranules
      split
      next s1 p heq =>
      have h2 : Only _ _ s1 := .fst heq h.spReadGranule
      split
      next s2 ps heq =>
      have h3 : Only _ _ s2 := .fst heq (ih h2)
      exact h3.res

theorem spRead {pos off size : Nat} (h : Only P r s) (sub : [.out, .regs, .bus, .ras, .grid, .sram, .cl, .trace] ⊆ P := by decide) :
    Only P r (s.spRead pos off size).1 :=
  h.step sub fun _ h => h.spReadGranules.res

theorem spWriteGranule {pos off : Nat} {bs : List Byte} {poison : Bool} (h : Only P r s)
    (sub : [.out, .regs, .bus, .ras, .grid, .sram, .cl, .trace] ⊆ P := by decide) : Only P r (s.spWriteGranule pos off bs poison) :=
  h.step sub fun _ h => by
    unfold State.spWriteGranule
    extract_lets g full c old cls s1 s2
    clear_value old
    split
    · exact h.setCell
    · exact h.setCell.spCe
    · exact .ite h.setCell.spUe.spScrubOw h.setCell.spUe
    · exact .ite (.ite h.setCell h.setCell.spScrubOw) h.setCell.spPoisonRd

theorem spWriteFrom {pos off : Nat} {bs : List Byte} {poison : List Nat} {x : Nat} (h : Only P r s)
    (sub : [.out, .regs, .bus, .ras, .grid, .sram, .cl, .trace] ⊆ P := by decide) : Only P r (s.spWriteFrom pos off bs poison x) :=
  h.step sub fun _ h => by
    clear * - h
    induction x generalizing s pos off bs poison with
    | zero => exact h
    | succ fuel ih =>
      unfold State.spWriteFrom
      exact .ite h (ih h.spWriteGranule)

theorem spWrite {pos off : Nat} {bs : List Byte} {poison : List Nat} (h : Only P r s)
    (sub : [.out, .regs, .bus, .ras, .grid, .sram, .cl, .trace] ⊆ P := by decide) : Only P r (s.spWrite pos off bs poison) :=
  h.step sub fun _ h => h.spWriteFrom

theorem boundFault {pos n addr size : Nat} {target : Bool} (h : Only P r s) (sub : [.out, .regs, .bus, .ras, .sram, .cl] ⊆ P := by decide) :
    Only P r (s.boundFault pos n addr size target) :=
  h.step sub fun _ h => h.event.pageError

theorem issuerBound {pos n addr size : Nat} (h : Only P r s) (sub : [.out, .regs, .bus, .ras, .work, .sram, .cl] ⊆ P := by decide) :
    Only P r (s.issuerBound pos n addr size) :=
  h.step sub fun _ h => h.boundFault.faultRunAt

theorem issuerFormat {pos n : Nat} (h : Only P r s) (sub : [.work] ⊆ P := by decide) : Only P r (s.issuerFormat pos n) :=
  h.step sub fun _ h => h.faultRunAt

theorem writeBack {pos granule : Nat} {bs : List Byte} (h : Only P r s)
    (sub : [.out, .regs, .bus, .ras, .grid, .sram, .cl, .trace] ⊆ P := by decide) : Only P r (s.writeBack pos granule bs) :=
  h.step sub fun _ h => by
    unfold State.writeBack
    extract_lets c
    split
    · exact h.setCell
    · exact h.setCell
    · exact h.spWriteGranule
    · exact h.spWriteGranule

theorem execCeWriteback {pos granule : Nat} (h : Only P r s) (sub : [.out, .regs, .bus, .ras, .grid, .sram, .cl, .trace] ⊆ P := by decide) :
    Answers P r (execCeWriteback pos granule s) :=
  h.answer sub fun _ h => by
    unfold Machine.execCeWriteback
    refine h.onGrid ?_
    split
    · exact h.writeBack.next
    · exact h.passOver

theorem execScrubVisit {pos : Nat} {hits : List Upset} (h : Only P r s)
    (sub : [.out, .regs, .bus, .ras, .grid, .sram, .cl, .trace] ⊆ P := by decide) : Answers P r (execScrubVisit pos hits s) :=
  h.answer sub fun _ h => by
    unfold Machine.execScrubVisit
    refine .ite h.passOver ?_
    refine .ite h.passOver ?_
    extract_lets s0 g
    split
    next s1 snd heq =>
    have h1 : Only _ _ s1 := .fst heq h.strikeSlice.spReadGranule
    extract_lets c
    exact h1.setCell.next

theorem execScrubLate {pos : Nat} (h : Only P r s) (sub : [.out, .regs, .bus, .ras, .grid, .sram, .cl] ⊆ P := by decide) :
    Answers P r (execScrubLate pos s) :=
  h.answer sub fun _ h => by
    unfold Machine.execScrubLate
    extract_lets period src
    exact .ite h.passOver (.ite h.passOver h.setCell.setFld.event.next)

theorem bar4Access {write : Bool} {off size : Nat} {data : TlpData} {hits : List Upset} (h : Only P r s)
    (sub : [.out, .regs, .bus, .ras, .grid, .sram, .cl, .trace] ⊆ P := by decide) : Only P r (s.bar4Access write off size data hits) :=
  h.step sub fun _ h => .ite h.emit (.ite h.wakeGrid.strikeSlice.spWrite h.wakeGrid.strikeSlice.spRead.emit)

theorem execBar4ScratchpadAccess {write : Bool} {off size : Nat} {data : TlpData} {hits : List Upset} (h : Only P r s)
    (sub : [.out, .regs, .bus, .ras, .grid, .sram, .cl, .trace] ⊆ P := by decide) :
    Answers P r (execBar4ScratchpadAccess write off size data hits s) :=
  h.answer sub fun _ h => h.onClock (.ite h.withGrid.next h.bar4Access.next)

theorem releaseBar4 (h : Only P r s) (sub : [.out, .regs, .bus, .ras, .grid, .sram, .cl, .trace] ⊆ P := by decide) :
    Only P r s.releaseBar4 :=
  h.step sub fun _ h => h.withGrid.foldl fun _ _ h1 => h1.bar4Access

end Only
end Sys2Proof.Machine
end

/-! ### What the operations of the clock may change (`Machine/Time.lean`) -/

section
open Sys2Proof
namespace Sys2Proof.Machine
namespace Only
set_option Elab.async false
variable {P Q : List Piece} {r s t : State}

theorem advance {t' : Dword} (h : Only P r s) (sub : [.tb] ⊆ P := by decide) : Only P r (s.advance t') :=
  h.step sub fun _ h => .ite h.withTb h

theorem setTimebase {v : Dword} (h : Only P r s) (sub : [.tb, .wdt] ⊆ P := by decide) : Only P r (s.setTimebase v) :=
  h.step sub fun _ h => h.withTbWdt

theorem post {d code reason detail : Nat} {final : Bool} (h : Only P r s) (sub : [.work] ⊆ P := by decide) :
    Only P r (s.post d code reason detail final) :=
  h.step sub fun _ h => h.withWork

theorem postEnd {d : Nat} {e : Ending} (h : Only P r s) (sub : [.work] ⊆ P := by decide) : Only P r (s.postEnd d e) :=
  h.step sub fun _ h => h.post

theorem onDesc {d : Nat} {f : Desc → Desc} (h : Only P r s) (sub : [.work] ⊆ P := by decide) : Only P r (s.onDesc d f) :=
  h.step sub fun _ h => h.withWork

end Only
end Sys2Proof.Machine
end

/-! ### What the operations of modules may change (`Machine/Modules.lean`) -/

section
open Sys2Proof
namespace Sys2Proof.Machine
namespace Only
set_option Elab.async false
variable {P Q : List Piece} {r s t : State}

theorem setModule {c : Nat} {m : Module} (h : Only P r s) (sub : [.mods] ⊆ P := by decide) : Only P r (s.setModule c m) :=
  h.step sub fun _ h => h.withMods

theorem channelCause (h : Only P r s) (sub : [.out, .regs, .bus, .ras, .sram, .cl] ⊆ P := by decide) : Only P r s.channelCause :=
  h.step sub fun _ h => h.setCause

theorem holdBytes {bs : List Byte} (h : Only P r s) (sub : [.modHeld] ⊆ P := by decide) : Only P r (s.holdBytes bs) :=
  h.step sub fun _ h => h.withModHeld

theorem viewBytes {c off : Nat} {interleaved : Bool} {x : Nat} (h : Only P r s) (sub : [.free] ⊆ P := by decide) :
    Only P r (s.viewBytes c off interleaved x).1 :=
  h.step sub fun _ h => by
    clear * - h
    induction x generalizing s c off interleaved with
    | zero => exact h.res
    | succ n ih =>
      unfold State.viewBytes
      extract_lets m
      refine .iteFst ?_ ?_
      · split
        next v s1 heq =>
        have h2 : Only _ _ s1 := .snd heq h.takeFree
        split
        next s2 r heq =>
        have h3 : Only _ _ s2 := .fst heq (ih h2)
        exact h3.res
      · split
        next s2 r heq =>
        have h4 : Only _ _ s2 := .fst heq (ih h)
        exact h4.res

theorem memCe {c off : Nat} (h : Only P r s) (sub : [.out, .regs, .bus, .ras, .sram, .cl, .trace] ⊆ P := by decide) :
    Only P r (s.memCe c off) :=
  h.step sub fun _ h => h.bump.rasReport

theorem memUe {c off : Nat} (h : Only P r s) (sub : [.out, .regs, .bus, .ras, .mods, .sram, .cl, .trace] ⊆ P := by decide) :
    Only P r (s.memUe c off) :=
  h.step sub fun _ h => by
    unfold State.memUe
    exact h.setModule.bump.event.rasReport

theorem memReadGranule {c g : Nat} (h : Only P r s) (sub : [.out, .regs, .bus, .ras, .mods, .sram, .cl, .trace] ⊆ P := by decide) :
    Only P r (s.memReadGranule c g).1 :=
  h.step sub fun _ h => by
    unfold State.memReadGranule
    extract_lets m
    split
    · exact h.res
    · exact h.setModule.memCe.res
    · exact h.bump.res
    · exact h.setModule.memUe.res

theorem memWriteGranule {c off : Nat} {bs : List Byte} {poison : Bool} (h : Only P r s)
    (sub : [.out, .regs, .bus, .ras, .mods, .modHeld, .sram, .cl, .trace] ⊆ P := by decide) :
    Only P r (s.memWriteGranule c off bs poison) :=
  h.step sub fun _ h => by
    unfold State.memWriteGranule
    extract_lets g full m old cls s1 s2
    clear_value old
    split
    · exact h.holdBytes.setModule
    · exact h.holdBytes.setModule.memCe
    · exact .ite h.holdBytes.setModule.memUe.bump h.holdBytes.setModule.memUe
    · exact .ite (.ite h.holdBytes.setModule h.holdBytes.setModule.bump) h.holdBytes.setModule.bump

theorem memReadPieces {x : List (MemLoc × Nat × Nat)} (h : Only P r s)
    (sub : [.free, .out, .regs, .bus, .ras, .grid, .mods, .sram, .cl, .trace] ⊆ P := by decide) : Only P r (s.memReadPieces x).1 :=
  h.step sub fun _ h => by
    clear * - h
    induction x generalizing s with
    | nil => exact h
    | cons e rest ih =>
      obtain ⟨l, a, n⟩ := e
      unfold State.memReadPieces
      split
      next s1 b p heq =>
      refine .via (x := s1) (.fst heq ?_) fun h1 => ?_
      · split
        · exact h.memReadGranule.viewBytes
        · exact h.spRead
        · exact h
      · exact ih h1

theorem memRead_ok {a n : Nat} {fw : Bool} {l : List (List Byte × Bool)} (h : Only P r s) (e : s.memRead a n fw = .ok t l)
    (sub : [.free, .out, .regs, .bus, .ras, .grid, .mods, .sram, .cl, .trace] ⊆ P := by decide) : Only P r t := by
  unfold State.memRead at e
  split at e
  · cases e
  · cases e
    exact h.memReadPieces sub

theorem memWritePieces {bs : List Byte} {poison : Nat → Nat → Bool} {at_ : Nat} {x : List (MemLoc × Nat × Nat)} (h : Only P r s)
    (sub : [.out, .regs, .bus, .ras, .grid, .mods, .modHeld, .sram, .cl, .trace] ⊆ P := by decide) :
    Only P r (s.memWritePieces bs poison at_ x) :=
  h.step sub fun _ h => by
    clear * - h
    induction x generalizing s bs at_ with
    | nil => exact h
    | cons e rest ih =>
      obtain ⟨l, a, n⟩ := e
      unfold State.memWritePieces
      refine ih ?_
      split
      · exact h.memWriteGranule
      · exact h.spWrite
      · exact h

theorem memWrite_ok {a : Nat} {bs : List Byte} {poison : Nat → Nat → Bool} {fw : Bool} {l : List (List Byte × Bool)} (h : Only P r s)
    (e : s.memWrite a bs poison fw = .ok t l)
    (sub : [.out, .regs, .bus, .ras, .grid, .mods, .modHeld, .sram, .cl, .trace] ⊆ P := by decide) : Only P r t := by
  unfold State.memWrite at e
  split at e
  · cases e
  · cases e
    exact h.memWritePieces sub

theorem strikeModules {hits : List (Nat × Upset)} (h : Only P r s) (sub : [.mods] ⊆ P := by decide) : Only P r (s.strikeModules hits) :=
  h.step sub fun _ h => h.foldl fun _ _ h1 => h1.setModule

theorem execBar4MemoryAccess {fn slot : Nat} {write : Bool} {off size : Nat} {data : TlpData} {hits : List (Nat × Upset)} (h : Only P r s)
    (sub : [.free, .out, .regs, .bus, .ras, .grid, .mods, .modHeld, .sram, .cl, .trace] ⊆ P := by decide) :
    Answers P r (execBar4MemoryAccess fn slot write off size data hits s) :=
  h.answer sub fun _ h => by
    unfold Machine.execBar4MemoryAccess
    refine h.onClock ?_
    extract_lets s0 n
    split
    · exact h.strikeModules.emit.next
    · refine .ite h.strikeModules.emit.next ?_
      refine .ite ?_ ?_
      · split
        next t pieces heq =>
          have h1 : Only _ _ t := h.strikeModules.memWrite_ok heq
          exact h1.next
        · exact h.strikeModules.emit.next
      · split
        next t ps heq =>
          have h2 : Only _ _ t := h.strikeModules.memRead_ok heq
          exact h2.emit.next
        · exact h.strikeModules.emit.next

theorem freeBytes {x : Nat} (h : Only P r s) (sub : [.free] ⊆ P := by decide) : Only P r (s.freeBytes x).1 :=
  h.step sub fun _ h => by
    clear * - h
    induction x generalizing s with
    | zero => exact h.res
    | succ n ih =>
      unfold State.freeBytes
      split
      next v s1 heq =>
      have h2 : Only _ _ s1 := .snd heq h.takeFree
      split
      next s2 r heq =>
      have h3 : Only _ _ s2 := .fst heq (ih h2)
      exact h3.res

theorem execCxlMemRequest {write : Bool} {off size : Nat} {data : List Byte} {poison : Bool} {hits : List (Nat × Upset)} (h : Only P r s)
    (sub : [.free, .out, .regs, .bus, .ras, .grid, .mods, .modHeld, .sram, .cl, .trace] ⊆ P := by decide) :
    Answers P r (execCxlMemRequest write off size data poison hits s) :=
  h.answer sub fun _ h => by
    unfold Machine.execCxlMemRequest
    refine h.onClock ?_
    extract_lets s0 n a
    refine .ite h.passOver ?_
    refine .ite ?_ ?_
    · split
      next t pieces heq =>
        have h1 : Only _ _ t := h.strikeModules.memWrite_ok heq
        exact h1.emit.next
      · exact h.strikeModules.emit.next
    · split
      next t ps heq =>
        have h2 : Only _ _ t := h.strikeModules.memRead_ok heq
        exact h2.emit.next
      · exact h.strikeModules.freeBytes.emit.next

theorem execCxlSnoop {addr : Nat} (h : Only P r s) (sub : [.out] ⊆ P := by decide) : Answers P r (execCxlSnoop addr s) :=
  h.answer sub fun _ h => h.onClock h.emit.next

theorem execModuleCeWriteback {c granule : Nat} (h : Only P r s) (sub : [.mods] ⊆ P := by decide) :
    Answers P r (execModuleCeWriteback c granule s) :=
  h.answer sub fun _ h => by
    unfold Machine.execModuleCeWriteback
    refine h.onClock ?_
    extract_lets m
    exact .ite h.setModule.next h.passOver

theorem execModuleScrubVisit {c : Nat} {hits : List (Nat × Upset)} (h : Only P r s)
    (sub : [.out, .regs, .bus, .ras, .mods, .sram, .cl, .trace] ⊆ P := by decide) : Answers P r (execModuleScrubVisit c hits s) :=
  h.answer sub fun _ h => by
    unfold Machine.execModuleScrubVisit
    refine h.onClock ?_
    refine .ite h.passOver ?_
    refine .ite h.passOver ?_
    extract_lets s0 g
    split
    next s1 snd heq =>
    have h1 : Only _ _ s1 := .fst heq h.strikeModules.memReadGranule
    extract_lets m
    exact h1.setModule.next

theorem scramble {c off x : Nat} (h : Only P r s) (sub : [.free, .mods, .modHeld] ⊆ P := by decide) : Only P r (s.scramble c off x) :=
  h.step sub fun _ h => by
    clear * - h
    induction x generalizing s c off with
    | zero => exact h
    | succ n ih =>
      unfold State.scramble
      exact ih h.takeFree.holdBytes.setModule

theorem wcrcAgain {c off : Nat} {thrice : Bool} (h : Only P r s)
    (sub : [.free, .out, .regs, .bus, .ras, .mods, .modHeld, .sram, .cl, .trace] ⊆ P := by decide) : Only P r (s.wcrcAgain c off thrice) :=
  h.step sub fun _ h => .ite h.scramble.setModule.memUe.takeFree.setModule h.scramble.setModule.memUe

theorem execMemWcrcError {c off : Nat} {again thrice : Bool} (h : Only P r s)
    (sub : [.free, .out, .regs, .bus, .ras, .mods, .modHeld, .sram, .cl, .trace] ⊆ P := by decide) :
    Answers P r (execMemWcrcError c off again thrice s) :=
  h.answer sub fun _ h => by
    unfold Machine.execMemWcrcError
    refine h.onClock ?_
    refine .ite h.passOver ?_
    extract_lets s1
    exact .ite h.bump.wcrcAgain.next h.bump.next

end Only
end Sys2Proof.Machine
end

/-! ### What the operations of NV storage may change (`Machine/Nv.lean`) -/

section
open Sys2Proof
namespace Sys2Proof.Machine
namespace Only
set_option Elab.async false
variable {P Q : List Piece} {r s t : State}

theorem flashOp {op : FlashOp} (h : Only P r s) (sub : [.nv] ⊆ P := by decide) : Only P r (s.flashOp op) := h.step sub fun _ h => h.withNv

theorem program {prio addr : Nat} {bs : List Byte} {k : Follow} (h : Only P r s) (sub : [.nv] ⊆ P := by decide) :
    Only P r (s.program prio addr bs k) :=
  h.step sub fun _ h => h.flashOp

theorem jPut {q : JReq} (h : Only P r s) (sub : [.nv] ⊆ P := by decide) : Only P r (s.jPut q) := h.step sub fun _ h => h.withNv.program

theorem jWrite {q : JReq} (h : Only P r s) (sub : [.nv] ⊆ P := by decide) : Only P r (s.jWrite q) :=
  h.step sub fun _ h => .ite h.withNv (.ite h.withNv.jPut h.jPut)

theorem eraseSector {sec : Nat} (h : Only P r s) (sub : [.nv] ⊆ P := by decide) : Only P r (s.eraseSector sec) :=
  h.step sub fun _ h => .ite h h.withNv.jWrite

theorem putRecord {h' : Held} {sec o' : Nat} (h : Only P r s) (sub : [.nv] ⊆ P := by decide) : Only P r (s.putRecord h' sec o') :=
  h.step sub fun _ h => h.withNv.program

theorem tryRecord {x : Held} (h : Only P r s) (e : s.tryRecord x = some t) (sub : [.nv] ⊆ P := by decide) : Only P r t := by
  refine h.step sub fun _ h => ?_
  unfold State.tryRecord at e
  split at e
  next sec o heq =>
  split at e
  · cases e
    exact h.putRecord
  split at e
  · cases e
  split at e
  next =>
    split at e
    · cases e
    cases e
    exact (Only.ite h h.program).program.putRecord
  · cases e

theorem wantSector {r' : Nat} (h : Only P r s) (sub : [.out, .regs, .bus, .ras, .sram, .cl, .nv] ⊆ P := by decide) :
    Only P r (s.wantSector r') :=
  h.step sub fun _ h => by
    unfold State.wantSector
    split
    · exact h
    · exact .ite h.eraseSector (.ite h.setRegBit.event (.ite h.setRegBit.event h))

theorem appendRecord {x : Held} (h : Only P r s) (sub : [.out, .regs, .bus, .ras, .sram, .cl, .nv] ⊆ P := by decide) :
    Only P r (s.appendRecord x) :=
  h.step sub fun _ h => by
    unfold State.appendRecord
    extract_lets waits n full base src s1
    have hbase : Only _ _ base := h.bump
    have hs1 : Only _ _ s1 := .ite (hbase.withNv) h
    split
    next t heq =>
      split at heq
      · cases heq
      · exact h.tryRecord heq
    · exact .ite h.wantSector (hs1.withNv).wantSector

theorem drainHeld {region x : Nat} (h : Only P r s) (sub : [.out, .regs, .bus, .ras, .sram, .cl, .nv] ⊆ P := by decide) :
    Only P r (s.drainHeld region x) :=
  h.step sub fun _ h => by
    clear * - h
    induction x generalizing s with
    | zero => exact h
    | succ n ih =>
      unfold State.drainHeld
      split
      · exact .ite h.setRegBit h
      split
      next t heq =>
        have h1 : Only _ _ t := h.tryRecord heq
        exact ih (h1.withNv)
      · exact h.wantSector

theorem mapRecord {clear : Bool} (h : Only P r s) (sub : [.out, .regs, .bus, .ras, .sram, .cl, .nv] ⊆ P := by decide) :
    Only P r (s.mapRecord clear) :=
  h.step sub fun _ h => h.withNv.appendRecord

end Only
end Sys2Proof.Machine
end

/-! ### What the operations of the register bus may change (`Machine/RegBus.lean`) -/

section
open Sys2Proof
namespace Sys2Proof.Machine
namespace Only
set_option Elab.async false
variable {P Q : List Piece} {r s t : State}

theorem setSess {k : Nat} {x : Sess} (h : Only P r s) (sub : [.rind] ⊆ P := by decide) : Only P r (s.setSess k x) :=
  h.step sub fun _ h => h.withRind

theorem audit {type role iface result page off arg old new written : Nat} (h : Only P r s)
    (sub : [.out, .regs, .bus, .ras, .rind, .sram, .cl, .nv] ⊆ P := by decide) :
    Only P r (s.audit type role iface result page off arg old new written) :=
  h.step sub fun _ h => by
    unfold State.audit
    extract_lets seq head prev chain bytes pg src s1 s2
    have hs2 : Only _ _ s2 := .ite h.withRind.setFld h.withRind
    exact hs2.appendRecord

theorem defer {seq : Nat} {a : Deferred} (h : Only P r s) (sub : [.rind] ⊆ P := by decide) : Only P r (s.defer seq a) :=
  h.step sub fun _ h => h.withRind

theorem reservedWrite {i : Iface} {pg off : Nat} {val : Word} (h : Only P r s)
    (sub : [.out, .regs, .bus, .ras, .sram, .cl] ⊆ P := by decide) : Only P r (s.reservedWrite i pg off val) :=
  h.step sub fun _ h => h.pageError

theorem writeField {pg off : Nat} {val : Word} {d : FieldDesc} (h : Only P r s) (sub : [.regs] ⊆ P := by decide) :
    Only P r (s.writeField pg off val d).1 :=
  h.step sub fun _ h => by
    unfold State.writeField
    extract_lets a v put
    split
    · exact h.res
    · exact h.res
    · exact h.res
    · exact .iteFst h.setReg.res h.res
    · exact .iteFst h.res (.iteFst h.setReg.res h.res)
    · exact h.setReg.res
    · exact .iteFst h.setReg.setRegBit.res h.res
    · exact .iteFst h.setReg.setRegBit.res h.res

theorem writeFields {pg off : Nat} {val : Word} {x : List FieldDesc} (h : Only P r s) (sub : [.regs] ⊆ P := by decide) :
    Only P r (s.writeFields pg off val x).1 :=
  h.step sub fun _ h => by
    clear * - h
    induction x generalizing s pg off val with
    | nil => exact h.res
    | cons d ds ih =>
      unfold State.writeFields
      split
      next s1 r1 heq =>
      have h2 : Only _ _ s1 := .fst heq h.writeField
      split
      next s2 r2 heq =>
      have h3 : Only _ _ s2 := .fst heq (ih h2)
      exact h3.res

theorem plainWrite {i : Iface} {pg off : Nat} {val : Word} (h : Only P r s) (sub : [.out, .regs, .bus, .ras, .sram, .cl] ⊆ P := by decide) :
    Only P r (s.plainWrite i pg off val).1 :=
  h.step sub fun _ h => (Only.ite h.writeFields.reservedWrite h.writeFields).res

theorem touch {i : Iface} (h : Only P r s) (sub : [.rind] ⊆ P := by decide) : Only P r (s.touch i) :=
  h.step sub fun _ h => by
    unfold State.touch
    split
    · exact h
    · exact .ite h.setSess h

theorem busWrite {rq : Req} {addr : Nat} {val : Word} {body : State → State × Nat} (h : Only P r s)
    (hb : ∀ t, Only P r t → Only P r (body t).1) (sub : [.out, .tb, .regs, .bus, .ras, .rind, .sram, .cl, .nv, .trace] ⊆ P := by decide) :
    Only P r (s.busWrite rq addr val body) := by
  unfold State.busWrite
  extract_lets s0 pg off old role
  have hs0 : Only P r s0 := h.step sub fun _ h => h.advance.flushNotes.touch
  have refused : ∀ {c}, Only P r (s0.pageError pg off (ifaceCode rq.iface) c val) := hs0.step sub fun _ h => h.pageError
  split
  · exact hs0
  refine .ite refused (.ite refused (.ite hs0 ?_))
  split
  next s1 res heq =>
  have h1 : Only P r s1 := .fst heq (hb s0 hs0)
  exact .ite (h1.step sub fun _ h => h.audit) h1

end Only
end Sys2Proof.Machine
end

/-! ### What the operations of calibration may change (`Machine/Calib.lean`) -/

section
open Sys2Proof
namespace Sys2Proof.Machine
namespace Only
set_option Elab.async false
variable {P Q : List Piece} {r s t : State}

theorem calPut {qty i : Nat} {e : CalEntry} (h : Only P r s) (sub : [.cal] ⊆ P := by decide) : Only P r (s.calPut qty i e) :=
  h.step sub fun _ h => h.withCal

theorem settleDvfs (h : Only P r s) (sub : [.cal] ⊆ P := by decide) : Only P r s.settleDvfs :=
  h.step sub fun _ h => by
    unfold State.settleDvfs
    refine h.res.foldlFst fun _ _ h1 => ?_
    extract_lets x y
    exact h1.calPut.res

theorem showClamp {qty : Nat} (h : Only P r s) (sub : [.regs] ⊆ P := by decide) : Only P r (s.showClamp qty) :=
  h.step sub fun _ h => h.setRegBit

theorem calApply {qty i : Nat} (h : Only P r s) (sub : [.regs, .cal] ⊆ P := by decide) : Only P r (s.calApply qty i) :=
  h.step sub fun _ h => (Only.ite h.calPut.settleDvfs h.calPut.calPut).showClamp

theorem calTick (h : Only P r s) (sub : [.regs, .cal] ⊆ P := by decide) : Only P r s.calTick :=
  h.step sub fun _ h => h.foldl fun _ _ h1 => h1.foldl fun _ _ h2 => .ite h2 h2.calApply

theorem calLanes {first n : Nat} (h : Only P r s) (sub : [.regs, .cal] ⊆ P := by decide) : Only P r (s.calLanes first n) :=
  h.step sub fun _ h => h.foldl fun _ _ h1 => h1.foldl fun _ _ h2 => h2.calApply

theorem calDeskew {c : Nat} (h : Only P r s) (sub : [.regs, .cal] ⊆ P := by decide) : Only P r (s.calDeskew c) :=
  h.step sub fun _ h => h.foldl fun _ _ h1 => h1.calApply

theorem writeCalIdx {i : Iface} {val : Word} (h : Only P r s) (sub : [.out, .regs, .bus, .ras, .calSel, .sram, .cl] ⊆ P := by decide) :
    Only P r (s.writeCalIdx i val).1 :=
  h.step sub fun _ h => by
    unfold State.writeCalIdx
    extract_lets q k
    exact .iteFst h.withCalSel.res h.reservedWrite.res

theorem writeCalUser {i : Iface} {val : Word} (h : Only P r s) (sub : [.out, .regs, .bus, .ras, .cal, .sram, .cl] ⊆ P := by decide) :
    Only P r (s.writeCalUser i val).1 :=
  h.step sub fun _ h => by
    unfold State.writeCalUser
    extract_lets k src
    exact .iteFst h.reservedWrite.res h.withCal.res

theorem calClear (h : Only P r s) (sub : [.cal] ⊆ P := by decide) : Only P r s.calClear := h.step sub fun _ h => h.withCal

theorem calRestore (h : Only P r s) (sub : [.cal] ⊆ P := by decide) : Only P r s.calRestore :=
  h.step sub fun _ h => by
    unfold State.calRestore
    extract_lets s0
    split
    · exact h.withCal
    · exact h.withCal.foldl fun _ _ h1 => .ite h1.calPut h1

theorem calFactory (h : Only P r s) (sub : [.regs, .cal] ⊆ P := by decide) : Only P r s.calFactory :=
  h.step sub fun _ h => by
    unfold State.calFactory
    extract_lets ok base s1
    have hbase : Only _ _ base := h.foldl fun _ _ h1 => .ite h1 (h1.foldl fun _ _ h2 => h2.calPut)
    have hs1 : Only _ _ s1 := .ite (hbase.foldl fun _ _ h3 => .ite h3.calPut h3) hbase
    exact hs1.setRegBit

theorem calBoot (h : Only P r s) (sub : [.regs, .cal] ⊆ P := by decide) : Only P r s.calBoot :=
  h.step sub fun _ h => h.calFactory.calRestore.withCal.settleDvfs.foldl fun _ _ h1 => .ite h1 h1.showClamp

end Only
end Sys2Proof.Machine
end

/-! ### What the operations of the mesh may change (`Machine/Mesh.lean`) -/

section
open Sys2Proof
namespace Sys2Proof.Machine
namespace Only
set_option Elab.async false
variable {P Q : List Piece} {r s t : State}

theorem deliverLocal {pos : Nat} {p : MeshPacket} (h : Only P r s) (sub : [.grid] ⊆ P := by decide) : Only P r (s.deliverLocal pos p) :=
  h.step sub fun _ h => by
    unfold State.deliverLocal
    split
    · exact h.withGrid
    · exact .ite h.setRouter h

theorem leave {pos port : Nat} {p : MeshPacket} (h : Only P r s) (sub : [.grid] ⊆ P := by decide) : Only P r (s.leave pos port p) :=
  h.step sub fun _ h => by
    unfold State.leave
    refine .ite h.deliverLocal ?_
    split
    · exact h
    · exact h.setRouter.withGrid

theorem sendOut {pos port : Nat} {p : MeshPacket} (h : Only P r s) (sub : [.grid] ⊆ P := by decide) : Only P r (s.sendOut pos port p) :=
  h.step sub fun _ h => .ite h.leave h.setRouter

theorem orphan {pos port : Nat} {p : MeshPacket} (h : Only P r s)
    (sub : [.out, .regs, .bus, .ras, .grid, .work, .sram, .cl] ⊆ P := by decide) : Only P r (s.orphan pos port p) :=
  h.step sub fun _ h => .ite h.event.pageError.faultRegion h.sendOut

theorem redDup {pos port : Nat} {p : MeshPacket} (h : Only P r s) (sub : [.out, .regs, .bus, .ras, .work, .sram, .cl] ⊆ P := by decide) :
    Only P r (s.redDup pos port p) :=
  h.step sub fun _ h => h.event.pageError.faultRegion

theorem reduceArrive {pos port : Nat} {p : MeshPacket} (h : Only P r s)
    (sub : [.out, .regs, .bus, .ras, .grid, .work, .sram, .cl] ⊆ P := by decide) : Only P r (s.reduceArrive pos port p) :=
  h.step sub fun _ h => by
    unfold State.reduceArrive
    extract_lets r key
    split
    · exact h.orphan
    · refine .ite h.orphan ?_
      split
      · exact .ite h.redDup (.ite h.redDup h.setRouter)
      · exact .ite h.setRouter h.setRouter

theorem correctAt {pos : Nat} {p : MeshPacket} {off : Nat → Nat} (h : Only P r s)
    (sub : [.out, .regs, .bus, .ras, .grid, .sram, .cl, .trace] ⊆ P := by decide) : Only P r (s.correctAt pos p off) :=
  h.step sub fun _ h => h.foldl fun _ _ h1 => h1.spCe

theorem hcrcFail {pos port : Nat} {p : MeshPacket} {got : Nat} (h : Only P r s)
    (sub : [.out, .regs, .bus, .ras, .grid, .work, .sram, .cl, .trace] ⊆ P := by decide) : Only P r (s.hcrcFail pos port p got) :=
  h.step sub fun _ h => h.pageError.rasReport.strike.faultRegion

theorem execMeshPacketArrive {pos port : Nat} {pkt : MeshPacket} {up : LinkUpset} (h : Only P r s)
    (sub : [.out, .regs, .bus, .ras, .grid, .work, .sram, .cl, .trace] ⊆ P := by decide) :
    Answers P r (execMeshPacketArrive pos port pkt up s) :=
  h.answer sub fun _ h => by
    unfold Machine.execMeshPacketArrive
    refine h.onGrid ?_
    extract_lets src s0 src' src'' p r
    refine .ite h.passOver ?_
    refine .ite h.withGrid.hcrcFail.next ?_
    refine .ite ?_ (.ite ((Only.ite h.withGrid.orphan h.withGrid.reduceArrive).next) h.withGrid.sendOut.next)
    split
    · exact h.withGrid.event.pageError.faultRegion.next
    · exact h.withGrid.setRouter.next

theorem execMcForward {pos : Nat} (h : Only P r s) (sub : [.grid] ⊆ P := by decide) : Answers P r (execMcForward pos s) :=
  h.answer sub fun _ h => by
    unfold Machine.execMcForward
    refine h.onGrid ?_
    extract_lets r
    split
    · exact h.passOver
    · split
      · exact h.passOver
      · extract_lets ports
        exact .ite ((h.setRouter.foldl fun _ _ h1 => h1.sendOut).next) h.next

theorem mergeAll {op : Nat} {acc : MeshPacket} {x : List MeshPacket} (h : Only P r s) (sub : [.free] ⊆ P := by decide) :
    Only P r (s.mergeAll op acc x).1 :=
  h.step sub fun _ h => by
    clear * - h
    induction x generalizing s op acc with
    | nil => exact h.res
    | cons p ps ih =>
      unfold State.mergeAll
      exact .iteFst (ih h.takeFree.takeFree) (ih h)

theorem reductionResult {pos : Nat} {p : MeshPacket} (h : Only P r s) (sub : [.grid, .work] ⊆ P := by decide) :
    Only P r (s.reductionResult pos p) :=
  h.step sub fun _ h => by
    unfold State.reductionResult
    extract_lets region fl
    split
    · exact h.deliverLocal
    · extract_lets n c s1
      split
      · exact h.setCtx.deliverLocal
      · exact .ite h.setCtx.deliverLocal h.setCtx.deliverLocal.faultSection

theorem mergeSet {op pos key w1 : Nat} {e : RedPend} {first : MeshPacket} {rest : List MeshPacket} (h : Only P r s)
    (sub : [.free, .out, .regs, .bus, .ras, .grid, .work, .sram, .cl] ⊆ P := by decide) :
    Only P r (s.mergeSet op pos key w1 e first rest) :=
  h.step sub fun _ h => by
    unfold State.mergeSet
    split
    next s1 p heq =>
    have h2 : Only _ _ s1 := .fst heq h.mergeAll
    extract_lets r1 held s2 s3
    have hs3 : Only _ _ s3 := .ite h2.setRouter.reductionResult h2.setRouter.sendOut
    exact hs3.foldl fun _ _ h3 => h3.reduceArrive

theorem mergeAt {op pos region tag seq : Nat} (h : Only P r s)
    (sub : [.free, .out, .regs, .bus, .ras, .grid, .work, .sram, .cl] ⊆ P := by decide) : Answers P r (s.mergeAt op pos region tag seq) :=
  h.answer sub fun _ h => by
    unfold State.mergeAt
    extract_lets r key
    split
    · extract_lets ports operands
      clear_value operands
      split
      · exact .ite h.passOver h.mergeSet.next
      · exact h.passOver
    · exact h.passOver

theorem execRedMergeAddI32 {pos region tag seq : Nat} (h : Only P r s)
    (sub : [.free, .out, .regs, .bus, .ras, .grid, .work, .sram, .cl] ⊆ P := by decide) :
    Answers P r (execRedMergeAddI32 pos region tag seq s) :=
  h.answer sub fun _ h => h.onGrid h.mergeAt

theorem execRedMergeAddF32 {pos region tag seq : Nat} (h : Only P r s)
    (sub : [.free, .out, .regs, .bus, .ras, .grid, .work, .sram, .cl] ⊆ P := by decide) :
    Answers P r (execRedMergeAddF32 pos region tag seq s) :=
  h.answer sub fun _ h => h.onGrid h.mergeAt

theorem execRedMergeMaxF32 {pos region tag seq : Nat} (h : Only P r s)
    (sub : [.free, .out, .regs, .bus, .ras, .grid, .work, .sram, .cl] ⊆ P := by decide) :
    Answers P r (execRedMergeMaxF32 pos region tag seq s) :=
  h.answer sub fun _ h => h.onGrid h.mergeAt

theorem execRedMergeLse {pos region tag seq : Nat} (h : Only P r s)
    (sub : [.free, .out, .regs, .bus, .ras, .grid, .work, .sram, .cl] ⊆ P := by decide) :
    Answers P r (execRedMergeLse pos region tag seq s) :=
  h.answer sub fun _ h => h.onGrid h.mergeAt

theorem grantPort {pos port x : Nat} (h : Only P r s) (sub : [.grid] ⊆ P := by decide) : Only P r (s.grantPort pos port x) :=
  h.step sub fun _ h => by
    clear * - h
    induction x generalizing s pos port with
    | zero => exact h
    | succ n ih =>
      unfold State.grantPort
      extract_lets r
      split
      · exact h
      · exact ih h.setRouter.sendOut

theorem freedLocal {pos : Nat} (h : Only P r s) (sub : [.grid] ⊆ P := by decide) : Only P r (s.freedLocal pos) :=
  h.step sub fun _ h => h.grantPort

theorem takeLocal {pos : Nat} {p : MeshPacket} (h : Only P r s) (sub : [.grid] ⊆ P := by decide) : Only P r (s.takeLocal pos p) :=
  h.step sub fun _ h => h.setRouter.freedLocal

theorem execLinkCreditReturn {pos port vn n : Nat} (h : Only P r s)
    (sub : [.out, .regs, .bus, .ras, .grid, .sram, .cl, .trace] ⊆ P := by decide) : Answers P r (execLinkCreditReturn pos port vn n s) :=
  h.answer sub fun _ h => by
    unfold Machine.execLinkCreditReturn
    refine h.onGrid ?_
    extract_lets r
    exact .ite h.event.pageError.rasReport.strike.next h.setRouter.grantPort.next

theorem execVn0AgePromote {pos : Nat} (h : Only P r s) (sub : [.grid] ⊆ P := by decide) : Answers P r (execVn0AgePromote pos s) :=
  h.answer sub fun _ h => by
    unfold Machine.execVn0AgePromote
    refine h.onGrid ?_
    extract_lets r
    split
    · exact h.passOver
    · exact h.setRouter.next

end Only
end Sys2Proof.Machine
end

/-! ### What the operations of the engines of a cell may change (`Machine/Engine.lean`) -/

section
open Sys2Proof
namespace Sys2Proof.Machine
namespace Only
set_option Elab.async false
variable {P Q : List Piece} {r s t : State}

theorem enter {pos : Nat} {port : Option Nat} {p : MeshPacket} (h : Only P r s) (sub : [.grid] ⊆ P := by decide) :
    Only P r (s.enter pos port p) :=
  h.step sub fun _ h => by
    unfold State.enter
    refine .ite h.withGrid ?_
    split
    · exact h.withGrid
    · exact h.sendOut

theorem inject {pos : Nat} {p : MeshPacket} (h : Only P r s) (sub : [.grid, .work] ⊆ P := by decide) : Only P r (s.inject pos p) :=
  h.step sub fun _ h => .ite h.faultRegion h.enter

theorem releaseHeldInj (h : Only P r s) (sub : [.grid] ⊆ P := by decide) : Only P r s.releaseHeldInj :=
  h.step sub fun _ h => h.withGrid.foldl fun _ _ h1 => h1.enter

theorem returnCredits {pos n i : Nat} (h : Only P r s) (sub : [.grid, .work] ⊆ P := by decide) : Only P r (s.returnCredits pos n i) :=
  h.step sub fun _ h => by
    unfold State.returnCredits
    extract_lets c
    split
    · exact h
    · split
      · exact h
      · exact .ite h h.setCtx.inject

theorem returnDue {pos n : Nat} (h : Only P r s) (sub : [.grid, .work] ⊆ P := by decide) : Only P r (s.returnDue pos n) :=
  h.step sub fun _ h => by
    unfold State.returnDue
    refine h.foldl fun _ _ h1 => ?_
    split
    · exact .ite h1.returnCredits h1
    · exact h1

theorem readDone {pos n off size : Nat} (h : Only P r s) (sub : [.grid, .work] ⊆ P := by decide) : Only P r (s.readDone pos n off size) :=
  h.step sub fun _ h => .ite h h.setCtx.returnDue

theorem wroteRange {pos n off size : Nat} (h : Only P r s) (sub : [.grid] ⊆ P := by decide) : Only P r (s.wroteRange pos n off size) :=
  h.step sub fun _ h => .ite h h.setCtx

theorem finishStreams {pos n : Nat} (h : Only P r s) (sub : [.grid] ⊆ P := by decide) : Only P r (s.finishStreams pos n) :=
  h.step sub fun _ h => .ite h h.onSlice.setCtx

theorem settleFin {pos n : Nat} (h : Only P r s) (sub : [.grid] ⊆ P := by decide) : Only P r (s.settleFin pos n) :=
  h.step sub fun _ h => .ite h.finishStreams h

theorem engRead_got {pos n addr size : Nat} {v : List Byte × List Nat} (h : Only P r s) (e : s.engRead pos n addr size = .got t v)
    (sub : [.out, .regs, .bus, .ras, .grid, .work, .sram, .cl, .trace] ⊆ P := by decide) : Only P r t := by
  refine h.step sub fun _ h => ?_
  dsimp only [State.engRead] at e
  split at e
  · cases e
  · cases e
  · split at e
    · cases e
    · cases e
      exact h.spRead.readDone
  split at e
  · cases e
  split at e
  · cases e
  · cases e
    exact h.spRead

theorem engRead_ended {pos n addr size : Nat} (h : Only P r s) (e : s.engRead pos n addr size = .ended t)
    (sub : [.out, .regs, .bus, .ras, .grid, .work, .sram, .cl, .trace] ⊆ P := by decide) : Only P r t := by
  refine h.step sub fun _ h => ?_
  dsimp only [State.engRead] at e
  split at e
  · cases e
    exact h.issuerFormat
  · cases e
    exact h.issuerBound
  · split at e <;> cases e
  split at e
  · cases e
    exact h.boundFault.faultRunAt
  split at e
  · cases e
    exact h.boundFault.faultRunAt
  · cases e

theorem engWrite_got {pos n addr : Nat} {bs : List Byte} {poison : List Nat} {v : Unit} (h : Only P r s)
    (e : s.engWrite pos n addr bs poison = .got t v) (sub : [.out, .regs, .bus, .ras, .grid, .work, .sram, .cl, .trace] ⊆ P := by decide) :
    Only P r t := by
  refine h.step sub fun _ h => ?_
  dsimp only [State.engWrite] at e
  split at e
  · cases e
  · cases e
  · split at e
    · cases e
    · cases e
      exact h.spWrite.wroteRange
  split at e
  · cases e
  split at e
  · cases e
  · cases e
    exact h.spWrite

theorem engWrite_ended {pos n addr : Nat} {bs : List Byte} {poison : List Nat} (h : Only P r s)
    (e : s.engWrite pos n addr bs poison = .ended t) (sub : [.out, .regs, .bus, .ras, .grid, .work, .sram, .cl, .trace] ⊆ P := by decide) :
    Only P r t := by
  refine h.step sub fun _ h => ?_
  dsimp only [State.engWrite] at e
  split at e
  · cases e
    exact h.issuerFormat
  · cases e
    exact h.issuerBound
  · split at e <;> cases e
  split at e
  · cases e
    exact h.boundFault.faultRunAt
  split at e
  · cases e
    exact h.boundFault.faultRunAt
  · cases e

theorem mxRetire {pos n : Nat} {op : OpFields} (h : Only P r s) (sub : [.grid] ⊆ P := by decide) : Only P r (s.mxRetire pos n op) :=
  h.step sub fun _ h => h.setCell

theorem vxRetire {pos n : Nat} {op : OpFields} (h : Only P r s) (sub : [.grid] ⊆ P := by decide) : Only P r (s.vxRetire pos n op) :=
  h.step sub fun _ h => h.setCell

theorem mxWait {pos n : Nat} {op : OpFields} (h : Only P r s) (sub : [.grid] ⊆ P := by decide) : Only P r (s.mxWait pos n op) :=
  h.step sub fun _ h => .ite h h.setCell

theorem vxWait {pos n : Nat} {op : OpFields} (h : Only P r s) (sub : [.grid] ⊆ P := by decide) : Only P r (s.vxWait pos n op) :=
  h.step sub fun _ h => .ite h h.setCell

end Only
end Sys2Proof.Machine
end

/-! ### What the operations of remote writes may change (`Machine/Remote.lean`) -/

section
open Sys2Proof
namespace Sys2Proof.Machine
namespace Only
set_option Elab.async false
variable {P Q : List Piece} {r s t : State}

theorem execSpAccessGrant {pos n : Nat} {write : Bool} {addr size : Nat} {data : List Byte} {poison : List Nat} {hits : List Upset}
    (h : Only P r s) (sub : [.out, .regs, .bus, .ras, .grid, .work, .sram, .cl, .trace] ⊆ P := by decide) :
    Answers P r (execSpAccessGrant pos n write addr size data poison hits s) :=
  h.answer sub fun _ h => by
    unfold Machine.execSpAccessGrant
    refine h.onGrid ?_
    extract_lets s0 c bs
    split
    · exact h.strikeSlice.issuerFormat.next
    · exact h.strikeSlice.issuerBound.next
    · extract_lets dst
      exact h.strikeSlice.inject.next
    · exact .ite h.strikeSlice.spWrite.next h.strikeSlice.spRead.setCell.next

theorem respond {r' : Remote} {bs : List Byte} {ps : List Nat} {err : Bool} (h : Only P r s) (sub : [.grid, .work] ⊆ P := by decide) :
    Only P r (s.respond r' bs ps err) :=
  h.step sub fun _ h => h.inject

theorem performRemote {r' : Remote} {data : List Byte} {poison : List Nat} (h : Only P r s)
    (sub : [.out, .regs, .bus, .ras, .grid, .work, .sram, .cl, .trace] ⊆ P := by decide) : Only P r (s.performRemote r' data poison) :=
  h.step sub fun _ h => by
    unfold State.performRemote
    split
    · exact h.boundFault.respond
    · exact .ite h.boundFault.respond (.ite h.spWrite h.spRead.respond)

theorem execRemoteAccessArrive {pos src region : Nat} {write : Bool} {off size : Nat} {data : List Byte} {poison : List Nat}
    {hits : List Upset} (h : Only P r s) (sub : [.out, .regs, .bus, .ras, .grid, .work, .sram, .cl, .trace] ⊆ P := by decide) :
    Answers P r (execRemoteAccessArrive pos src region write off size data poison hits s) :=
  h.answer sub fun _ h => by
    unfold Machine.execRemoteAccessArrive
    refine h.onGrid ?_
    split
    · exact h.passOver
    · exact .ite h.passOver h.takeLocal.strikeSlice.correctAt.performRemote.next

theorem execRemoteReadResponse {pos n : Nat} {data : List Byte} {poison : List Nat} {err : Bool} (h : Only P r s)
    (sub : [.out, .regs, .bus, .ras, .grid, .work, .sram, .cl, .trace] ⊆ P := by decide) :
    Answers P r (execRemoteReadResponse pos n data poison err s) :=
  h.answer sub fun _ h => by
    unfold Machine.execRemoteReadResponse
    refine h.onGrid ?_
    split
    · exact h.passOver
    · extract_lets s1 s2 src
      exact .ite h.passOver (.ite h.takeLocal.faultRunAt.next h.takeLocal.correctAt.setCell.next)

end Only
end Sys2Proof.Machine
end

/-! ### What the operations of the sequencer may change (`Machine/Sequencer.lean`) -/

section
open Sys2Proof
namespace Sys2Proof.Machine
namespace Only
set_option Elab.async false
variable {P Q : List Piece} {r s t : State}

theorem emitToken {pos n k v : Nat} {poison : Bool} (h : Only P r s)
    (sub : [.regs, .bus, .ras, .grid, .work, .sram, .cl] ⊆ P := by decide) : Only P r (s.emitToken pos n k v poison) :=
  h.step sub fun _ h => by
    unfold State.emitToken
    split
    · exact h.bump
    · exact .ite h.withGrid h.inject

theorem fire {pos n : Nat} {t' : Trigger} (h : Only P r s) (sub : [.regs, .bus, .ras, .grid, .work, .sram, .cl] ⊆ P := by decide) :
    Only P r (s.fire pos n t') :=
  h.step sub fun _ h => by
    unfold State.fire
    extract_lets c tok eaten poisoned c1 k0 op
    split
    · extract_lets k2 c2 s1 s2 s4 s5
      have hs2 : Only _ _ s2 := .ite h.setCtx.emitToken h.setCtx
      have hs4 : Only _ _ s4 := .ite hs2.poisonRunAt hs2
      refine .via (x := s5) ?_ fun hs5 => ?_
      · unfold s5
        split
        · exact hs4
        · exact hs4.mxWait
        · exact hs4.vxWait
      · split
        · exact hs5
        · exact hs5.onRuns

theorem execTriggerFire {pos : Nat} (h : Only P r s) (sub : [.regs, .bus, .ras, .grid, .work, .sram, .cl] ⊆ P := by decide) :
    Answers P r (execTriggerFire pos s) :=
  h.answer sub fun _ h => by
    unfold Machine.execTriggerFire
    refine h.onGrid ?_
    split
    · exact h.passOver
    · exact h.fire.next

theorem execNop {pos : Nat} (h : Only P r s) (sub : [.regs, .bus, .ras, .grid, .work, .sram, .cl] ⊆ P := by decide) :
    Answers P r (execNop pos s) :=
  h.answer sub fun _ h => by
    unfold Machine.execNop
    refine h.onGrid ?_
    split
    · exact h.passOver
    · exact .ite h.fire.next h.passOver

theorem protoError {pos region stream seq : Nat} (h : Only P r s) (sub : [.out, .regs, .bus, .ras, .sram, .cl, .trace] ⊆ P := by decide) :
    Only P r (s.protoError pos region stream seq) :=
  h.step sub fun _ h => h.event.pageError.rasReport

theorem takeToken {pos n ti : Nat} {k : Token} (h : Only P r s) (e : s.takeToken pos n ti = some (t, k))
    (sub : [.out, .regs, .bus, .ras, .grid, .sram, .cl, .trace] ⊆ P := by decide) : Only P r t := by
  refine h.step sub fun _ h => ?_
  unfold State.takeToken at e
  split at e
  · cases e
    exact h.withGrid
  split at e
  · cases e
    exact h.takeLocal.correctAt
  · cases e

theorem receiveToken {pos n ti : Nat} {tok : Token} (h : Only P r s)
    (sub : [.out, .regs, .bus, .ras, .grid, .work, .sram, .cl, .trace] ⊆ P := by decide) : Only P r (s.receiveToken pos n ti tok) :=
  h.step sub fun _ h => .ite h.bump (.ite h.protoError.faultRunAt h.setCtx)

theorem execTokenArrive {pos n ti v : Nat} {poison : Bool} (h : Only P r s)
    (sub : [.out, .regs, .bus, .ras, .grid, .work, .sram, .cl, .trace] ⊆ P := by decide) :
    Answers P r (execTokenArrive pos n ti v poison s) :=
  h.answer sub fun _ h => by
    unfold Machine.execTokenArrive
    refine h.onGrid ?_
    split
    next t tok heq =>
      have h1 : Only _ _ t := h.takeToken heq
      exact .ite h1.receiveToken.next h.passOver
    · exact h.passOver

end Only
end Sys2Proof.Machine
end

/-! ### What the operations of the matrix engine may change (`Machine/Matrix.lean`) -/

section
open Sys2Proof
namespace Sys2Proof.Machine
namespace Only
set_option Elab.async false
variable {P Q : List Piece} {r s t : State}

theorem setMatrix {pos : Nat} {m : Matrix} (h : Only P r s) (sub : [.grid] ⊆ P := by decide) : Only P r (s.setMatrix pos m) :=
  h.step sub fun _ h => h.setCell

theorem mxFlag {pos n fl : Nat} (h : Only P r s) (sub : [.grid] ⊆ P := by decide) : Only P r (s.mxFlag pos n fl) :=
  h.step sub fun _ h => h.setCtx

theorem vxFlag {pos n fl : Nat} (h : Only P r s) (sub : [.grid] ⊆ P := by decide) : Only P r (s.vxFlag pos n fl) :=
  h.step sub fun _ h => h.setCtx

theorem execMxLoadw {pos n : Nat} {op : OpFields} {u' : EngineUpset} (h : Only P r s)
    (sub : [.out, .regs, .bus, .ras, .grid, .work, .sram, .cl, .trace] ⊆ P := by decide) : Answers P r (execMxLoadw pos n op u' s) :=
  h.answer sub fun _ h => by
    unfold Machine.execMxLoadw
    refine h.onGrid ?_
    extract_lets s0 m f
    refine .ite h.strikeSlice.mxWait.next ?_
    refine .ite h.strikeSlice.issuerFormat.mxRetire.next ?_
    split
    · exact h.strikeSlice.mxWait.next
    next t heq =>
      have h1 : Only _ _ t := h.strikeSlice.engRead_ended heq
      exact h1.mxRetire.next
    next t bs ps heq =>
      have h2 : Only _ _ t := h.strikeSlice.engRead_got heq
      extract_lets src t1
      exact ((Only.ite h2.setMatrix h2.setMatrix.poisonRunAt).mxRetire).next

theorem execMxSwap {pos n : Nat} {op : OpFields} {u' : EngineUpset} (h : Only P r s) (sub : [.grid] ⊆ P := by decide) :
    Answers P r (execMxSwap pos n op u' s) :=
  h.answer sub fun _ h => by
    unfold Machine.execMxSwap
    refine h.onGrid ?_
    extract_lets s0 m
    exact .ite h.strikeSlice.setMatrix.mxRetire.next h.strikeSlice.mxWait.next

theorem macCheck {pos n : Nat} {bank : Bool} {row : Nat} (h : Only P r s)
    (sub : [.out, .regs, .bus, .ras, .grid, .work, .sram, .cl, .trace] ⊆ P := by decide) : Only P r (s.macCheck pos n bank row) :=
  h.step sub fun _ h => h.event.mxFlag.bump.rasReport.pageError.faultRunAt.makeFaulty

theorem macRun {pos n : Nat} {op : OpFields} {wrong : List (Nat × Nat × Int)} {bs : List Byte} {ps : List Nat} (h : Only P r s)
    (sub : [.out, .regs, .bus, .ras, .grid, .work, .sram, .cl, .trace] ⊆ P := by decide) : Only P r (s.macRun pos n op wrong bs ps) :=
  h.step sub fun _ h => by
    unfold State.macRun
    extract_lets c f m r t1 t2 t3
    have ht2 : Only _ _ t2 := .ite h.setMatrix.mxFlag h.setMatrix
    have ht3 : Only _ _ t3 := .ite ht2.poisonRunAt ht2
    exact ht3.foldl fun _ _ h1 => h1.macCheck

theorem execMxMac {pos n : Nat} {op : OpFields} {u' : EngineUpset} (h : Only P r s)
    (sub : [.out, .regs, .bus, .ras, .grid, .work, .sram, .cl, .trace] ⊆ P := by decide) : Answers P r (execMxMac pos n op u' s) :=
  h.answer sub fun _ h => by
    unfold Machine.execMxMac
    refine h.onGrid ?_
    extract_lets s0 f
    refine .ite h.strikeSlice.mxWait.next ?_
    refine .ite h.strikeSlice.issuerFormat.mxRetire.next ?_
    split
    · exact h.strikeSlice.mxWait.next
    next t heq =>
      have h1 : Only _ _ t := h.strikeSlice.engRead_ended heq
      exact h1.mxRetire.next
    next t bs ps heq =>
      have h2 : Only _ _ t := h.strikeSlice.engRead_got heq
      exact h2.macRun.mxRetire.next

theorem accUe {pos n : Nat} (h : Only P r s) (sub : [.out, .regs, .bus, .ras, .grid, .sram, .cl, .trace] ⊆ P := by decide) :
    Only P r (s.accUe pos n) :=
  h.step sub fun _ h => h.event.rasReport.makeFaulty

theorem bankRead {pos n : Nat} {b : Bool} {bad idx : List Nat} (h : Only P r s)
    (sub : [.out, .regs, .bus, .ras, .grid, .sram, .cl, .trace] ⊆ P := by decide) : Only P r (s.bankRead pos n b bad idx) :=
  h.step sub fun _ h => .ite h (h.setMatrix.foldl fun _ _ h1 => h1.accUe)

theorem readKept {pos n : Nat} {op : OpFields} {step : List (Slot × Nat)} (h : Only P r s) (sub : [.grid] ⊆ P := by decide) :
    Only P r (s.readKept pos n op step) :=
  h.step sub fun _ h => by
    unfold State.readKept
    extract_lets m s2
    have hs2 : Only _ _ s2 := .ite h.setMatrix h
    exact hs2.mxFlag

theorem emitBank {pos n : Nat} {op : OpFields} (h : Only P r s) (sub : [.grid] ⊆ P := by decide) : Only P r (s.emitBank pos n op) :=
  h.step sub fun _ h => h.readKept.mxFlag.vxFlag.setCtx

theorem execMxRead {pos n : Nat} {op : OpFields} {u' : EngineUpset} (h : Only P r s)
    (sub : [.out, .regs, .bus, .ras, .grid, .sram, .cl, .trace] ⊆ P := by decide) : Answers P r (execMxRead pos n op u' s) :=
  h.answer sub fun _ h => by
    unfold Machine.execMxRead
    refine h.onGrid ?_
    extract_lets s0 c s1 s5
    refine .ite h.strikeSlice.mxWait.next ?_
    refine .ite h.strikeSlice.bankRead.readKept.mxRetire.next ?_
    exact (Only.ite h.strikeSlice.bankRead.emitBank.mxRetire h.strikeSlice.bankRead.emitBank.mxWait).next

end Only
end Sys2Proof.Machine
end

/-! ### What the operations of lanes may change (`Machine/Lanes.lean`) -/

section
open Sys2Proof
namespace Sys2Proof.Machine
namespace Only
set_option Elab.async false
variable {P Q : List Piece} {r s t : State}

theorem tregUe {pos n r' i : Nat} (h : Only P r s) (sub : [.out, .regs, .bus, .ras, .grid, .sram, .cl, .trace] ⊆ P := by decide) :
    Only P r (s.tregUe pos n r' i) :=
  h.step sub fun _ h => h.event.rasReport.pageError.makeFaulty

theorem tileRead {pos n r' : Nat} {bad idx : List Nat} (h : Only P r s)
    (sub : [.out, .regs, .bus, .ras, .grid, .sram, .cl, .trace] ⊆ P := by decide) : Only P r (s.tileRead pos n r' bad idx) :=
  h.step sub fun _ h => .ite h (h.setCtx.foldl fun _ _ h1 => h1.tregUe)

theorem tileWrite {pos n : Nat} {op : OpFields} {idx : List Nat} {res : Nat → Slot} (h : Only P r s) (sub : [.grid] ⊆ P := by decide) :
    Only P r (s.tileWrite pos n op idx res) :=
  h.step sub fun _ h => h.setCtx

end Only
end Sys2Proof.Machine
end

/-! ### What the operations of sections may change (`Machine/Sections.lean`) -/

section
open Sys2Proof
namespace Sys2Proof.Machine
namespace Only
set_option Elab.async false
variable {P Q : List Piece} {r s t : State}

theorem onRegion {orgX orgY w h' n : Nat} {f : Ctx → Ctx} (h : Only P r s) (sub : [.grid] ⊆ P := by decide) :
    Only P r (s.onRegion orgX orgY w h' n f) :=
  h.step sub fun _ h => h.foldl fun _ _ h1 => h1.setCtx

theorem onSect {t' : Sect} {f : Ctx → Ctx} (h : Only P r s) (sub : [.grid] ⊆ P := by decide) : Only P r (s.onSect t' f) :=
  h.step sub fun _ h => h.onRegion

theorem regionEvent {orgX orgY w h' bit : Nat} (h : Only P r s) (sub : [.out, .regs, .bus, .ras, .sram, .cl] ⊆ P := by decide) :
    Only P r (s.regionEvent orgX orgY w h' bit) :=
  h.step sub fun _ h => h.foldl fun _ _ h1 => h1.event

theorem discardConts {sid code reason : Nat} (h : Only P r s) (sub : [.work] ⊆ P := by decide) :
    Only P r (s.discardConts sid code reason) :=
  h.step sub fun _ h => h.foldl fun _ _ h1 => h1.post

theorem clearFlows {l : List (Nat × Nat × Nat)} (h : Only P r s) (sub : [.grid] ⊆ P := by decide) : Only P r (s.clearFlows l) :=
  h.step sub fun _ h => h.foldl fun _ _ h1 => h1.setRouter

theorem dropFlowsTo {t' : Sect} (h : Only P r s) (sub : [.grid, .work] ⊆ P := by decide) : Only P r (s.dropFlowsTo t') :=
  h.step sub fun _ h => h.foldl fun _ _ h1 => .ite h1 h1.clearFlows.withWork

theorem clearTables {t' : Sect} (h : Only P r s) (sub : [.regs, .grid, .press, .ses, .tyz] ⊆ P := by decide) :
    Only P r (s.clearTables t') :=
  h.step sub fun _ h => by
    unfold State.clearTables
    extract_lets drop poss s1 s2 s3 bound s4 src
    have hs1 : Only _ _ s1 := h.foldl fun _ _ h1 => h1.setRouter
    have hs3 : Only _ _ s3 := hs1.clearFlows.foldl fun _ _ h2 => h2.setRouter
    have hs4 : Only _ _ s4 := hs3.foldl fun _ _ h3 => h3.setRegBit.setFld
    exact hs4.withPressSesTyz

theorem unbind {region : Nat} (h : Only P r s) (sub : [.grid, .work] ⊆ P := by decide) : Only P r (s.unbind region) :=
  h.step sub fun _ h => h.withGridWork

theorem unloadSect {t' : Sect} {reason : Nat} {emptyCtx : Bool} (h : Only P r s)
    (sub : [.regs, .grid, .work, .press, .ses, .tyz] ⊆ P := by decide) : Only P r (s.unloadSect t' reason emptyCtx) :=
  h.step sub fun _ h => by
    unfold State.unloadSect
    extract_lets s1 s2 src s3
    have hs2 : Only _ _ s2 := .ite h.discardConts.clearTables.dropFlowsTo.onSect h.discardConts.clearTables.dropFlowsTo
    exact hs2.withWork.unbind

theorem setLoad {l : Load} {f : Load → Load} (h : Only P r s) (sub : [.work] ⊆ P := by decide) : Only P r (s.setLoad l f) :=
  h.step sub fun _ h => h.withWork

theorem dropLoad {l : Load} (h : Only P r s) (sub : [.work] ⊆ P := by decide) : Only P r (s.dropLoad l) := h.step sub fun _ h => h.withWork

theorem loadPost {l : Load} {code reason detail : Nat} (h : Only P r s) (sub : [.work] ⊆ P := by decide) :
    Only P r (s.loadPost l code reason detail) :=
  h.step sub fun _ h => by
    unfold State.loadPost
    split
    · exact h.post
    · exact h

theorem beginLoad {desc : Option Nat} {p : Placement} {image : List Byte} (h : Only P r s) (sub : [.work] ⊆ P := by decide) :
    Only P r (s.beginLoad desc p image) :=
  h.step sub fun _ h => by
    unfold State.beginLoad
    extract_lets refuse w src sid l src' s1
    refine .ite ?_ ?_
    · unfold refuse
      split
      · exact h.post
      · exact h
    · refine .ite ?_ ?_
      · unfold refuse
        split
        · exact h.post
        · exact h
      · split
        · exact h.withWork.onDesc
        · exact h.withWork

theorem clearWay {l : Load} (h : Only P r s) (sub : [.regs, .grid, .work, .press, .ses, .tyz] ⊆ P := by decide) : Only P r (s.clearWay l) :=
  h.step sub fun _ h => h.foldl fun _ _ h1 => h1.unloadSect

theorem acceptLoad {l : Load} {reg : Nat} (h : Only P r s) (sub : [.grid, .work] ⊆ P := by decide) : Only P r (s.acceptLoad l reg) :=
  h.step sub fun _ h => by
    unfold State.acceptLoad
    exact h.setLoad.onRegion

theorem execLoadAccept {d : Nat} (h : Only P r s) (sub : [.regs, .grid, .work, .press, .ses, .tyz] ⊆ P := by decide) :
    Answers P r (execLoadAccept d s) :=
  h.answer sub fun _ h => by
    unfold Machine.execLoadAccept
    refine h.onClock ?_
    split
    · exact h.passOver
    · refine .ite h.passOver ?_
      refine .ite h.passOver ?_
      refine .ite h.passOver ?_
      split
      · exact h.clearWay.acceptLoad.next
      · exact h.passOver

theorem failLoad {l : Load} {e : Ending} (h : Only P r s) (sub : [.out, .regs, .bus, .ras, .grid, .work, .sram, .cl] ⊆ P := by decide) :
    Only P r (s.failLoad l e) :=
  h.step sub fun _ h => by
    unfold State.failLoad
    extract_lets p s1
    have hs1 : Only _ _ s1 := .ite h.onRegion.regionEvent h
    exact hs1.dropLoad.loadPost

theorem deliverImage {l : Load} {g : Image} (h : Only P r s) (sub : [.grid] ⊆ P := by decide) : Only P r (s.deliverImage l g) :=
  h.step sub fun _ h => by
    unfold State.deliverImage
    extract_lets p s1 s2
    have hs1 : Only _ _ s1 := h.foldl fun _ _ h1 => h1.setCtx
    have hs2 : Only _ _ s2 := hs1.foldl fun _ _ h2 => h2.setCtx
    exact hs2

theorem deliverData {l : Load} {g : Image} (h : Only P r s) (sub : [.out, .regs, .bus, .ras, .grid, .sram, .cl, .trace] ⊆ P := by decide) :
    Only P r (s.deliverData l g) :=
  h.step sub fun _ h => by
    unfold State.deliverData
    refine h.foldl fun _ _ h1 => ?_
    extract_lets pos
    split
    · exact h1.spWrite
    · exact h1

theorem verifyLoad {l : Load} (h : Only P r s) (sub : [.out, .regs, .bus, .ras, .grid, .work, .sram, .cl, .trace] ⊆ P := by decide) :
    Only P r (s.verifyLoad l) :=
  h.step sub fun _ h => by
    unfold State.verifyLoad
    split
    · exact .ite h.failLoad h.failLoad
    · exact .ite h.wakeGrid.deliverData.deliverImage.setLoad h.wakeGrid.deliverData.failLoad

theorem execImageVerifyComplete {d : Nat} {at_ : Dword} (h : Only P r s)
    (sub : [.out, .tb, .regs, .bus, .ras, .grid, .work, .sram, .cl, .trace] ⊆ P := by decide) :
    Answers P r (execImageVerifyComplete d at_ s) :=
  h.answer sub fun _ h => by
    unfold Machine.execImageVerifyComplete
    refine h.onClock ?_
    split
    · exact h.passOver
    · exact .ite h.passOver h.advance.verifyLoad.next

theorem execImageReadFail {d : Nat} {how : ReadEnd} {at_ : Dword} (h : Only P r s)
    (sub : [.out, .tb, .regs, .bus, .ras, .grid, .work, .sram, .cl] ⊆ P := by decide) : Answers P r (execImageReadFail d how at_ s) :=
  h.answer sub fun _ h => by
    unfold Machine.execImageReadFail
    refine h.onClock ?_
    split
    · exact h.passOver
    · exact .ite h.passOver h.advance.failLoad.next

end Only
end Sys2Proof.Machine
end

/-! ### What the operations of streams may change (`Machine/Streams.lean`) -/

section
open Sys2Proof
namespace Sys2Proof.Machine
namespace Only
set_option Elab.async false
variable {P Q : List Piece} {r s t : State}

theorem setEngine {k : Nat} {e : SEngine} (h : Only P r s) (sub : [.ses] ⊆ P := by decide) : Only P r (s.setEngine k e) :=
  h.step sub fun _ h => h.withSes

theorem onEnd {pos n i : Nat} {f : StreamEnd → StreamEnd} (h : Only P r s) (sub : [.grid] ⊆ P := by decide) :
    Only P r (s.onEnd pos n i f) :=
  h.step sub fun _ h => h.setCtx

theorem endError {pos n i seq : Nat} (h : Only P r s) (sub : [.out, .regs, .bus, .ras, .grid, .work, .sram, .cl, .trace] ⊆ P := by decide) :
    Only P r (s.endError pos n i seq) :=
  h.step sub fun _ h => by
    unfold State.endError
    extract_lets c
    split
    · exact h
    · extract_lets s1
      split
      · exact .ite h.protoError.onEnd.faultRegion h.protoError.onEnd.faultRegion.faultRegion
      · exact h.protoError.onEnd.faultRegion

theorem strayPacket {pos : Nat} {p : MeshPacket} (h : Only P r s)
    (sub : [.out, .regs, .bus, .ras, .work, .sram, .cl, .trace] ⊆ P := by decide) : Only P r (s.strayPacket pos p) :=
  h.step sub fun _ h => h.protoError.faultRegion

theorem putUnits {pos n i : Nat} {bs : List Byte} {ps : List Nat} {x : Nat} (h : Only P r s)
    (sub : [.out, .regs, .bus, .ras, .grid, .sram, .cl, .trace] ⊆ P := by decide) : Only P r (s.putUnits pos n i bs ps x) :=
  h.step sub fun _ h => by
    clear * - h
    induction x generalizing s pos n i bs ps with
    | zero => exact h
    | succ k ih =>
      unfold State.putUnits
      extract_lets c
      split
      · exact h
      · exact ih h.spWrite.onEnd

theorem cellData {pos : Nat} {p : MeshPacket} (h : Only P r s)
    (sub : [.out, .regs, .bus, .ras, .grid, .work, .sram, .cl, .trace] ⊆ P := by decide) : Only P r (s.cellData pos p) :=
  h.step sub fun _ h => by
    unfold State.cellData
    split
    · exact h.strayPacket
    · split
      · exact h.strayPacket
      · split
        · exact h
        · exact .ite h.endError h.correctAt.putUnits

theorem cellCredit {pos : Nat} {p : MeshPacket} (h : Only P r s)
    (sub : [.out, .regs, .bus, .ras, .grid, .work, .sram, .cl, .trace] ⊆ P := by decide) : Only P r (s.cellCredit pos p) :=
  h.step sub fun _ h => by
    unfold State.cellCredit
    split
    · exact h.strayPacket
    · split
      · exact h.strayPacket
      · split
        · exact h
        · exact .ite h.endError h.onEnd

theorem onSeEnd {k i : Nat} {f : SeEnd → SeEnd} (h : Only P r s) (sub : [.ses] ⊆ P := by decide) : Only P r (s.onSeEnd k i f) :=
  h.step sub fun _ h => h.setEngine

theorem seEndError {k i seq : Nat} (h : Only P r s) (sub : [.out, .regs, .bus, .ras, .work, .ses, .sram, .cl, .trace] ⊆ P := by decide) :
    Only P r (s.seEndError k i seq) :=
  h.step sub fun _ h => by
    unfold State.seEndError
    split
    · exact h
    · exact h.protoError.onSeEnd.faultRegion

theorem engineData {k : Nat} {p : MeshPacket} (h : Only P r s)
    (sub : [.out, .regs, .bus, .ras, .grid, .work, .ses, .sram, .cl, .trace] ⊆ P := by decide) : Only P r (s.engineData k p) :=
  h.step sub fun _ h => by
    unfold State.engineData
    split
    · exact h.strayPacket
    · split
      · exact h
      · exact .ite h.seEndError h.correctAt.onSeEnd

theorem engineCredit {k : Nat} {p : MeshPacket} (h : Only P r s)
    (sub : [.out, .regs, .bus, .ras, .work, .ses, .sram, .cl, .trace] ⊆ P := by decide) : Only P r (s.engineCredit k p) :=
  h.step sub fun _ h => by
    unfold State.engineCredit
    split
    · exact h.strayPacket
    · split
      · exact h
      · exact .ite (.ite h.seEndError h.onSeEnd) (.ite h.seEndError h.onSeEnd)

theorem engineSend {k : Nat} {p : MeshPacket} (h : Only P r s) (sub : [.grid] ⊆ P := by decide) : Only P r (s.engineSend k p) :=
  h.step sub fun _ h => h.enter

theorem seReturn {k i : Nat} (h : Only P r s) (sub : [.grid, .ses] ⊆ P := by decide) : Only P r (s.seReturn k i) :=
  h.step sub fun _ h => by
    unfold State.seReturn
    split
    · exact h
    · exact .ite h h.onSeEnd.engineSend

theorem seFreed {k i n : Nat} (h : Only P r s) (sub : [.grid, .ses] ⊆ P := by decide) : Only P r (s.seFreed k i n) :=
  h.step sub fun _ h => by
    unfold State.seFreed
    extract_lets s1
    split
    · exact .ite h.onSeEnd.seReturn h.onSeEnd
    · exact h.onSeEnd

theorem takePacket {pos : Nat} {p : MeshPacket} (h : Only P r s) (sub : [.grid] ⊆ P := by decide) : Only P r (s.takePacket pos p).1 :=
  h.step sub fun _ h => by
    unfold State.takePacket
    split
    · exact .iteFst h.withGrid.freedLocal.res h.takeLocal.res
    · exact h.takeLocal.res

theorem after16 {from_ : Option Dword} (h : Only P r s) (sub : [.tb] ⊆ P := by decide) : Only P r (s.after16 from_) :=
  h.step sub fun _ h => by
    unfold State.after16
    split
    · exact h.advance
    · exact h

theorem execCrdTimerReturn {pos n i : Nat} (h : Only P r s) (sub : [.tb, .grid, .work, .ses] ⊆ P := by decide) :
    Answers P r (execCrdTimerReturn pos n i s) :=
  h.answer sub fun _ h => by
    unfold Machine.execCrdTimerReturn
    refine h.onGrid ?_
    refine .ite ?_ ?_
    · split
      · exact .ite h.after16.returnCredits.next h.passOver
      · exact h.passOver
    · split
      · exact .ite h.after16.seReturn.next h.passOver
      · exact h.passOver

theorem takeUnits {pos n i x : Nat} (h : Only P r s) (sub : [.out, .regs, .bus, .ras, .grid, .sram, .cl, .trace] ⊆ P := by decide) :
    Only P r (s.takeUnits pos n i x).1 :=
  h.step sub fun _ h => by
    clear * - h
    induction x generalizing s pos n i with
    | zero => exact h.res
    | succ k ih =>
      unfold State.takeUnits
      extract_lets c
      split
      · exact h.res
      · extract_lets j o
        split
        next s1 bs ps heq =>
        have h2 : Only _ _ s1 := .fst heq h.spRead
        extract_lets s2
        split
        next s3 rest qs heq =>
        have h3 : Only _ _ s3 := .fst heq (ih h2.onEnd)
        exact h3.res

theorem sendUnits {pos n i : Nat} {e : StreamEnd} {peer : Nat × Nat × Nat} {k : Nat} (h : Only P r s)
    (sub : [.out, .regs, .bus, .ras, .grid, .work, .sram, .cl, .trace] ⊆ P := by decide) : Only P r (s.sendUnits pos n i e peer k) :=
  h.step sub fun _ h => h.takeUnits.onEnd.inject

theorem execStreamUnitSend {pos n i : Nat} (h : Only P r s)
    (sub : [.out, .regs, .bus, .ras, .grid, .work, .sram, .cl, .trace] ⊆ P := by decide) : Answers P r (execStreamUnitSend pos n i s) :=
  h.answer sub fun _ h => by
    unfold Machine.execStreamUnitSend
    refine h.onGrid ?_
    extract_lets s
    split
    · exact h.settleFin.passOver
    · split
      · exact h.settleFin.passOver
      · exact .ite h.settleFin.passOver h.settleFin.sendUnits.next

end Only
end Sys2Proof.Machine
end

/-! ### What the operations of Tyzil packets may change (`Machine/Tyzil.lean`) -/

section
open Sys2Proof
namespace Sys2Proof.Machine
namespace Only
set_option Elab.async false
variable {P Q : List Piece} {r s t : State}

theorem setPort {n : Nat} {p : TyzPort} (h : Only P r s) (sub : [.tyz] ⊆ P := by decide) : Only P r (s.setPort n p) :=
  h.step sub fun _ h => h.withTyz

theorem sendIdle {n crdCh crdN : Nat} (h : Only P r s) (sub : [.out] ⊆ P := by decide) : Only P r (s.sendIdle n crdCh crdN) :=
  h.step sub fun _ h => h.emit

theorem sendNak {n : Nat} (h : Only P r s) (sub : [.out] ⊆ P := by decide) : Only P r (s.sendNak n) := h.step sub fun _ h => h.emit

theorem sendFlit {n ch : Nat} {part : List Byte × Nat} (h : Only P r s) (sub : [.out, .tyz] ⊆ P := by decide) :
    Only P r (s.sendFlit n ch part) :=
  h.step sub fun _ h => h.setPort.emit

theorem pumpPort {n x : Nat} (h : Only P r s) (sub : [.out, .tyz] ⊆ P := by decide) : Only P r (s.pumpPort n x) :=
  h.step sub fun _ h => by
    clear * - h
    induction x generalizing s n with
    | zero => exact h
    | succ fuel ih =>
      unfold State.pumpPort
      extract_lets p
      refine .ite h ?_
      split
      · exact h
      · exact ih (h.setPort.foldl fun _ _ h1 => h1.sendFlit)

theorem portSend {n : Nat} {q : TyzPkt} (h : Only P r s) (sub : [.out, .tyz] ⊆ P := by decide) : Only P r (s.portSend n q) :=
  h.step sub fun _ h => h.setPort.pumpPort

theorem setPeer {d : Nat} {p : EthPeer} (h : Only P r s) (sub : [.peers] ⊆ P := by decide) : Only P r (s.setPeer d p) :=
  h.step sub fun _ h => h.withPeers

theorem ethEmit {d key : Nat} {bs : List Byte} (h : Only P r s) (sub : [.out, .regs, .bus, .ras, .sram, .cl] ⊆ P := by decide) :
    Only P r (s.ethEmit d key bs) :=
  h.step sub fun _ h => by
    unfold State.ethEmit
    split
    · exact h
    · exact h.emit.bump

theorem pumpPeer {d x : Nat} (h : Only P r s) (sub : [.out, .regs, .bus, .ras, .sram, .cl, .peers] ⊆ P := by decide) :
    Only P r (s.pumpPeer d x) :=
  h.step sub fun _ h => by
    clear * - h
    induction x generalizing s d with
    | zero => exact h
    | succ fuel ih =>
      unfold State.pumpPeer
      extract_lets p
      split
      · exact h
      · exact .ite h (ih h.setPeer.ethEmit)

theorem gatewaySend {d : Nat} {q : TyzPkt} (h : Only P r s) (sub : [.out, .regs, .bus, .ras, .sram, .cl, .peers] ⊆ P := by decide) :
    Only P r (s.gatewaySend d q) :=
  h.step sub fun _ h => h.setPeer.pumpPeer

theorem followRoute {p : TyzPkt} (h : Only P r s) (sub : [.out, .tyz] ⊆ P := by decide) : Only P r (s.followRoute p) :=
  h.step sub fun _ h => h.portSend

theorem unroutable (h : Only P r s) (sub : [.out, .regs, .bus, .ras, .sram, .cl] ⊆ P := by decide) : Only P r s.unroutable :=
  h.step sub fun _ h => h.bump.event

theorem takeRoute {p : TyzPkt} {dev : Nat} {inject : Bool} (h : Only P r s)
    (sub : [.out, .regs, .bus, .ras, .sram, .cl, .tyz] ⊆ P := by decide) : Only P r (s.takeRoute p dev inject) :=
  h.step sub fun _ h => by
    unfold State.takeRoute
    refine .ite h.unroutable ?_
    split
    · exact h.unroutable
    · exact h.followRoute

theorem forward {p : TyzPkt} {inject : Bool} (h : Only P r s) (sub : [.out, .regs, .bus, .ras, .sram, .cl, .tyz, .peers] ⊆ P := by decide) :
    Only P r (s.forward p inject) :=
  h.step sub fun _ h => by
    unfold State.forward
    split
    · exact h.unroutable
    · exact .ite h.gatewaySend (.ite h.followRoute h.takeRoute)

theorem routePacket {p : TyzPkt} {inject : Bool} (h : Only P r s)
    (sub : [.out, .regs, .bus, .ras, .sram, .cl, .tyz, .peers] ⊆ P := by decide) : Only P r (s.routePacket p inject) :=
  h.step sub fun _ h => .ite h.withTyz h.forward

theorem sendTyz {dstDev dstDom op tc len tag arg : Nat} {payload : List Byte} {poison : List Nat} (h : Only P r s)
    (sub : [.out, .regs, .bus, .ras, .sram, .cl, .tyz, .peers] ⊆ P := by decide) :
    Only P r (s.sendTyz dstDev dstDom op tc len tag arg payload poison) :=
  h.step sub fun _ h => h.routePacket

end Only
end Sys2Proof.Machine
end

/-! ### What the operations of discipline may change (`Machine/Discipline.lean`) -/

section
open Sys2Proof
namespace Sys2Proof.Machine
namespace Only
set_option Elab.async false
variable {P Q : List Piece} {r s t : State}

theorem sourceChanged {was : Nat} (h : Only P r s) (sub : [.regs, .disc] ⊆ P := by decide) : Only P r (s.sourceChanged was) :=
  h.step sub fun _ h => .ite h (.ite h.withDisc.setRegBit.setFld h.withDisc.setRegBit)

theorem setAlignLost (h : Only P r s) (sub : [.out, .regs, .bus, .ras, .sram, .cl, .disc] ⊆ P := by decide) : Only P r s.setAlignLost :=
  h.step sub fun _ h => .ite h.withDisc h.withDisc.setRegBit.event.setCause

theorem slewFor {n : Nat} (h : Only P r s) (sub : [.free] ⊆ P := by decide) : Only P r (s.slewFor n).1 :=
  h.step sub fun _ h => .iteFst h.res (.iteFst h.res h.takeFree.res)

theorem slew {x : Int} (h : Only P r s) (sub : [.free, .disc] ⊆ P := by decide) : Only P r (s.slew x) :=
  h.step sub fun _ h => h.slewFor.withDisc

theorem slewTick (h : Only P r s) (sub : [.disc] ⊆ P := by decide) : Only P r s.slewTick := h.step sub fun _ h => .ite h h.withDisc

theorem measure {x : Int} (h : Only P r s) (sub : [.free, .out, .regs, .bus, .ras, .sram, .cl, .disc] ⊆ P := by decide) :
    Only P r (s.measure x) :=
  h.step sub fun _ h => by
    unfold State.measure
    extract_lets y s1 src s2 s3 src' base src''
    have hs3 : Only _ _ s3 := h.setFld.setRegBit.withDisc.slew
    exact .ite hs3.withDisc hs3.setAlignLost.withDisc

theorem sourceLost (h : Only P r s) (sub : [.out, .regs, .bus, .ras, .sram, .cl, .disc] ⊆ P := by decide) : Only P r s.sourceLost :=
  h.step sub fun _ h => by
    unfold State.sourceLost
    extract_lets t1 k t2 src
    have ht2 : Only _ _ t2 := .ite h.setRegBit.event.setRegBit.event h.setRegBit.event
    exact ht2.withDisc

theorem execTbSrcLost {at_ : Dword} (h : Only P r s) (sub : [.out, .tb, .regs, .bus, .ras, .sram, .cl, .disc] ⊆ P := by decide) :
    Answers P r (execTbSrcLost at_ s) :=
  h.answer sub fun _ h => by
    unfold Machine.execTbSrcLost
    extract_lets t
    exact .ite h.passOver h.advance.sourceLost.next

theorem execHoldoverExpire {at_ : Dword} (h : Only P r s) (sub : [.out, .tb, .regs, .bus, .ras, .sram, .cl, .disc] ⊆ P := by decide) :
    Answers P r (execHoldoverExpire at_ s) :=
  h.answer sub fun _ h => by
    unfold Machine.execHoldoverExpire
    extract_lets t base src
    exact .ite h.passOver h.advance.setAlignLost.withDisc.next

theorem countOkTick (h : Only P r s) (sub : [.disc] ⊆ P := by decide) : Only P r s.countOkTick := h.step sub fun _ h => h.withDisc

theorem execAlignRecover (h : Only P r s) (sub : [.out, .regs, .bus, .ras, .sram, .cl] ⊆ P := by decide) :
    Answers P r (execAlignRecover s) :=
  h.answer sub fun _ h => .ite h.setRegBit.setCause.next h.passOver

theorem execFrameSyncInEdge {at_ : Dword} (h : Only P r s) (sub : [.tb, .disc] ⊆ P := by decide) :
    Answers P r (execFrameSyncInEdge at_ s) :=
  h.answer sub fun _ h => by
    unfold Machine.execFrameSyncInEdge
    extract_lets t n src
    exact .ite h.advance.next h.advance.withDisc.next

theorem useEdge {n : Nat} {e : Dword × Nat × Int} (h : Only P r s)
    (sub : [.free, .out, .regs, .bus, .ras, .sram, .cl, .disc] ⊆ P := by decide) : Only P r (s.useEdge n e) :=
  h.step sub fun _ h => by
    unfold State.useEdge
    extract_lets mine used src t1 t2 t3
    have ht2 : Only _ _ t2 := h.withDisc.foldl fun _ _ h1 => h1.pageError
    exact .ite ht2.setFld.measure ht2.setFld

theorem execSyncEdgeSelect {at_ : Dword} (h : Only P r s)
    (sub : [.free, .out, .tb, .regs, .bus, .ras, .sram, .cl, .disc] ⊆ P := by decide) : Answers P r (execSyncEdgeSelect at_ s) :=
  h.answer sub fun _ h => by
    unfold Machine.execSyncEdgeSelect
    extract_lets t src
    split
    · exact h.passOver
    · extract_lets n
      exact .ite h.advance.withDisc.next (.ite h.passOver h.advance.useEdge.next)

theorem whenDisabled {rq : Req} {off : Nat} {val : Dword} {f : State → State} (h : Only P r s) (hf : ∀ t, Only P r t → Only P r (f t))
    (sub : [.out, .tb, .regs, .bus, .ras, .rind, .sram, .cl, .nv, .trace] ⊆ P := by decide) : Only P r (s.whenDisabled rq off val f) := by
  unfold State.whenDisabled
  exact h.busWrite (fun _ h => .iteFst (h.step sub fun _ h => h.reservedWrite) (hf _ h)) sub

theorem execTimebaseWrite {rq : Req} {val : Dword} (h : Only P r s)
    (sub : [.out, .tb, .regs, .bus, .ras, .rind, .sram, .cl, .nv, .trace, .wdt] ⊆ P := by decide) :
    Answers P r (execTimebaseWrite rq val s) :=
  h.answer sub fun _ h => (h.whenDisabled (fun _ h1 => h1.setTimebase)).next

theorem execEpochWrite {rq : Req} {val : Dword} (h : Only P r s)
    (sub : [.out, .tb, .regs, .bus, .ras, .rind, .sram, .cl, .nv, .trace] ⊆ P := by decide) : Answers P r (execEpochWrite rq val s) :=
  h.answer sub fun _ h => (h.whenDisabled (fun _ h1 => h1.setFld64)).next

theorem execFrameEnable {rq : Req} (h : Only P r s)
    (sub : [.out, .tb, .regs, .bus, .ras, .rind, .sram, .cl, .nv, .sys, .trace] ⊆ P := by decide) : Answers P r (execFrameEnable rq s) :=
  h.answer sub fun _ h => (h.busWrite (fun _ h1 => .iteFst h1.res h1.setFld.withSys.res)).next

theorem execFrameDisable {rq : Req} (h : Only P r s)
    (sub : [.out, .tb, .regs, .bus, .ras, .rind, .sram, .cl, .nv, .trace] ⊆ P := by decide) : Answers P r (execFrameDisable rq s) :=
  h.answer sub fun _ h => (h.busWrite (fun _ h1 => h1.setFld.res)).next

theorem chooseParent (h : Only P r s) (sub : [.out, .regs, .bus, .ras, .sram, .cl] ⊆ P := by decide) : Only P r s.chooseParent :=
  h.step sub fun _ h => by
    unfold State.chooseParent
    extract_lets best put
    refine .ite h.setFld.setFld ?_
    clear_value best
    split
    · exact h
    · exact .ite h.setFld.setFld.event h.setFld.setFld

theorem execAlignFlitSend {n : Nat} {at_ : Dword} (h : Only P r s) (sub : [.out, .tb] ⊆ P := by decide) :
    Answers P r (execAlignFlitSend n at_ s) :=
  h.answer sub fun _ h => by
    unfold Machine.execAlignFlitSend
    refine h.onClock ?_
    extract_lets t
    exact .ite h.passOver h.advance.emit.next

theorem theta {f : AlignFlit} {t4 : Dword} (h : Only P r s) (sub : [.free] ⊆ P := by decide) : Only P r (s.theta f t4).1 :=
  h.step sub fun _ h => by
    unfold State.theta
    extract_lets d
    exact .iteFst h.res h.takeFree.res

theorem hearFlit {n : Nat} {at_ : Dword} {f : AlignFlit} (h : Only P r s)
    (sub : [.out, .regs, .bus, .ras, .sram, .cl, .tyz] ⊆ P := by decide) : Only P r (s.hearFlit n at_ f) :=
  h.step sub fun _ h => h.setPort.chooseParent

theorem parentFlit {n : Nat} {at_ : Dword} {f : AlignFlit} (h : Only P r s)
    (sub : [.free, .out, .regs, .bus, .ras, .sram, .cl, .tyz, .disc] ⊆ P := by decide) : Only P r (s.parentFlit n at_ f) :=
  h.step sub fun _ h => by
    unfold State.parentFlit
    extract_lets d begins t2 src src' t3 t4
    have ht2 : Only _ _ t2 := .ite h.pageError h
    have ht4 : Only _ _ t4 := .ite ht2.withTyzDisc.setAlignLost ht2.withTyzDisc
    exact .ite ht4.theta.measure ht4

theorem execAlignFlitReceive {n : Nat} {at_ : Dword} {f : AlignFlit} (h : Only P r s)
    (sub : [.free, .out, .tb, .regs, .bus, .ras, .sram, .cl, .tyz, .disc] ⊆ P := by decide) :
    Answers P r (execAlignFlitReceive n at_ f s) :=
  h.answer sub fun _ h => by
    unfold Machine.execAlignFlitReceive
    refine h.onClock ?_
    extract_lets t t1 src
    refine .ite h.passOver ?_
    exact .ite h.advance.hearFlit.withDisc.next (.ite h.advance.hearFlit.next h.advance.hearFlit.parentFlit.next)

theorem ptpOffset {k : Nat} {offset : Int} (h : Only P r s) (sub : [.free, .out, .regs, .bus, .ras, .sram, .cl, .disc] ⊆ P := by decide) :
    Only P r (s.ptpOffset k offset) :=
  h.step sub fun _ h => .ite h.setRegBit.measure h.setRegBit

theorem execPtpMessage {k : Nat} {at_ : Dword} {offset : Int} (h : Only P r s)
    (sub : [.free, .out, .tb, .regs, .bus, .ras, .sram, .cl, .disc] ⊆ P := by decide) : Answers P r (execPtpMessage k at_ offset s) :=
  h.answer sub fun _ h => by
    unfold Machine.execPtpMessage
    refine h.onClock ?_
    extract_lets t
    exact .ite h.passOver h.advance.ptpOffset.next

end Only
end Sys2Proof.Machine
end

/-! ### What the operations of Tyzil links may change (`Machine/TyzLink.lean`) -/

section
open Sys2Proof
namespace Sys2Proof.Machine
namespace Only
set_option Elab.async false
variable {P Q : List Piece} {r s t : State}

theorem portCounts (h : Only P r s) (sub : [.out, .regs, .bus, .ras, .sram, .cl] ⊆ P := by decide) : Only P r s.portCounts :=
  h.step sub fun _ h => h.setFld.setCause

theorem setPortSts {n st gen map : Nat} (h : Only P r s) (sub : [.out, .regs, .bus, .ras, .sram, .cl] ⊆ P := by decide) :
    Only P r (s.setPortSts n st gen map) :=
  h.step sub fun _ h => h.setFld.portCounts

theorem rerouteAll {x : List (TyzPkt × Bool)} (h : Only P r s) (sub : [.out, .regs, .bus, .ras, .sram, .cl, .tyz] ⊆ P := by decide) :
    Only P r (s.rerouteAll x) :=
  h.step sub fun _ h => by
    clear * - h
    induction x generalizing s with
    | nil => exact h
    | cons e es ih =>
      unfold State.rerouteAll
      refine ih ?_
      split
      · exact h.unroutable
      · exact h.takeRoute

theorem portLost {n : Nat} (h : Only P r s) (sub : [.out, .regs, .bus, .ras, .sram, .cl, .tyz, .trace] ⊆ P := by decide) :
    Only P r (s.portLost n) :=
  h.step sub fun _ h => h.setPort.setPortSts.rasReport.event.rerouteAll

theorem replay {n : Nat} (h : Only P r s) (sub : [.out] ⊆ P := by decide) : Only P r (s.replay n) :=
  h.step sub fun _ h => h.foldl fun _ _ h1 => h1.emit

theorem retrain {n : Nat} (h : Only P r s) (sub : [.regs, .bus, .ras, .sram, .cl, .tyz] ⊆ P := by decide) : Only P r (s.retrain n) :=
  h.step sub fun _ h => .ite h h.setPort.bump

theorem writeTyzCfg {i : Iface} {n : Nat} {val : Word} (h : Only P r s)
    (sub : [.out, .regs, .bus, .ras, .sram, .cl, .tyz] ⊆ P := by decide) : Only P r (s.writeTyzCfg i n val).1 :=
  h.step sub fun _ h => by
    unfold State.writeTyzCfg
    split
    next s1 r heq =>
    have h1 : Only _ _ s1 := .fst heq h.plainWrite
    extract_lets en s2 src
    exact (Only.ite (.ite h1.setFld.setPortSts h1.setFld) h1.setFld.setPort.setPortSts).res

theorem execTyzPortEnable {rq : Req} {n : Nat} {val : Word} (h : Only P r s)
    (sub : [.out, .tb, .regs, .bus, .ras, .rind, .sram, .cl, .nv, .tyz, .trace] ⊆ P := by decide) :
    Answers P r (execTyzPortEnable rq n val s) :=
  h.answer sub fun _ h => (h.busWrite (fun _ h1 => h1.writeTyzCfg)).next

theorem retrained {n : Nat} (h : Only P r s) (sub : [.out, .regs, .cal, .tyz] ⊆ P := by decide) : Only P r (s.retrained n) :=
  h.step sub fun _ h => h.setPort.calLanes.replay.pumpPort

theorem execTyzTrainComplete {n peerGen : Nat} (h : Only P r s) (sub : [.out, .regs, .bus, .ras, .cal, .sram, .cl, .tyz] ⊆ P := by decide) :
    Answers P r (execTyzTrainComplete n peerGen s) :=
  h.answer sub fun _ h => by
    unfold Machine.execTyzTrainComplete
    refine h.onClock ?_
    extract_lets p g
    exact .ite h.retrained.next (.ite h.setPortSts.calLanes.next h.passOver)

theorem execTyzTrainTimeout {n : Nat} (h : Only P r s) (sub : [.out, .regs, .bus, .ras, .sram, .cl, .tyz, .trace] ⊆ P := by decide) :
    Answers P r (execTyzTrainTimeout n s) :=
  h.answer sub fun _ h => h.onClock (.ite h.portLost.next h.passOver)

theorem execTyzLostRetrain {n : Nat} {ok : Bool} {peerGen : Nat} (h : Only P r s)
    (sub : [.out, .regs, .bus, .ras, .cal, .sram, .cl, .tyz] ⊆ P := by decide) : Answers P r (execTyzLostRetrain n ok peerGen s) :=
  h.answer sub fun _ h => h.onClock (.ite h.passOver (.ite h.setPort.setPortSts.calLanes.next h.next))

theorem laneFail {n lane : Nat} (h : Only P r s) (sub : [.out, .regs, .bus, .ras, .sram, .cl, .nv, .tyz, .trace] ⊆ P := by decide) :
    Only P r (s.laneFail n lane) :=
  h.step sub fun _ h => by
    unfold State.laneFail
    extract_lets p old failed st s1 map s2 s3
    have hs2 : Only _ _ s2 := h.setPort.setPortSts.emit.replay
    have hs3 : Only _ _ s3 := .ite hs2.rasReport.event (.ite hs2.rasReport.event hs2)
    exact .ite h.setPort.portLost.mapRecord hs3.mapRecord

theorem execTyzLaneFail {n lane : Nat} (h : Only P r s) (sub : [.out, .regs, .bus, .ras, .sram, .cl, .nv, .tyz, .trace] ⊆ P := by decide) :
    Answers P r (execTyzLaneFail n lane s) :=
  h.answer sub fun _ h => h.onClock (.ite h.laneFail.next h.passOver)

theorem execTyzLanemapFlit {n map : Nat} (h : Only P r s)
    (sub : [.out, .regs, .bus, .ras, .sram, .cl, .nv, .tyz, .trace] ⊆ P := by decide) : Answers P r (execTyzLanemapFlit n map s) :=
  h.answer sub fun _ h => by
    unfold Machine.execTyzLanemapFlit
    refine h.onClock ?_
    refine .ite h.passOver ?_
    split
    · exact h.laneFail.next
    · exact h.next

theorem ackCredit {n : Nat} {b : List Byte} (h : Only P r s) (sub : [.out, .regs, .bus, .ras, .sram, .cl, .tyz, .trace] ⊆ P := by decide) :
    Only P r (s.ackCredit n b) :=
  h.step sub fun _ h => .ite h.setPort (.ite h.setPort.event.rasReport.retrain h.setPort.setPort)

theorem badFlit {n : Nat} (h : Only P r s) (sub : [.out, .regs, .bus, .ras, .sram, .cl] ⊆ P := by decide) : Only P r (s.badFlit n) :=
  h.step sub fun _ h => h.sendNak.bump

theorem takeFlit {n : Nat} {b : List Byte} (h : Only P r s) (sub : [.out, .tyz] ⊆ P := by decide) : Only P r (s.takeFlit n b) :=
  h.step sub fun _ h => by
    unfold State.takeFlit
    extract_lets p rx ps total p1 base src s1
    have hs1 : Only _ _ s1 := .ite h.setPort h.setPort.withTyz
    exact hs1.sendIdle

theorem pumpAll {n : Nat} (h : Only P r s) (sub : [.out, .tyz] ⊆ P := by decide) : Only P r (s.pumpAll n) :=
  h.step sub fun _ h => h.pumpPort

theorem dataFlit {n : Nat} {b : List Byte} (h : Only P r s) (sub : [.out, .regs, .bus, .ras, .sram, .cl, .tyz, .trace] ⊆ P := by decide) :
    Only P r (s.dataFlit n b) :=
  h.step sub fun _ h => (Only.ite h.ackCredit.takeFlit (.ite h.ackCredit.badFlit h.ackCredit.sendIdle)).pumpAll

theorem nakFlit {n : Nat} {b : List Byte} (h : Only P r s) (sub : [.out, .regs, .bus, .ras, .sram, .cl, .tyz, .trace] ⊆ P := by decide) :
    Only P r (s.nakFlit n b) :=
  h.step sub fun _ h => by
    unfold State.nakFlit
    extract_lets t1 p ts t2
    have ht2 : Only _ _ t2 := h.ackCredit.setPort.replay.bump
    exact .ite ht2.retrain ht2

theorem execTyzDataFlit {n : Nat} {b : List Byte} (h : Only P r s)
    (sub : [.out, .regs, .bus, .ras, .sram, .cl, .tyz, .trace] ⊆ P := by decide) : Answers P r (execTyzDataFlit n b s) :=
  h.answer sub fun _ h => h.onClock (.ite h.passOver (.ite h.badFlit.next h.dataFlit.next))

theorem execTyzIdleFlit {n : Nat} {b : List Byte} (h : Only P r s)
    (sub : [.out, .regs, .bus, .ras, .sram, .cl, .tyz, .trace] ⊆ P := by decide) : Answers P r (execTyzIdleFlit n b s) :=
  h.answer sub fun _ h => h.onClock (.ite h.passOver (.ite h.badFlit.next h.ackCredit.pumpAll.next))

theorem execTyzNakFlit {n : Nat} {b : List Byte} {at_ : Dword} (h : Only P r s)
    (sub : [.out, .tb, .regs, .bus, .ras, .sram, .cl, .tyz, .trace] ⊆ P := by decide) : Answers P r (execTyzNakFlit n b at_ s) :=
  h.answer sub fun _ h => by
    unfold Machine.execTyzNakFlit
    refine h.onClock ?_
    refine .ite h.passOver ?_
    extract_lets t
    exact (Only.ite h.advance.nakFlit h.advance.badFlit).next

theorem execTyzAckTimeout {n : Nat} (h : Only P r s) (sub : [.regs, .bus, .ras, .sram, .cl, .tyz] ⊆ P := by decide) :
    Answers P r (execTyzAckTimeout n s) :=
  h.answer sub fun _ h => h.onClock (.ite h.retrain.next h.passOver)

theorem execTc0AgePromote {n : Nat} (h : Only P r s) (sub : [.out, .tyz] ⊆ P := by decide) : Answers P r (execTc0AgePromote n s) :=
  h.answer sub fun _ h => by
    unfold Machine.execTc0AgePromote
    refine h.onClock ?_
    extract_lets p
    split
    · exact h.passOver
    · exact h.setPort.pumpPort.next

theorem creditBack {p : TyzPkt} (h : Only P r s) (sub : [.out] ⊆ P := by decide) : Only P r (s.creditBack p) :=
  h.step sub fun _ h => .ite h.sendIdle h

theorem routeOn {p : TyzPkt} (h : Only P r s) (sub : [.out, .regs, .bus, .ras, .sram, .cl, .tyz, .peers, .meter] ⊆ P := by decide) :
    Only P r (s.routeOn p) :=
  h.step sub fun _ h => by
    unfold State.routeOn
    extract_lets s2 mine
    have hs2 : Only _ _ s2 := .ite h h.creditBack
    exact (Only.ite hs2 hs2.actOwner).routePacket

theorem execTyzPacketRoute (h : Only P r s) (sub : [.out, .regs, .bus, .ras, .sram, .cl, .tyz, .peers, .meter] ⊆ P := by decide) :
    Answers P r (execTyzPacketRoute s) :=
  h.answer sub fun _ h => by
    unfold Machine.execTyzPacketRoute
    refine h.onClock ?_
    split
    · exact h.passOver
    · exact h.withTyz.routeOn.next

theorem execRtCopy {rq : Req} (h : Only P r s)
    (sub : [.out, .tb, .regs, .bus, .ras, .rind, .sram, .cl, .nv, .tyz, .trace] ⊆ P := by decide) : Answers P r (execRtCopy rq s) :=
  h.answer sub fun _ h => (h.busWrite (fun _ h1 => h1.withTyz.res)).next

theorem execTyzMgmt {reach : List (Nat × Bool)} (h : Only P r s) (sub : [.tyz] ⊆ P := by decide) : Answers P r (execTyzMgmt reach s) :=
  h.answer sub fun _ h => by
    unfold Machine.execTyzMgmt
    refine h.onClock ?_
    split
    · exact h.passOver
    · exact h.withTyz.next

theorem ethUp {k : Nat} (h : Only P r s) (sub : [.regs] ⊆ P := by decide) : Only P r (s.ethUp k) := h.step sub fun _ h => h.setReg

theorem execEthLinkUp {k : Nat} (h : Only P r s) (sub : [.regs] ⊆ P := by decide) : Answers P r (execEthLinkUp k s) :=
  h.answer sub fun _ h => h.onClock (.ite h.passOver h.ethUp.next)

theorem execEthLinkDown {k : Nat} (h : Only P r s) (sub : [.out, .regs, .bus, .ras, .sram, .cl] ⊆ P := by decide) :
    Answers P r (execEthLinkDown k s) :=
  h.answer sub fun _ h => h.onClock (.ite h.passOver h.setRegBit.event.next)

theorem writeEthCfg {i : Iface} {k : Nat} {val : Word} (h : Only P r s)
    (sub : [.out, .regs, .bus, .ras, .sram, .cl, .eth] ⊆ P := by decide) : Only P r (s.writeEthCfg i k val).1 :=
  h.step sub fun _ h => by
    unfold State.writeEthCfg
    extract_lets was en
    split
    next s1 r heq =>
    have h1 : Only _ _ s1 := .fst heq h.plainWrite
    extract_lets s2
    exact .iteFst h1.setFld.withEth.res (.iteFst h1.setFld.setRegBit.res h1.setFld.res)

theorem peerAck {d k pack : Nat} (h : Only P r s) (sub : [.regs, .peers] ⊆ P := by decide) : Only P r (s.peerAck d k pack) :=
  h.step sub fun _ h => by
    unfold State.peerAck
    extract_lets p
    split
    · exact h
    · exact h.setPeer.setFld

theorem dgram {k : Nat} {b : List Byte} (h : Only P r s)
    (sub : [.out, .regs, .bus, .ras, .sram, .cl, .tyz, .peers, .meter] ⊆ P := by decide) : Only P r (s.dgram k b) :=
  h.step sub fun _ h => by
    unfold State.dgram
    extract_lets d s2 p ch s3 p3 good pk base src s4
    have hs4 : Only _ _ s4 := h.peerAck.setPeer.setPeer.withTyz
    refine .ite h.peerAck.setPeer.actOwner.pumpPeer ?_
    split
    · exact hs4.actOwner.ethEmit.pumpPeer

theorem execEthDgramReceive {k : Nat} {b : List Byte} {fcsOk : Bool} (h : Only P r s)
    (sub : [.out, .regs, .bus, .ras, .sram, .cl, .tyz, .peers, .meter] ⊆ P := by decide) : Answers P r (execEthDgramReceive k b fcsOk s) :=
  h.answer sub fun _ h => by
    unfold Machine.execEthDgramReceive
    refine h.onClock ?_
    refine .ite h.passOver ?_
    refine .ite h.bump.next ?_
    extract_lets s1
    exact (Only.ite h.bump.dgram h.bump).next

theorem resendAll {d k : Nat} (h : Only P r s) (sub : [.out, .regs, .bus, .ras, .sram, .cl, .peers, .meter] ⊆ P := by decide) :
    Only P r (s.resendAll d k) :=
  h.step sub fun _ h => by
    unfold State.resendAll
    extract_lets p s1 src s2
    have hs1 : Only _ _ s1 := h.foldl fun _ _ h1 => h1.ethEmit.actOwner.bump
    exact .ite hs1.setPeer.setFld.event hs1.setPeer

theorem execEthRtoExpire {d : Nat} (h : Only P r s) (sub : [.out, .regs, .bus, .ras, .sram, .cl, .peers, .meter] ⊆ P := by decide) :
    Answers P r (execEthRtoExpire d s) :=
  h.answer sub fun _ h => by
    unfold Machine.execEthRtoExpire
    refine h.onClock ?_
    extract_lets p
    split
    · exact h.passOver
    · exact .ite h.passOver h.resendAll.next

end Only
end Sys2Proof.Machine
end

/-! ### What the operations of the Ethernet bridge may change (`Machine/TyzBridge.lean`) -/

section
open Sys2Proof
namespace Sys2Proof.Machine
namespace Only
set_option Elab.async false
variable {P Q : List Piece} {r s t : State}

theorem actTyz {region dom len : Nat} (h : Only P r s) (sub : [.meter] ⊆ P := by decide) : Only P r (s.actTyz region dom len) :=
  h.step sub fun _ h => h.actRegion

theorem pumpBridge {k i x : Nat} (h : Only P r s)
    (sub : [.free, .out, .regs, .bus, .ras, .grid, .ses, .sram, .cl, .tyz, .peers, .meter] ⊆ P := by decide) :
    Only P r (s.pumpBridge k i x) :=
  h.step sub fun _ h => by
    clear * - h
    induction x generalizing s k i with
    | zero => exact h
    | succ fuel ih =>
      unfold State.pumpBridge
      split
      · exact h
      · extract_lets q n us last seq s1 id sq
        refine .ite h ?_
        split
        · exact .ite (ih h.onSeEnd.actTyz.sendTyz) (ih h.onSeEnd.takeFree.withTyz.onSeEnd.seFreed)

theorem bridgeToCell {k : Nat} {e : SeEnd} {seq : Nat} {bs : List Byte} {ps : List Nat} {last : Bool} {x : Nat} (h : Only P r s)
    (sub : [.grid] ⊆ P := by decide) : Only P r (s.bridgeToCell k e seq bs ps last x) :=
  h.step sub fun _ h => by
    clear * - h
    induction x generalizing s k e seq bs ps last with
    | zero => exact h
    | succ fuel ih =>
      unfold State.bridgeToCell
      exact .ite h (ih h.engineSend)

theorem pumpColl {k i : Nat} (h : Only P r s) (sub : [.grid, .ses] ⊆ P := by decide) : Only P r (s.pumpColl k i) :=
  h.step sub fun _ h => by
    unfold State.pumpColl
    split
    · exact h
    · extract_lets n s1
      refine .ite h ?_
      split
      · exact h.onSeEnd.bridgeToCell

theorem bridgeCredit {k : Nat} {p : MeshPacket} (h : Only P r s)
    (sub : [.out, .regs, .bus, .ras, .grid, .work, .ses, .sram, .cl, .tyz, .peers, .meter, .trace] ⊆ P := by decide) :
    Only P r (s.bridgeCredit k p) :=
  h.step sub fun _ h => by
    unfold State.bridgeCredit
    split
    · exact h.strayPacket
    · split
      · exact h
      · exact .ite h.actTyz.sendTyz h.engineCredit.pumpColl

theorem engineTakes {k : Nat} {pkt : MeshPacket} (h : Only P r s)
    (sub : [.free, .out, .regs, .bus, .ras, .grid, .work, .ses, .sram, .cl, .tyz, .peers, .meter, .trace] ⊆ P := by decide) :
    Only P r (s.engineTakes k pkt) :=
  h.step sub fun _ h => by
    unfold State.engineTakes
    extract_lets s2
    refine .ite h.engineData ?_
    split
    · exact h.engineData.pumpBridge
    · exact h.engineData

theorem execStreamDataArrive {pos : Nat} {pkt : MeshPacket} (h : Only P r s)
    (sub : [.free, .out, .regs, .bus, .ras, .grid, .work, .ses, .sram, .cl, .tyz, .peers, .meter, .trace] ⊆ P := by decide) :
    Answers P r (execStreamDataArrive pos pkt s) :=
  h.answer sub fun _ h => by
    unfold Machine.execStreamDataArrive
    refine h.onGrid ?_
    refine .ite h.passOver ?_
    refine .ite h.passOver ?_
    split
    next s1 k heq =>
      have h1 : Only _ _ s1 := .fst heq h.takePacket
      exact h1.engineTakes.next
    next s1 heq =>
      have h2 : Only _ _ s1 := .fst heq h.takePacket
      exact h2.cellData.next

theorem execCrdArrive {pos : Nat} {pkt : MeshPacket} (h : Only P r s)
    (sub : [.out, .regs, .bus, .ras, .grid, .work, .ses, .sram, .cl, .tyz, .peers, .meter, .trace] ⊆ P := by decide) :
    Answers P r (execCrdArrive pos pkt s) :=
  h.answer sub fun _ h => by
    unfold Machine.execCrdArrive
    refine h.onGrid ?_
    refine .ite h.passOver ?_
    refine .ite h.passOver ?_
    split
    next s1 k heq =>
      have h1 : Only _ _ s1 := .fst heq h.takePacket
      exact (Only.ite h1.engineCredit h1.bridgeCredit).next
    next s1 heq =>
      have h2 : Only _ _ s1 := .fst heq h.takePacket
      exact h2.cellCredit.next

theorem takeDelivered {op : Nat} {p : TyzPkt} (h : Only P r s) (e : s.takeDelivered op = some (t, p)) (sub : [.tyz] ⊆ P := by decide) :
    Only P r t := by
  unfold State.takeDelivered at e
  split at e
  · cases e
  · cases e
    exact h.step sub fun _ h => h.withTyz

theorem streamFromTyz {p : TyzPkt} {k i : Nat} {e : SeEnd} (h : Only P r s)
    (sub : [.out, .regs, .bus, .ras, .grid, .work, .ses, .sram, .cl, .meter, .trace] ⊆ P := by decide) :
    Only P r (s.streamFromTyz p k i e) :=
  h.step sub fun _ h => .ite h.seEndError h.onSeEnd.actTyz.bridgeToCell

theorem execTyzStream (h : Only P r s)
    (sub : [.out, .regs, .bus, .ras, .grid, .work, .ses, .sram, .cl, .tyz, .meter, .trace] ⊆ P := by decide) :
    Answers P r (execTyzStream s) :=
  h.answer sub fun _ h => by
    unfold Machine.execTyzStream
    refine h.onClock ?_
    split
    · exact h.passOver
    next s1 p heq =>
      have h1 : Only _ _ s1 := h.takeDelivered heq
      split
      · exact h1.next
      · split
        · exact h1.next
        · exact h1.streamFromTyz.next

theorem execTyzCrd (h : Only P r s) (sub : [.grid, .tyz, .meter] ⊆ P := by decide) : Answers P r (execTyzCrd s) :=
  h.answer sub fun _ h => by
    unfold Machine.execTyzCrd
    refine h.onClock ?_
    split
    · exact h.passOver
    next s1 p heq =>
      have h1 : Only _ _ s1 := h.takeDelivered heq
      split
      · exact h1.next
      · split
        · exact h1.next
        · exact h1.actTyz.engineSend.next

theorem faultColl {id : Nat} (h : Only P r s) (sub : [.work] ⊆ P := by decide) : Only P r (s.faultColl id) :=
  h.step sub fun _ h => h.foldl fun _ _ h1 => h1.faultSection

theorem collOrphan {id : Nat} (h : Only P r s) (sub : [.out, .regs, .bus, .ras, .work, .sram, .cl] ⊆ P := by decide) :
    Only P r (s.collOrphan id) :=
  h.step sub fun _ h => h.event.faultColl

theorem collLocal {id : Nat} {p : TyzPkt} (h : Only P r s) (sub : [.grid, .ses] ⊆ P := by decide) : Only P r (s.collLocal id p) :=
  h.step sub fun _ h => by
    unfold State.collLocal
    split
    · exact h
    · exact h.onSeEnd.pumpColl

theorem collToChildren {id seq : Nat} {p : TyzPkt} {x : List Nat} (h : Only P r s) (sub : [.out, .tyz] ⊆ P := by decide) :
    Only P r (s.collToChildren id seq p x) :=
  h.step sub fun _ h => by
    clear * - h
    induction x generalizing s id seq p with
    | nil => exact h
    | cons n ns ih =>
      unfold State.collToChildren
      exact ih h.portSend

theorem collMerge {op id seq w0 w1 w2 : Nat} {ops : List TyzPkt} (h : Only P r s)
    (sub : [.free, .out, .grid, .work, .ses, .tyz] ⊆ P := by decide) : Only P r (s.collMerge op id seq w0 w1 w2 ops) :=
  h.step sub fun _ h => by
    unfold State.collMerge
    split
    · exact h
    · split
      · exact h
      · split
        next s1 r heq =>
        have h1 : Only _ _ s1 := .fst heq h.mergeAll
        extract_lets contrib arg dst q s2 s3
        have hs2 : Only _ _ s2 := .ite h1 h1.faultColl
        exact .ite (.ite hs2.collLocal.collToChildren hs2.collLocal) h1.portSend

theorem collStray {p : TyzPkt} (h : Only P r s) (sub : [.out, .regs, .bus, .ras, .work, .sram, .cl, .tyz, .peers] ⊆ P := by decide) :
    Only P r (s.collStray p) :=
  h.step sub fun _ h => .ite h.collOrphan h.forward

theorem collMatch {op : Nat} {p : TyzPkt} {w0 w1 w2 : Nat} (h : Only P r s)
    (sub : [.free, .out, .grid, .work, .ses, .tyz] ⊆ P := by decide) : Only P r (s.collMatch op p w0 w1 w2) :=
  h.step sub fun _ h => by
    unfold State.collMatch
    extract_lets id seq mine src s2 src'
    have hs2 : Only _ _ s2 := .ite h.withTyz h
    split
    · exact .ite hs2.collMerge hs2.withTyz
    · exact .ite hs2.faultColl (.ite hs2.withTyz.collMerge hs2.withTyz)

theorem contribution {op : Nat} {p : TyzPkt} (h : Only P r s)
    (sub : [.free, .out, .regs, .bus, .ras, .grid, .work, .ses, .sram, .cl, .tyz, .peers] ⊆ P := by decide) :
    Only P r (s.contribution op p) :=
  h.step sub fun _ h => by
    unfold State.contribution
    refine .ite h.collOrphan ?_
    split
    · exact h.collStray
    · exact .ite h.collStray h.collMatch

theorem collArrive {op : Nat} (h : Only P r s)
    (sub : [.free, .out, .regs, .bus, .ras, .grid, .work, .ses, .sram, .cl, .tyz, .peers] ⊆ P := by decide) :
    Answers P r (s.collArrive op) :=
  h.answer sub fun _ h => by
    unfold State.collArrive
    split
    · exact h.passOver
    · exact h.withTyz.creditBack.contribution.next

theorem execTyzAddI32 (h : Only P r s)
    (sub : [.free, .out, .regs, .bus, .ras, .grid, .work, .ses, .sram, .cl, .tyz, .peers] ⊆ P := by decide) :
    Answers P r (execTyzAddI32 s) :=
  h.answer sub fun _ h => h.onClock h.collArrive

theorem execTyzAddF32 (h : Only P r s)
    (sub : [.free, .out, .regs, .bus, .ras, .grid, .work, .ses, .sram, .cl, .tyz, .peers] ⊆ P := by decide) :
    Answers P r (execTyzAddF32 s) :=
  h.answer sub fun _ h => h.onClock h.collArrive

theorem execTyzMaxF32 (h : Only P r s)
    (sub : [.free, .out, .regs, .bus, .ras, .grid, .work, .ses, .sram, .cl, .tyz, .peers] ⊆ P := by decide) :
    Answers P r (execTyzMaxF32 s) :=
  h.answer sub fun _ h => h.onClock h.collArrive

theorem execTyzLseMerge (h : Only P r s)
    (sub : [.free, .out, .regs, .bus, .ras, .grid, .work, .ses, .sram, .cl, .tyz, .peers] ⊆ P := by decide) :
    Answers P r (execTyzLseMerge s) :=
  h.answer sub fun _ h => h.onClock h.collArrive

theorem execTyzCollRes (h : Only P r s) (sub : [.out, .regs, .bus, .ras, .grid, .work, .ses, .sram, .cl, .tyz] ⊆ P := by decide) :
    Answers P r (execTyzCollRes s) :=
  h.answer sub fun _ h => by
    unfold Machine.execTyzCollRes
    refine h.onClock ?_
    split
    · exact h.passOver
    next s1 p heq =>
      have h1 : Only _ _ s1 := h.takeDelivered heq
      split
      · exact h1.collOrphan.next
      · exact h1.collToChildren.collLocal.next

end Only
end Sys2Proof.Machine
end

/-! ### What the operations of stream engines may change (`Machine/StreamEngines.lean`) -/

section
open Sys2Proof
namespace Sys2Proof.Machine
namespace Only
set_option Elab.async false
variable {P Q : List Piece} {r s t : State}

theorem jobFault {j : SeJob} {e : Ending} (h : Only P r s) (sub : [.work] ⊆ P := by decide) : Only P r (s.jobFault j e) :=
  h.step sub fun _ h => .ite h.faultRegion h

theorem takePosted {k x : Nat} (h : Only P r s) (sub : [.regs, .work, .ses, .sram, .cl] ⊆ P := by decide) : Only P r (s.takePosted k x) :=
  h.step sub fun _ h => by
    clear * - h
    induction x generalizing s k with
    | zero => exact h
    | succ n ih =>
      unfold State.takePosted
      extract_lets src
      refine .ite h ?_
      split
      next s0 b heq =>
      have h1 : Only _ _ s0 := .fst heq h.sramRead
      extract_lets j g s1 s2
      have hs2 : Only _ _ s2 := .ite h1.setEngine.jobFault h1.setEngine
      exact ih hs2.setFld

theorem postDescr {k : Nat} {b : List Byte} (h : Only P r s) (sub : [.regs, .work, .ses, .sram, .cl] ⊆ P := by decide) :
    Only P r (s.postDescr k b) :=
  h.step sub fun _ h => h.sramWrite.setFld.takePosted

theorem writeDb {k : Nat} {tail : Word} (h : Only P r s) (sub : [.regs, .work, .ses, .sram, .cl] ⊆ P := by decide) :
    Only P r (s.writeDb k tail).1 :=
  h.step sub fun _ h => h.setFld.takePosted.res

theorem execStreamDbWrite {rq : Req} {k : Nat} {tail : Word} (h : Only P r s)
    (sub : [.out, .tb, .regs, .bus, .ras, .rind, .work, .ses, .sram, .cl, .nv, .trace] ⊆ P := by decide) :
    Answers P r (execStreamDbWrite rq k tail s) :=
  h.answer sub fun _ h => (h.busWrite (fun _ h1 => h1.writeDb)).next

theorem actJob {j : SeJob} {f : Activity → Activity} (h : Only P r s) (sub : [.meter] ⊆ P := by decide) : Only P r (s.actJob j f) :=
  h.step sub fun _ h => by
    unfold State.actJob
    extract_lets s1
    split
    · exact .ite h.actOwner h.actOwner.actItem
    · exact h.actOwner

theorem onJob {k i : Nat} {f : SeJob → SeJob} (h : Only P r s) (sub : [.ses] ⊆ P := by decide) : Only P r (s.onJob k i f) :=
  h.step sub fun _ h => h.setEngine

theorem badJob {k i : Nat} {e : Ending} (h : Only P r s) (sub : [.work, .ses] ⊆ P := by decide) : Only P r (s.badJob k i e) :=
  h.step sub fun _ h => by
    unfold State.badJob
    split
    · exact h
    · exact h.onJob.jobFault

theorem askHost {line : Nat} {whole write : Bool} {data : List Byte} {poison : Bool} (h : Only P r s) (sub : [.out] ⊆ P := by decide) :
    Only P r (s.askHost line whole write data poison) :=
  h.step sub fun _ h => h.emit

theorem askUnit {k i : Nat} {j : SeJob} {u' a n : Nat} {write : Bool} {data : List Byte} {poison : Bool} (h : Only P r s)
    (sub : [.out, .ses] ⊆ P := by decide) : Only P r (s.askUnit k i j u' a n write data poison) :=
  h.step sub fun _ h => h.foldl fun _ _ h1 => h1.askHost.onJob

theorem progress {j : SeJob} {n : Nat} (h : Only P r s) (sub : [.work] ⊆ P := by decide) : Only P r (s.progress j n) :=
  h.step sub fun _ h => .ite h h.onDesc

theorem deliver {k i : Nat} {flush : Bool} {x : Nat} (h : Only P r s) (sub : [.grid, .work, .ses] ⊆ P := by decide) :
    Only P r (s.deliver k i flush x) :=
  h.step sub fun _ h => by
    clear * - h
    induction x generalizing s k i flush with
    | zero => exact h
    | succ fuel ih =>
      unfold State.deliver
      split
      · exact h
      · split
        · exact h
        · split
          · exact h
          · exact .ite h (ih h.onSeEnd.onJob.progress.engineSend)

theorem remoteRequest {k : Nat} {j : SeJob} {u' : Nat} {write : Bool} {bs : List Byte} {poison : List Nat} (h : Only P r s)
    (sub : [.out, .regs, .bus, .ras, .sram, .cl, .tyz, .peers, .meter] ⊆ P := by decide) :
    Only P r (s.remoteRequest k j u' write bs poison) :=
  h.step sub fun _ h => .ite h.actJob.withTyz.sendTyz h.actJob.withTyz.sendTyz

theorem readIssued {k i ei : Nat} (h : Only P r s) (sub : [.ses] ⊆ P := by decide) : Only P r (s.readIssued k i ei) :=
  h.step sub fun _ h => h.onSeEnd.onJob

theorem execSeRead {k i : Nat} (h : Only P r s)
    (sub : [.out, .regs, .bus, .ras, .work, .ses, .sram, .cl, .tyz, .peers, .meter] ⊆ P := by decide) : Answers P r (execSeRead k i s) :=
  h.answer sub fun _ h => by
    unfold Machine.execSeRead
    refine h.onClock ?_
    split
    · exact h.passOver
    · split
      · exact h.passOver
      · split
        · exact h.passOver
        · extract_lets u a
          refine .ite h.passOver ?_
          refine .ite h.readIssued.emit.next ?_
          refine .ite h.readIssued.remoteRequest.next ?_
          refine .ite h.askUnit.next ?_
          split
          · exact h.badJob.next
          · exact h.readIssued.next

theorem unitBack {k i u' : Nat} {bs : List Byte} {poison : Bool} (h : Only P r s) (sub : [.grid, .work, .ses] ⊆ P := by decide) :
    Only P r (s.unitBack k i u' bs poison) :=
  h.step sub fun _ h => by
    unfold State.unitBack
    split
    · exact h
    · exact h.onJob.deliver

theorem hostOrMemory_ok {hits : List (Nat × Upset)} {j : SeJob} {u n : Nat} {l : List (List Byte × Bool)} (h : Only P r s)
    (e : s.hostOrMemory hits j u n = .ok t l) (sub : [.free, .out, .regs, .bus, .ras, .grid, .mods, .sram, .cl, .trace] ⊆ P := by decide) :
    Only P r t := by
  refine h.step sub fun _ h => ?_
  unfold State.hostOrMemory at e
  split at e
  · cases e
    exact h.strikeModules
  · exact h.strikeModules.memRead_ok e

theorem execModuleReadReturn {k i u' : Nat} {data : List Byte} {how : ReadEnd} {hits : List (Nat × Upset)} (h : Only P r s)
    (sub : [.free, .out, .regs, .bus, .ras, .grid, .work, .mods, .ses, .sram, .cl, .meter, .trace] ⊆ P := by decide) :
    Answers P r (execModuleReadReturn k i u' data how hits s) :=
  h.answer sub fun _ h => by
    unfold Machine.execModuleReadReturn
    refine h.onClock ?_
    split
    · exact h.passOver
    · refine .ite h.passOver ?_
      refine .ite (.ite h.unitBack.next h.badJob.next) ?_
      refine .ite h.passOver ?_
      split
      next t ps heq =>
        have h1 : Only _ _ t := h.hostOrMemory_ok heq
        exact h1.actJob.unitBack.next
      · exact h.badJob.next

theorem execBisnpResponse {k i : Nat} {answer : HostAnswer} (h : Only P r s) (sub : [.ses] ⊆ P := by decide) :
    Answers P r (execBisnpResponse k i answer s) :=
  h.answer sub fun _ h => by
    unfold Machine.execBisnpResponse
    refine h.onClock ?_
    split
    · exact h.passOver
    · split
      · exact h.onJob.next
      · exact h.passOver

theorem unitTaken {k i ei : Nat} {rest : List (List Byte × List Nat × Bool)} {moved unacked : Nat} (h : Only P r s)
    (sub : [.grid, .ses] ⊆ P := by decide) : Only P r (s.unitTaken k i ei rest moved unacked) :=
  h.step sub fun _ h => h.onSeEnd.seFreed.onJob

theorem execSeWrite {k i : Nat} {hits : List (Nat × Upset)} (h : Only P r s)
    (sub : [.out, .regs, .bus, .ras, .grid, .work, .mods, .modHeld, .ses, .sram, .cl, .tyz, .peers, .meter, .trace] ⊆ P := by decide) :
    Answers P r (execSeWrite k i hits s) :=
  h.answer sub fun _ h => by
    unfold Machine.execSeWrite
    refine h.onClock ?_
    split
    · exact h.passOver
    · split
      · exact h.passOver
      · split
        · exact h.passOver
        · split
          · exact h.passOver
          · extract_lets u a bs poison
            refine .ite h.passOver ?_
            refine .ite (.ite h.badJob.next h.unitTaken.progress.emit.next) ?_
            refine .ite h.passOver ?_
            refine .ite h.unitTaken.remoteRequest.next ?_
            refine .ite h.askUnit.next ?_
            split
            next t pieces heq =>
              have h1 : Only _ _ t := h.strikeModules.memWrite_ok heq
              exact h1.actJob.unitTaken.next
            · exact h.badJob.next

theorem migBound {k i : Nat} {j : SeJob} {u' : Nat} (h : Only P r s)
    (sub : [.out, .regs, .bus, .ras, .work, .ses, .sram, .cl] ⊆ P := by decide) : Only P r (s.migBound k i j u') :=
  h.step sub fun _ h => by
    unfold State.migBound
    refine .badJob ?_
    split
    · exact h.boundFault
    · exact h

theorem migCount {k n : Nat} (h : Only P r s) (sub : [.regs, .bus, .ras, .sram, .cl] ⊆ P := by decide) : Only P r (s.migCount k n) :=
  h.step sub fun _ h => .ite h.accumulate.setRegBit h.accumulate

theorem migLand {k i u' : Nat} {bs : List Byte} {poison : Bool} (h : Only P r s)
    (sub : [.out, .regs, .bus, .ras, .grid, .work, .ses, .sram, .cl, .trace] ⊆ P := by decide) : Only P r (s.migLand k i u' bs poison) :=
  h.step sub fun _ h => by
    unfold State.migLand
    split
    · exact h
    · split
      · exact h.migBound
      · exact h.spWrite.onJob.migCount

theorem unitIssued {k i : Nat} (h : Only P r s) (sub : [.ses] ⊆ P := by decide) : Only P r (s.unitIssued k i) :=
  h.step sub fun _ h => h.onJob

theorem execSeMigrateIn {k i : Nat} {hits : List (Nat × Upset)} (h : Only P r s)
    (sub : [.free, .out, .regs, .bus, .ras, .grid, .work, .mods, .ses, .sram, .cl, .tyz, .peers, .meter, .trace] ⊆ P := by decide) :
    Answers P r (execSeMigrateIn k i hits s) :=
  h.answer sub fun _ h => by
    unfold Machine.execSeMigrateIn
    refine h.onClock ?_
    split
    · exact h.passOver
    · refine .ite h.passOver ?_
      extract_lets u a
      refine .ite h.migBound.next ?_
      refine .ite h.unitIssued.remoteRequest.next ?_
      refine .ite h.askUnit.next ?_
      split
      next t ps heq =>
        have h1 : Only _ _ t := h.hostOrMemory_ok heq
        exact h1.actJob.unitIssued.migLand.next
      · exact h.badJob.next

theorem execSeMigrateOut {k i : Nat} {strike : List Upset} {hits : List (Nat × Upset)} (h : Only P r s)
    (sub : [.out, .regs, .bus, .ras, .grid, .work, .mods, .modHeld, .ses, .sram, .cl, .tyz, .peers, .meter, .trace] ⊆ P := by decide) :
    Answers P r (execSeMigrateOut k i strike hits s) :=
  h.answer sub fun _ h => by
    unfold Machine.execSeMigrateOut
    refine h.onClock ?_
    split
    · exact h.passOver
    · refine .ite h.passOver ?_
      extract_lets u a
      split
      · exact h.migBound.next
      · split
        next s1 bs ps heq =>
        have h2 : Only _ _ s1 := .fst heq h.strikeSlice.spRead
        refine .ite h2.askUnit.next ?_
        extract_lets s2
        refine .ite h2.unitIssued.migCount.onJob.remoteRequest.next ?_
        split
        next t pieces heq =>
          have h3 : Only _ _ t := h2.unitIssued.migCount.strikeModules.memWrite_ok heq
          exact h3.actJob.onJob.next
        · exact h.badJob.next

theorem pauseMigrations (h : Only P r s) (sub : [.ses] ⊆ P := by decide) : Only P r s.pauseMigrations := h.step sub fun _ h => h.withSes

theorem execMigrationResume {k : Nat} (h : Only P r s) (sub : [.ses] ⊆ P := by decide) : Answers P r (execMigrationResume k s) :=
  h.answer sub fun _ h => h.onClock (.ite h.setEngine.next h.passOver)

theorem jobDone {k i : Nat} {j : SeJob} (h : Only P r s) (sub : [.out, .regs, .bus, .ras, .ses, .sram, .cl] ⊆ P := by decide) :
    Only P r (s.jobDone k i j) :=
  h.step sub fun _ h => .ite h.setEngine h.setEngine.event

theorem answerRead {p : TyzPkt} {st : Nat} {bs : List Byte} {ps : List Nat} (h : Only P r s)
    (sub : [.out, .regs, .bus, .ras, .sram, .cl, .tyz, .peers, .meter] ⊆ P := by decide) : Only P r (s.answerRead p st bs ps) :=
  h.step sub fun _ h => h.actOwner.sendTyz

theorem answerWrite {p : TyzPkt} {st : Nat} (h : Only P r s)
    (sub : [.out, .regs, .bus, .ras, .sram, .cl, .tyz, .peers, .meter] ⊆ P := by decide) : Only P r (s.answerWrite p st) :=
  h.step sub fun _ h => h.actOwner.sendTyz

theorem execTyzRdReq {hits : List (Nat × Upset)} (h : Only P r s)
    (sub : [.free, .out, .regs, .bus, .ras, .grid, .mods, .sram, .cl, .tyz, .peers, .meter, .trace] ⊆ P := by decide) :
    Answers P r (execTyzRdReq hits s) :=
  h.answer sub fun _ h => by
    unfold Machine.execTyzRdReq
    refine h.onClock ?_
    split
    · exact h.passOver
    next s1 p heq =>
      have h1 : Only _ _ s1 := h.takeDelivered heq
      refine .ite h1.answerRead.next ?_
      split
      next t ps heq =>
        have h2 : Only _ _ t := h1.strikeModules.memRead_ok heq
        exact h2.answerRead.next
      · exact h1.answerRead.next

theorem execTyzWr {hits : List (Nat × Upset)} (h : Only P r s)
    (sub : [.out, .regs, .bus, .ras, .grid, .mods, .modHeld, .sram, .cl, .tyz, .peers, .meter, .trace] ⊆ P := by decide) :
    Answers P r (execTyzWr hits s) :=
  h.answer sub fun _ h => by
    unfold Machine.execTyzWr
    refine h.onClock ?_
    split
    · exact h.passOver
    next s1 p heq =>
      have h1 : Only _ _ s1 := h.takeDelivered heq
      refine .ite h1.answerWrite.next ?_
      split
      next t pieces heq =>
        have h2 : Only _ _ t := h1.strikeModules.memWrite_ok heq
        exact h2.answerWrite.next
      · exact h1.answerWrite.next

theorem takeRma {tag : Nat} {write : Bool} {x : Rma} (h : Only P r s) (e : s.takeRma tag write = some (t, x))
    (sub : [.tyz] ⊆ P := by decide) : Only P r t := by
  unfold State.takeRma at e
  split at e
  · cases e
  · cases e
    exact h.step sub fun _ h => h.withTyz

theorem jobFlits {k i n : Nat} (h : Only P r s) (sub : [.meter] ⊆ P := by decide) : Only P r (s.jobFlits k i n) :=
  h.step sub fun _ h => by
    unfold State.jobFlits
    split
    · exact h.actJob
    · exact h

theorem responseData {p : TyzPkt} {r' : Rma} {i : Nat} (h : Only P r s)
    (sub : [.out, .regs, .bus, .ras, .grid, .work, .ses, .sram, .cl, .meter, .trace] ⊆ P := by decide) : Only P r (s.responseData p r' i) :=
  h.step sub fun _ h => .ite h.jobFlits.badJob (.ite h.jobFlits.migLand h.jobFlits.unitBack)

theorem writeAcked {p : TyzPkt} {r' : Rma} {i : Nat} (h : Only P r s) (sub : [.work, .ses, .meter] ⊆ P := by decide) :
    Only P r (s.writeAcked p r' i) :=
  h.step sub fun _ h => .ite h.jobFlits.badJob h.jobFlits.onJob

theorem execTyzRdRsp (h : Only P r s)
    (sub : [.out, .regs, .bus, .ras, .grid, .work, .ses, .sram, .cl, .tyz, .meter, .trace] ⊆ P := by decide) :
    Answers P r (execTyzRdRsp s) :=
  h.answer sub fun _ h => by
    unfold Machine.execTyzRdRsp
    refine h.onClock ?_
    split
    · exact h.passOver
    next s1 p heq =>
      have h1 : Only _ _ s1 := h.takeDelivered heq
      split
      · exact h1.next
      next s2 r heq =>
        have h2 : Only _ _ s2 := h1.takeRma heq
        split
        · exact h2.next
        · exact .ite h.passOver h2.responseData.next

theorem execTyzWrAck (h : Only P r s) (sub : [.work, .ses, .tyz, .meter] ⊆ P := by decide) : Answers P r (execTyzWrAck s) :=
  h.answer sub fun _ h => by
    unfold Machine.execTyzWrAck
    refine h.onClock ?_
    split
    · exact h.passOver
    next s1 p heq =>
      have h1 : Only _ _ s1 := h.takeDelivered heq
      split
      · exact h1.next
      next s2 r heq =>
        have h2 : Only _ _ s2 := h1.takeRma heq
        split
        · exact h2.next
        · exact h2.writeAcked.next

theorem execTyzRmaTimeout {tag : Nat} {at_ : Dword} (h : Only P r s) (sub : [.tb, .work, .ses, .tyz] ⊆ P := by decide) :
    Answers P r (execTyzRmaTimeout tag at_ s) :=
  h.answer sub fun _ h => by
    unfold Machine.execTyzRmaTimeout
    refine h.onClock ?_
    extract_lets t src
    split
    · exact h.passOver
    · refine .ite h.passOver ?_
      extract_lets t1
      split
      · exact h.advance.withTyz.next
      · exact h.advance.withTyz.badJob.next

theorem flushJobs {region : Nat} (h : Only P r s) (sub : [.grid, .work, .ses] ⊆ P := by decide) : Only P r (s.flushJobs region) :=
  h.step sub fun _ h => by
    unfold State.flushJobs
    refine h.foldl fun _ _ h1 => ?_
    refine h1.foldl fun _ _ h2 => ?_
    split
    · exact .ite h2.deliver h2
    · exact h2

end Only
end Sys2Proof.Machine
end

/-! ### What the operations of presses may change (`Machine/Press.lean`) -/

section
open Sys2Proof
namespace Sys2Proof.Machine
namespace Only
set_option Elab.async false
variable {P Q : List Piece} {r s t : State}

theorem setPress {c : Nat} {p : Press} (h : Only P r s) (sub : [.press] ⊆ P := by decide) : Only P r (s.setPress c p) :=
  h.step sub fun _ h => h.withPress

theorem onPressQ {c q : Nat} {f : PressQ → PressQ} (h : Only P r s) (sub : [.press] ⊆ P := by decide) : Only P r (s.onPressQ c q f) :=
  h.step sub fun _ h => h.setPress

theorem showQueue {c q seq status : Nat} (h : Only P r s) (sub : [.regs] ⊆ P := by decide) : Only P r (s.showQueue c q seq status) :=
  h.step sub fun _ h => h.setFld

theorem resetQueue {c q : Nat} (h : Only P r s) (sub : [.regs, .press] ⊆ P := by decide) : Only P r (s.resetQueue c q) :=
  h.step sub fun _ h => h.setPress.onPressQ.showQueue

theorem issueCmd {c q : Nat} {pr : PressPair} {ei : Nat} {cmd : List Byte × Bool} {n : Nat} (h : Only P r s)
    (sub : [.regs, .grid, .press, .ses] ⊆ P := by decide) : Only P r (s.issueCmd c q pr ei cmd n) :=
  h.step sub fun _ h => h.onSeEnd.seFreed.onPressQ.showQueue

theorem execPressCmdIssue {c q : Nat} {at_ : Dword} (h : Only P r s)
    (sub : [.tb, .regs, .bus, .ras, .grid, .work, .press, .ses, .sram, .cl] ⊆ P := by decide) : Answers P r (execPressCmdIssue c q at_ s) :=
  h.answer sub fun _ h => by
    unfold Machine.execPressCmdIssue
    refine h.onClock ?_
    extract_lets t x
    split
    · exact h.passOver
    · split
      · exact h.passOver
      · split
        · exact h.passOver
        · split
          · exact h.passOver
          · extract_lets n
            refine .ite h.passOver ?_
            exact .ite h.passOver (.ite h.passOver (.ite h.advance.bump.faultRegion.next h.advance.issueCmd.next))

theorem acceptCmd {c q slot : Nat} {bs : List Byte} {poison : Bool} (h : Only P r s)
    (sub : [.regs, .bus, .ras, .press, .sram, .cl, .meter] ⊆ P := by decide) : Only P r (s.acceptCmd c q slot bs poison) :=
  h.step sub fun _ h => h.setPress.onPressQ.bump.actRegion

theorem execPressCmdAccept {c q slot : Nat} {at_ : Dword} (h : Only P r s)
    (sub : [.tb, .regs, .bus, .ras, .press, .sram, .cl, .meter] ⊆ P := by decide) : Answers P r (execPressCmdAccept c q slot at_ s) :=
  h.answer sub fun _ h => by
    unfold Machine.execPressCmdAccept
    refine h.onClock ?_
    extract_lets t
    split
    · exact h.passOver
    · exact .ite h.passOver h.advance.acceptCmd.next

theorem readSegment {c off x : Nat} (h : Only P r s) (sub : [.free, .out, .regs, .bus, .ras, .mods, .sram, .cl, .trace] ⊆ P := by decide) :
    Only P r (s.readSegment c off x).1 :=
  h.step sub fun _ h => by
    clear * - h
    induction x generalizing s c off with
    | zero => exact h.res
    | succ n ih =>
      unfold State.readSegment
      split
      next s1 p heq =>
      have h4 : Only _ _ s1 := .fst heq h.memReadGranule
      split
      next s2 b heq =>
      have h6 : Only _ _ s2 := .fst heq h4.viewBytes
      split
      next s3 r q heq =>
      have h7 : Only _ _ s3 := .fst heq (ih h6)
      exact h7.res

theorem onCmd {c q seq : Nat} {f : PressCmd → PressCmd} (h : Only P r s) (sub : [.press] ⊆ P := by decide) : Only P r (s.onCmd c q seq f) :=
  h.step sub fun _ h => h.onPressQ

theorem burst {c q : Nat} {m : PressCmd} (h : Only P r s)
    (sub : [.free, .out, .regs, .bus, .ras, .mods, .press, .sram, .cl, .meter, .trace] ⊆ P := by decide) : Only P r (s.burst c q m) :=
  h.step sub fun _ h => by
    unfold State.burst
    split
    next t1 bs ps heq =>
    have h1 : Only _ _ t1 := .fst heq h.readSegment
    extract_lets fin p1 t2 t3 wait
    have ht3 : Only _ _ t3 := h1.setPress.onCmd.bump.actRegion
    exact .ite ht3 ht3.accumulate

theorem execPressBurstStart {c : Nat} {at_ : Dword} {hits : List (Nat × Upset)} (h : Only P r s)
    (sub : [.free, .out, .tb, .regs, .bus, .ras, .work, .mods, .press, .sram, .cl, .meter, .trace] ⊆ P := by decide) :
    Answers P r (execPressBurstStart c at_ hits s) :=
  h.answer sub fun _ h => by
    unfold Machine.execPressBurstStart
    refine h.onClock ?_
    extract_lets t p
    split
    · exact h.passOver
    · refine .ite h.passOver ?_
      exact .ite h.advance.strikeModules.onCmd.bump.faultRegion.next h.advance.strikeModules.burst.next

theorem pressWeights {m : Nat} {x : List Nat} (h : Only P r s) (sub : [.free] ⊆ P := by decide) : Only P r (s.pressWeights m x).1 :=
  h.step sub fun _ h => by
    clear * - h
    induction x generalizing s m with
    | nil => exact h.res
    | cons x xs ih =>
      unfold State.pressWeights
      split
      next d s1 heq =>
      have h2 : Only _ _ s1 := .snd heq h.takeFree
      split
      next s2 ws heq =>
      have h3 : Only _ _ s2 := .fst heq (ih h2)
      exact h3.res

theorem pressBlock {bytes : List Byte} {qo used : Nat} {key val : List Byte} {a : PressAcc} (h : Only P r s)
    (sub : [.free] ⊆ P := by decide) : Only P r (s.pressBlock bytes qo used key val a).1 :=
  h.step sub fun _ h => by
    unfold State.pressBlock
    extract_lets toks bad sc m
    refine .iteFst h.res ?_
    split
    next s1 ws heq =>
    have h4 : Only _ _ s1 := .fst heq h.pressWeights
    extract_lets sum os
    split
    next d1 s2 heq =>
    have h6 : Only _ _ s2 := .snd heq h4.takeFree
    split
    next d2 s3 heq =>
    have h7 : Only _ _ s3 := .snd heq h6.takeFree
    extract_lets r ovf
    exact h7.res

theorem pressBlocks {m : PressCmd} {qo : Nat} {a : PressAcc} {x : List Nat} (h : Only P r s) (sub : [.free] ⊆ P := by decide) :
    Only P r (s.pressBlocks m qo a x).1 :=
  h.step sub fun _ h => by
    clear * - h
    induction x generalizing s m qo a with
    | nil => exact h.res
    | cons k ks ih =>
      unfold State.pressBlocks
      extract_lets used
      exact ih h.pressBlock

theorem pressQueries {m : PressCmd} {run : List Triple} {x : List Nat} (h : Only P r s) (sub : [.free] ⊆ P := by decide) :
    Only P r (s.pressQueries m run x).1 :=
  h.step sub fun _ h => by
    clear * - h
    induction x generalizing s m run with
    | nil => exact h.res
    | cons j js ih =>
      unfold State.pressQueries
      extract_lets a poison
      split
      next s1 a1 heq =>
      have h2 : Only _ _ s1 := .fst heq h.pressBlocks
      split
      next s2 r heq =>
      have h3 : Only _ _ s2 := .fst heq (ih h2)
      exact h3.res

theorem execPressAttn {c q : Nat} (h : Only P r s) (sub : [.free, .press] ⊆ P := by decide) : Answers P r (execPressAttn c q s) :=
  h.answer sub fun _ h => by
    unfold Machine.execPressAttn
    refine h.onClock ?_
    split
    · exact h.passOver
    · exact .ite h.passOver h.pressQueries.onCmd.next

theorem completeCmd {c q : Nat} {m : PressCmd} (h : Only P r s) (sub : [.press] ⊆ P := by decide) : Only P r (s.completeCmd c q m) :=
  h.step sub fun _ h => by
    unfold State.completeCmd
    exact h.setPress.onPressQ

theorem execPressCmdComplete {c q : Nat} {at_ : Dword} (h : Only P r s) (sub : [.tb, .press] ⊆ P := by decide) :
    Answers P r (execPressCmdComplete c q at_ s) :=
  h.answer sub fun _ h => by
    unfold Machine.execPressCmdComplete
    refine h.onClock ?_
    extract_lets t
    split
    · exact h.passOver
    · exact .ite h.passOver h.advance.completeCmd.next

theorem pressDeliver {c q k ei x : Nat} (h : Only P r s) (sub : [.grid, .press, .ses] ⊆ P := by decide) :
    Only P r (s.pressDeliver c q k ei x) :=
  h.step sub fun _ h => by
    clear * - h
    induction x generalizing s c q k ei with
    | zero => exact h
    | succ n ih =>
      unfold State.pressDeliver
      split
      · exact .ite h (ih h.onPressQ.onSeEnd.engineSend)
      · exact h

theorem pressReduce {pr : PressPair} {body : List Byte} {poison ovf inv : Bool} {x : List Nat} (h : Only P r s)
    (sub : [.out, .regs, .bus, .ras, .grid, .work, .sram, .cl] ⊆ P := by decide) : Only P r (s.pressReduce pr body poison ovf inv x) :=
  h.step sub fun _ h => by
    clear * - h
    induction x generalizing s pr body poison ovf inv with
    | nil => exact h
    | cons j js ih =>
      unfold State.pressReduce
      split
      · exact h
      · exact ih h.withWork.reduceArrive

theorem takeResult {c q : Nat} {pr : PressPair} {bs : List Byte} {poison : Bool} (h : Only P r s)
    (sub : [.out, .regs, .bus, .ras, .grid, .work, .press, .sram, .cl, .meter] ⊆ P := by decide) :
    Only P r (s.takeResult c q pr bs poison) :=
  h.step sub fun _ h => .ite h.actRegion.pressReduce h.actRegion.onPressQ.vxFlag

theorem pressStatus {c : Nat} {pr : PressPair} {status : Nat} (h : Only P r s)
    (sub : [.out, .regs, .bus, .ras, .work, .sram, .cl] ⊆ P := by decide) : Only P r (s.pressStatus c pr status) :=
  h.step sub fun _ h => .ite h.faultRegion (.ite h.faultRegion (.ite h.event.faultRegion h))

theorem pressSeen {c q : Nat} {pr : PressPair} {x : List (Nat × Bool)} (h : Only P r s)
    (sub : [.out, .regs, .bus, .ras, .grid, .work, .press, .sram, .cl, .meter] ⊆ P := by decide) : Only P r (s.pressSeen c q pr x) :=
  h.step sub fun _ h => by
    clear * - h
    induction x generalizing s with
    | nil => exact h
    | cons e rest ih =>
      obtain ⟨seq, chain⟩ := e
      unfold State.pressSeen
      refine ih (.ite (.ite h.onPressQ.pressStatus h.onPressQ) ?_)
      split
      · exact h.onPressQ
      · exact .ite h.onPressQ.takeResult h.onPressQ.pressStatus

theorem pollQcomp {c q : Nat} {pr : PressPair} (h : Only P r s)
    (sub : [.out, .regs, .bus, .ras, .grid, .work, .press, .ses, .sram, .cl, .meter] ⊆ P := by decide) : Only P r (s.pollQcomp c q pr) :=
  h.step sub fun _ h => by
    unfold State.pollQcomp
    extract_lets x upTo t2
    refine .via (x := t2) ?_ fun ht2 => ?_
    · unfold t2
      clear_value upTo
      split
      · exact h
      · exact h.pressSeen.showQueue
    · split
      · exact ht2
      · exact ht2.pressDeliver

theorem execPressQcompPoll {c q : Nat} {at_ : Dword} (h : Only P r s)
    (sub : [.out, .tb, .regs, .bus, .ras, .grid, .work, .press, .ses, .sram, .cl, .meter] ⊆ P := by decide) :
    Answers P r (execPressQcompPoll c q at_ s) :=
  h.answer sub fun _ h => by
    unfold Machine.execPressQcompPoll
    refine h.onClock ?_
    extract_lets t x
    split
    · exact h.passOver
    · exact .ite h.passOver h.advance.pollQcomp.next

theorem pressTimedOut {c q : Nat} {m : PressCmd} {pr : PressPair} (h : Only P r s)
    (sub : [.out, .regs, .bus, .ras, .work, .press, .sram, .cl, .trace] ⊆ P := by decide) : Only P r (s.pressTimedOut c q m pr) :=
  h.step sub fun _ h => h.onCmd.bump.event.rasReport.faultRegion

theorem execPressTimeout {c q : Nat} {at_ : Dword} (h : Only P r s)
    (sub : [.out, .tb, .regs, .bus, .ras, .work, .press, .sram, .cl, .trace] ⊆ P := by decide) : Answers P r (execPressTimeout c q at_ s) :=
  h.answer sub fun _ h => by
    unfold Machine.execPressTimeout
    refine h.onClock ?_
    extract_lets t x
    split
    · exact .ite h.passOver h.advance.pressTimedOut.next
    · exact h.passOver

theorem execPressQueueReset {c q : Nat} (h : Only P r s) (sub : [.regs, .press] ⊆ P := by decide) :
    Answers P r (execPressQueueReset c q s) :=
  h.answer sub fun _ h => h.onClock (.ite h.resetQueue.next h.passOver)

theorem goHot {c : Nat} {temp : Int} (h : Only P r s) (sub : [.mods, .press] ⊆ P := by decide) : Only P r (s.goHot c temp) :=
  h.step sub fun _ h => h.setModule.setPress

theorem execPressHot {c : Nat} {temp : Int} (h : Only P r s) (sub : [.mods, .press] ⊆ P := by decide) :
    Answers P r (execPressHot c temp s) :=
  h.answer sub fun _ h => h.onClock (.ite h.passOver h.goHot.next)

end Only
end Sys2Proof.Machine
end

/-! ### What the operations of channels may change (`Machine/Channels.lean`) -/

section
open Sys2Proof
namespace Sys2Proof.Machine
namespace Only
set_option Elab.async false
variable {P Q : List Piece} {r s t : State}

theorem setMemSts {c bit : Nat} {b : Bool} (h : Only P r s) (sub : [.regs] ⊆ P := by decide) : Only P r (s.setMemSts c bit b) :=
  h.step sub fun _ h => h.setRegBit

theorem identify {c : Nat} {d : Spd} (h : Only P r s) (sub : [.out, .regs, .bus, .ras, .press, .sram, .cl] ⊆ P := by decide) :
    Only P r (s.identify c d) :=
  h.step sub fun _ h => by
    unfold State.identify
    extract_lets ok s1 src s2 s3 s4
    have hs3 : Only _ _ s3 := h.setMemSts.setFld.setPress.setFld
    have hs4 : Only _ _ s4 := hs3.foldl fun _ _ h1 => h1.showQueue
    exact .ite hs4.event hs4

theorem trainFailed {c : Nat} (h : Only P r s) (sub : [.out, .regs, .bus, .ras, .mods, .sram, .cl] ⊆ P := by decide) :
    Only P r (s.trainFailed c) :=
  h.step sub fun _ h => h.setModule.event.channelCause

theorem channelUp {c : Nat} {spd : Spd} (h : Only P r s)
    (sub : [.out, .regs, .bus, .ras, .cal, .mods, .press, .sram, .cl] ⊆ P := by decide) : Only P r (s.channelUp c spd) :=
  h.step sub fun _ h => h.setModule.setMemSts.setFld.identify.calDeskew.channelCause

theorem execChannelBringup {c : Nat} {spd : Spd} {trains : Bool} (h : Only P r s)
    (sub : [.out, .regs, .bus, .ras, .cal, .mods, .press, .sram, .cl] ⊆ P := by decide) : Answers P r (execChannelBringup c spd trains s) :=
  h.answer sub fun _ h => h.onClock (.ite h.passOver (.ite h.setMemSts.channelCause.next ((Only.ite h.channelUp h.trainFailed).next)))

theorem loseChannel {c : Nat} (h : Only P r s) (sub : [.out, .regs, .bus, .ras, .work, .ses, .sram, .cl, .sys, .trace] ⊆ P := by decide) :
    Only P r (s.loseChannel c) :=
  h.step sub fun _ h => by
    unfold State.loseChannel
    extract_lets hit es regions s1 s2 s3 src
    have hs1 : Only _ _ s1 := h.withSes.foldl fun _ _ h1 => h1.faultRegion
    have hs3 : Only _ _ s3 := hs1.setMemSts.setMemSts.event.rasReport.channelCause
    exact hs3.withSys

theorem execChannelLost {c why : Nat} (h : Only P r s)
    (sub : [.out, .regs, .bus, .ras, .work, .ses, .sram, .cl, .sys, .trace] ⊆ P := by decide) : Answers P r (execChannelLost c why s) :=
  h.answer sub fun _ h => h.onClock (.ite h.passOver h.loseChannel.next)

theorem execChanRestoredWrite {rq : Req} {val : Word} (h : Only P r s)
    (sub : [.out, .tb, .regs, .bus, .ras, .rind, .sram, .cl, .nv, .sys, .trace] ⊆ P := by decide) :
    Answers P r (execChanRestoredWrite rq val s) :=
  h.answer sub fun _ h => (h.busWrite (fun _ h1 => (Only.ite h1.withSys h1).res)).next

theorem showIlv (h : Only P r s) (sub : [.regs] ⊆ P := by decide) : Only P r s.showIlv := h.step sub fun _ h => h.setFld.setFld

theorem reformIlv (h : Only P r s) (sub : [.out, .regs, .bus, .ras, .mods, .sram, .cl, .sys] ⊆ P := by decide) : Only P r s.reformIlv :=
  h.step sub fun _ h => by
    unfold State.reformIlv
    extract_lets src s0 old s1 ms s2 host src' s3
    have hs0 : Only _ _ s0 := .ite h.withSys h
    exact .ite hs0 (.ite hs0.showIlv (.ite hs0.showIlv.withMods.withSys.event hs0.showIlv.withMods.withSys))

theorem peerFallback {reachable : Nat → Bool} (h : Only P r s) (sub : [.out, .regs, .bus, .ras, .sram, .cl, .sys] ⊆ P := by decide) :
    Only P r (s.peerFallback reachable) :=
  h.step sub fun _ h => .ite h.withSys.event h

end Only
end Sys2Proof.Machine
end

/-! ### What the operations of releases may change (`Machine/Release.lean`) -/

section
open Sys2Proof
namespace Sys2Proof.Machine
namespace Only
set_option Elab.async false
variable {P Q : List Piece} {r s t : State}

theorem imageBytes {addr kind len : Nat} {given : List Byte} (h : Only P r s)
    (sub : [.free, .out, .regs, .bus, .ras, .grid, .mods, .sram, .cl, .trace] ⊆ P := by decide) :
    Only P r (s.imageBytes addr kind len given).1 :=
  h.step sub fun _ h => by
    unfold State.imageBytes
    refine .iteFst ?_ h.res
    split
    next t ps heq =>
      have h1 : Only _ _ t := h.memRead_ok heq
      exact h1.res
    · exact h.res

theorem execDescLoad {d : Nat} {place : Placement} {image : List Byte} (h : Only P r s)
    (sub : [.free, .out, .regs, .bus, .ras, .grid, .work, .mods, .sram, .cl, .trace] ⊆ P := by decide) :
    Answers P r (execDescLoad d place image s) :=
  h.answer sub fun _ h => by
    unfold Machine.execDescLoad
    refine h.onClock ?_
    split
    · exact h.passOver
    · refine .ite h.passOver ?_
      split
      next t bs heq =>
        have h1 : Only _ _ t := .fst heq h.imageBytes
        exact h1.beginLoad.next
      next t e heq =>
        have h2 : Only _ _ t := .fst heq h.imageBytes
        exact h2.post.next

theorem installTables {t' : Sect} (h : Only P r s) (sub : [.grid] ⊆ P := by decide) : Only P r (s.installTables t') :=
  h.step sub fun _ h => by
    unfold State.installTables
    extract_lets s1
    refine .via (x := s1) ?_ fun hs1 => ?_
    · unfold s1
      refine h.foldl fun _ _ h1 => ?_
      extract_lets r
      split
      · exact h1.setRouter
      · exact h1
    · refine hs1.foldl fun _ _ h2 => ?_
      extract_lets r
      split
      · exact h2.setRouter
      · exact h2

theorem bindEnd {t' : Sect} {i : Nat} {peer : Nat × Nat × Nat} {bound : Nat} (h : Only P r s) (sub : [.grid] ⊆ P := by decide) :
    Only P r (s.bindEnd t' i peer bound) :=
  h.step sub fun _ h => by
    unfold State.bindEnd
    split
    · exact h
    · exact h.onEnd

theorem bindPair {t' : Sect} {i : Nat} {u' : Sect} {j : Nat} (h : Only P r s) (sub : [.grid] ⊆ P := by decide) :
    Only P r (s.bindPair t' i u' j) :=
  h.step sub fun _ h => by
    unfold State.bindPair
    split
    · exact .ite h.bindEnd.bindEnd h
    · exact h

theorem bindEngine {t' : Sect} {i k : Nat} (h : Only P r s) (sub : [.grid, .ses] ⊆ P := by decide) : Only P r (s.bindEngine t' i k) :=
  h.step sub fun _ h => by
    unfold State.bindEngine
    split
    · exact h
    · refine .ite h ?_
      extract_lets pos bridge coll peerB b leaves e g s1 rt s2
      refine .via (x := s2) ?_ fun hs2 => ?_
      · unfold s2
        split
        · exact h.setEngine.bindEnd.setRouter
        · exact h.setEngine.bindEnd
      · refine .ite ?_ hs2
        refine hs2.foldl fun _ _ h1 => ?_
        split
        · exact .ite h1.bindEnd h1
        · exact h1

theorem bindPress {t' : Sect} {i : Nat} (h : Only P r s) (sub : [.regs, .press] ⊆ P := by decide) : Only P r (s.bindPress t' i) :=
  h.step sub fun _ h => by
    unfold State.bindPress
    split
    · exact h
    · split
      · exact h.resetQueue.onPressQ.setFld
      · exact h

theorem askReservation {t' : Sect} {r' : StreamRec} (h : Only P r s) (sub : [.tyz] ⊆ P := by decide) : Only P r (s.askReservation t' r') :=
  h.step sub fun _ h => .ite h h.withTyz

theorem replan {t' : Sect} {i : Nat} (h : Only P r s) (sub : [.work] ⊆ P := by decide) : Only P r (s.replan t' i) :=
  h.step sub fun _ h => h.withWork

theorem bindRecord {t' : Sect} {i : Nat} (h : Only P r s) (sub : [.regs, .grid, .work, .press, .ses, .tyz] ⊆ P := by decide) :
    Only P r (s.bindRecord t' i) :=
  h.step sub fun _ h => by
    unfold State.bindRecord
    split
    · exact h
    · refine .ite ?_ ?_
      · refine .ite ?_ ?_
        · split
          · split
            · split
              · exact h.bindPair.replan.replan
              · exact h
            · exact h
          · exact h
        · split
          · exact h.bindPair
          · exact h
      · split
        · exact h
        · extract_lets s1 s2
          have hs2 : Only _ _ s2 := .ite h.bindEngine.bindPress h.bindEngine
          exact .ite hs2.askReservation hs2

theorem bindSect {t' : Sect} (h : Only P r s) (sub : [.regs, .grid, .work, .press, .ses, .tyz] ⊆ P := by decide) :
    Only P r (s.bindSect t') :=
  h.step sub fun _ h => by
    unfold State.bindSect
    extract_lets s1 s2 xoOf src
    have hs1 : Only _ _ s1 := h.foldl fun _ _ h1 => h1.bindRecord
    have hs2 : Only _ _ s2 := hs1.foldl fun _ _ h2 => h2.foldl fun _ _ h3 => .ite h3.bindRecord h3
    exact hs2.withWork

theorem releaseLoad {l : Load} (h : Only P r s)
    (sub : [.out, .regs, .bus, .ras, .grid, .work, .press, .ses, .sram, .cl, .tyz] ⊆ P := by decide) : Only P r (s.releaseLoad l) :=
  h.step sub fun _ h => by
    unfold State.releaseLoad
    split
    · exact h.dropLoad
    · extract_lets s1 p t src s2 s3 s4
      refine .via (x := s1) ?_ fun hs1 => ?_
      · unfold s1
        split
        · exact h.unloadSect
        · exact h
      · have hs4 : Only _ _ s4 := hs1.withWork.installTables.onSect.regionEvent.bindSect
        exact hs4.dropLoad.loadPost

theorem carryUnload {d sid : Nat} (h : Only P r s) (sub : [.regs, .grid, .work, .press, .ses, .tyz] ⊆ P := by decide) :
    Only P r (s.carryUnload d sid) :=
  h.step sub fun _ h => by
    unfold State.carryUnload
    extract_lets loads s1 s2
    refine .via (x := s1) ?_ fun hs1 => ?_
    · unfold s1
      refine h.foldl fun _ _ h1 => ?_
      extract_lets b
      have hb : Only _ _ b := .ite h1.onRegion h1
      exact hb.dropLoad.loadPost
    · refine .via (x := s2) ?_ fun hs2 => ?_
      · unfold s2
        split
        · exact hs1.unloadSect
        · exact hs1
      · exact hs2.post

theorem step4 (h : Only P r s) (sub : [.out, .regs, .bus, .ras, .grid, .work, .press, .ses, .sram, .cl, .tyz] ⊆ P := by decide) :
    Only P r s.step4 :=
  h.step sub fun _ h => by
    unfold State.step4
    extract_lets s1 src s2 ready
    have hs1 : Only _ _ s1 := h.foldl fun _ _ h1 => h1.carryUnload
    exact hs1.withWork.foldl fun _ _ h2 => .ite h2.releaseLoad h2

theorem onSectRec {region : Nat} {f : Sect → Sect} (h : Only P r s) (sub : [.work] ⊆ P := by decide) : Only P r (s.onSectRec region f) :=
  h.step sub fun _ h => h.withWork

theorem installFlow {region i : Nat} {plan : List (Nat × Nat × Nat)} {known : Bool} (h : Only P r s)
    (sub : [.out, .regs, .bus, .ras, .grid, .work, .sram, .cl] ⊆ P := by decide) : Only P r (s.installFlow region i plan known) :=
  h.step sub fun _ h => by
    unfold State.installFlow
    extract_lets bad s1
    have hs1 : Only _ _ s1 := .ite h (h.foldl fun _ _ h1 => h1.event)
    exact .ite ((h.foldl fun _ _ h2 => h2.setRouter).onSectRec) hs1.onSectRec

theorem installSlots {t' : Sect} (h : Only P r s) (sub : [.out, .regs, .bus, .ras, .grid, .work, .sram, .cl] ⊆ P := by decide) :
    Only P r (s.installSlots t') :=
  h.step sub fun _ h => h.onSectRec.foldl fun _ _ h1 => h1.installFlow

theorem installRsv (h : Only P r s) (sub : [.out, .regs, .bus, .ras, .sram, .cl, .tyz] ⊆ P := by decide) : Only P r s.installRsv :=
  h.step sub fun _ h => by
    unfold State.installRsv
    extract_lets src clear s1
    have hclear : Only _ _ clear := h.withTyz.foldl fun _ _ h1 => h1.setPort
    refine .via (x := s1) ?_ fun hs1 => ?_
    · unfold s1
      refine hclear.foldl fun _ _ h2 => ?_
      split
      · exact .ite (h2.foldl fun _ _ h3 => h3.setPort) (.ite h2.withTyz h2.withTyz.event)
    · exact hs1.foldl fun _ _ h4 => h4.setFld.setFld

theorem installTyz (h : Only P r s) (sub : [.out, .regs, .bus, .ras, .sram, .cl, .tyz] ⊆ P := by decide) : Only P r s.installTyz :=
  h.step sub fun _ h => by
    unfold State.installTyz
    extract_lets due src s1 src' s2 src'' s3
    have hs1 : Only _ _ s1 := .ite h.withTyz.setFld h
    exact hs1.withTyz.withTyz.installRsv

theorem step6 (h : Only P r s) (sub : [.out, .regs, .bus, .ras, .grid, .work, .sram, .cl, .tyz] ⊆ P := by decide) : Only P r s.step6 :=
  h.step sub fun _ h => by
    unfold State.step6
    extract_lets src s1 s2
    have hs2 : Only _ _ s2 := h.withGrid.foldl fun _ _ h1 => h1.installSlots
    exact hs2.installTyz

end Only
end Sys2Proof.Machine
end

/-! ### What the operations of runs may change (`Machine/Runs.lean`) -/

section
open Sys2Proof
namespace Sys2Proof.Machine
namespace Only
set_option Elab.async false
variable {P Q : List Piece} {r s t : State}

theorem saveCell {n pos : Nat} {bad : List Nat} (h : Only P r s)
    (sub : [.out, .regs, .bus, .ras, .grid, .sram, .cl, .trace] ⊆ P := by decide) : Only P r (s.saveCell n pos bad) :=
  h.step sub fun _ h => .ite h h.bankRead.bankRead.spWrite.setCtx

theorem restoreCell {n pos : Nat} (h : Only P r s) (sub : [.out, .regs, .bus, .ras, .grid, .sram, .cl, .trace] ⊆ P := by decide) :
    Only P r (s.restoreCell n pos) :=
  h.step sub fun _ h => .ite h h.spRead.setMatrix.setCtx

theorem restoreRed {t' : Sect} (h : Only P r s) (sub : [.out, .regs, .bus, .ras, .grid, .work, .sram, .cl] ⊆ P := by decide) :
    Only P r (s.restoreRed t') :=
  h.step sub fun _ h => h.foldl fun _ _ h1 => h1.foldl fun _ _ h2 => h2.reduceArrive

theorem dropJobs {region : Nat} (h : Only P r s) (sub : [.ses] ⊆ P := by decide) : Only P r (s.dropJobs region) :=
  h.step sub fun _ h => h.foldl fun _ _ h1 => .ite h1 h1.setEngine

theorem startJobs {t' : Sect} {d : Desc} (h : Only P r s) (sub : [.regs, .work, .ses, .sram, .cl] ⊆ P := by decide) :
    Only P r (s.startJobs t' d) :=
  h.step sub fun _ h => by
    unfold State.startJobs
    refine h.dropJobs.foldl fun _ _ h1 => ?_
    split
    · exact .ite h1.postDescr (.ite h1.setEngine h1)
    · exact h1

theorem dropOps {t' : Sect} (h : Only P r s) (sub : [.grid] ⊆ P := by decide) : Only P r (s.dropOps t') :=
  h.step sub fun _ h => h.foldl fun _ _ h1 => h1.setCell

theorem forgetAsked {region : Nat} (h : Only P r s) (sub : [.ses] ⊆ P := by decide) : Only P r (s.forgetAsked region) :=
  h.step sub fun _ h => h.withSes

theorem startRun {t' : Sect} {r' : Run} (h : Only P r s)
    (sub : [.out, .regs, .bus, .ras, .grid, .work, .ses, .sram, .cl, .trace] ⊆ P := by decide) : Only P r (s.startRun t' r') :=
  h.step sub fun _ h => by
    unfold State.startRun
    extract_lets s0 s1 src s2 s3
    have hs0 : Only _ _ s0 := .ite h h.dropOps
    have hs1 : Only _ _ s1 := hs0.foldl fun _ _ h1 => h1.setCell
    refine .ite ((hs1.withWork.forgetAsked.onSectRec.foldl fun _ _ h2 => h2.restoreCell).restoreRed) ?_
    split
    · exact hs1.withWork.forgetAsked.onSectRec.startJobs
    · exact hs1.withWork.forgetAsked.onSectRec

theorem execRunStart {sid : Nat} (h : Only P r s)
    (sub : [.out, .tb, .regs, .bus, .ras, .grid, .work, .ses, .sram, .cl, .trace] ⊆ P := by decide) : Answers P r (execRunStart sid s) :=
  h.answer sub fun _ h => by
    unfold Machine.execRunStart
    split
    · exact h.passOver
    · split
      · exact h.passOver
      · extract_lets s1
        exact .ite h.passOver (.ite h.passOver h.advance.startRun.next)

theorem onRun {r' : Run} {f : Run → Run} (h : Only P r s) (sub : [.work] ⊆ P := by decide) : Only P r (s.onRun r' f) :=
  h.step sub fun _ h => h.withWork

theorem endRun {r' : Run} {used : Nat} (h : Only P r s) (sub : [.work, .meter] ⊆ P := by decide) : Only P r (s.endRun r' used) :=
  h.step sub fun _ h => by
    unfold State.endRun
    exact h.onRun.onDesc.actOwner.actItem

theorem endItem {item : Nat} {e : Ending} (h : Only P r s) (sub : [.work] ⊆ P := by decide) : Only P r (s.endItem item e) :=
  h.step sub fun _ h => h.postEnd.onDesc

theorem completeRun {t' : Sect} {r' : Run} (h : Only P r s) (sub : [.grid, .work, .meter] ⊆ P := by decide) :
    Only P r (s.completeRun t' r') :=
  h.step sub fun _ h => by
    unfold State.completeRun
    extract_lets used s1 s2
    refine .ite h.onSect.endRun.endItem ?_
    split
    · exact h.onSect.endRun.onDesc
    · exact .ite h.onSect.endRun.onDesc.post h.onSect.endRun.onDesc

theorem execRunComplete {sid : Nat} {at_ : Dword} (h : Only P r s) (sub : [.tb, .grid, .work, .meter] ⊆ P := by decide) :
    Answers P r (execRunComplete sid at_ s) :=
  h.answer sub fun _ h => by
    unfold Machine.execRunComplete
    refine h.onGrid ?_
    extract_lets s1
    split
    · exact .ite h.advance.completeRun.next h.passOver
    · exact h.passOver

theorem cutRun {t' : Sect} {r' : Run} {cause used : Nat} (h : Only P r s)
    (sub : [.regs, .bus, .ras, .grid, .work, .ses, .sram, .cl] ⊆ P := by decide) : Only P r (s.cutRun t' r' cause used) :=
  h.step sub fun _ h => h.onRun.onSectRec.flushJobs.bump

theorem execBudgetExpire {sid : Nat} (h : Only P r s)
    (sub : [.tb, .regs, .bus, .ras, .grid, .work, .ses, .sram, .cl, .meter] ⊆ P := by decide) : Answers P r (execBudgetExpire sid s) :=
  h.answer sub fun _ h => by
    unfold Machine.execBudgetExpire
    refine h.onGrid ?_
    split
    · refine .ite h.passOver ?_
      extract_lets s1
      exact .ite h.advance.completeRun.next h.advance.cutRun.next
    · exact h.passOver

theorem guardRun {r' : Run} (h : Only P r s) (sub : [.regs, .bus, .ras, .grid, .work, .ses, .sram, .cl, .meter] ⊆ P := by decide) :
    Only P r (s.guardRun r') :=
  h.step sub fun _ h => by
    unfold State.guardRun
    refine .ite h.withWork ?_
    refine .ite ?_ h
    split
    · exact h
    · exact .ite h.completeRun (.ite h.cutRun h.cutRun)

theorem beginGuard (h : Only P r s) (sub : [.tb, .regs, .bus, .ras, .grid, .work, .ses, .sram, .cl, .meter] ⊆ P := by decide) :
    Only P r s.beginGuard :=
  h.step sub fun _ h => h.advance.pauseMigrations.foldl fun _ _ h1 => h1.guardRun

theorem execGuardStart (h : Only P r s) (sub : [.tb, .regs, .bus, .ras, .grid, .work, .ses, .sram, .cl, .meter] ⊆ P := by decide) :
    Answers P r (execGuardStart s) :=
  h.answer sub fun _ h => .ite h.beginGuard.next h.passOver

theorem drained {t' : Sect} {r' : Run} {bad : List (Nat × Nat)} (h : Only P r s)
    (sub : [.out, .regs, .bus, .ras, .grid, .work, .sram, .cl, .meter, .trace] ⊆ P := by decide) : Only P r (s.drained t' r' bad) :=
  h.step sub fun _ h => by
    unfold State.drained
    extract_lets used s0 poison stays s1 r1 s2
    have hs0 : Only _ _ s0 := h.foldl fun _ _ h1 => h1.saveCell
    have hs1 : Only _ _ s1 := (Only.ite hs0 hs0.dropOps).onSect
    split
    · exact hs1.onRun.endRun.endItem
    · exact .ite hs1.onRun.endRun.endItem hs1.onRun.endRun.onDesc.post

theorem execDrainComplete {sid : Nat} {end_ : DrainEnd} (h : Only P r s)
    (sub : [.out, .tb, .regs, .bus, .ras, .grid, .work, .ses, .sram, .cl, .meter, .trace] ⊆ P := by decide) :
    Answers P r (execDrainComplete sid end_ s) :=
  h.answer sub fun _ h => by
    unfold Machine.execDrainComplete
    refine h.onGrid ?_
    extract_lets s1
    split
    · exact .ite h.passOver (.ite h.passOver h.advance.flushJobs.drained.next)
    · exact h.passOver

theorem drainTimeout {t' : Sect} {r' : Run} (h : Only P r s)
    (sub : [.out, .regs, .bus, .ras, .grid, .work, .sram, .cl, .meter] ⊆ P := by decide) : Only P r (s.drainTimeout t' r') :=
  h.step sub fun _ h => by
    unfold State.drainTimeout
    extract_lets s1 s2
    have hs2 : Only _ _ s2 := h.dropOps.onSect.endRun.bump.event
    exact hs2.endItem

theorem drainTimeouts (h : Only P r s) (sub : [.out, .regs, .bus, .ras, .grid, .work, .sram, .cl, .meter] ⊆ P := by decide) :
    Only P r s.drainTimeouts :=
  h.step sub fun _ h => by
    unfold State.drainTimeouts
    refine h.foldl fun _ _ h1 => ?_
    split
    · exact h1.drainTimeout
    · exact h1.endRun

theorem execDrainTimeout {sid : Nat} (h : Only P r s)
    (sub : [.out, .tb, .regs, .bus, .ras, .grid, .work, .sram, .cl, .meter] ⊆ P := by decide) : Answers P r (execDrainTimeout sid s) :=
  h.answer sub fun _ h => by
    unfold Machine.execDrainTimeout
    refine h.onClock ?_
    split
    · exact .ite h.passOver h.advance.drainTimeout.next
    · exact h.passOver

theorem idleTimeout {r' : Run} (h : Only P r s) (sub : [.grid, .work] ⊆ P := by decide) : Only P r (s.idleTimeout r') :=
  h.step sub fun _ h => by
    unfold State.idleTimeout
    split
    · exact h
    · exact h.onSect.endItem

theorem execRunIdleTimeout {sid : Nat} (h : Only P r s) (sub : [.tb, .grid, .work] ⊆ P := by decide) :
    Answers P r (execRunIdleTimeout sid s) :=
  h.answer sub fun _ h => by
    unfold Machine.execRunIdleTimeout
    refine h.onClock ?_
    split
    · exact h.passOver
    · exact h.advance.idleTimeout.next

theorem execHeldRelease {sid : Nat} (h : Only P r s) (sub : [.work] ⊆ P := by decide) : Answers P r (execHeldRelease sid s) :=
  h.answer sub fun _ h => by
    unfold Machine.execHeldRelease
    split
    · exact h.passOver
    · exact .ite h.withWork.next h.passOver

theorem releaseHeld (h : Only P r s) (sub : [.grid, .work] ⊆ P := by decide) : Only P r s.releaseHeld :=
  h.step sub fun _ h => by
    unfold State.releaseHeld
    extract_lets s1 src
    refine .via (x := s1) ?_ fun hs1 => ?_
    · unfold s1
      refine h.foldl fun _ _ h1 => ?_
      split
      · exact h1
      · exact h1.onSect
    · exact hs1.withWork

theorem submitRun {d : Nat} (h : Only P r s) (sub : [.work] ⊆ P := by decide) : Only P r (s.submitRun d) := h.step sub fun _ h => h.onDesc

theorem submitUnload {x : Desc} (h : Only P r s) (sub : [.work] ⊆ P := by decide) : Only P r (s.submitUnload x) :=
  h.step sub fun _ h => h.onDesc.withWork

theorem execDescRun {d : Nat} (h : Only P r s) (sub : [.work] ⊆ P := by decide) : Answers P r (execDescRun d s) :=
  h.answer sub fun _ h => by
    unfold Machine.execDescRun
    refine h.onClock ?_
    split
    · exact h.passOver
    · exact .ite h.submitRun.next h.passOver

theorem execDescUnload {d : Nat} (h : Only P r s) (sub : [.work] ⊆ P := by decide) : Answers P r (execDescUnload d s) :=
  h.answer sub fun _ h => by
    unfold Machine.execDescUnload
    refine h.onClock ?_
    split
    · exact h.passOver
    · exact .ite h.submitUnload.next h.passOver

end Only
end Sys2Proof.Machine
end

/-! ### What the operations of admission may change (`Machine/Admission.lean`) -/

section
open Sys2Proof
namespace Sys2Proof.Machine
namespace Only
set_option Elab.async false
variable {P Q : List Piece} {r s t : State}

theorem onTenant {t' : Nat} {f : Tenant → Tenant} (h : Only P r s) (sub : [.work] ⊆ P := by decide) : Only P r (s.onTenant t' f) :=
  h.step sub fun _ h => h.withWork

theorem touchProfile {sid cls : Nat} {f : Profile → Profile} (h : Only P r s) (sub : [.work] ⊆ P := by decide) :
    Only P r (s.touchProfile sid cls f) :=
  h.step sub fun _ h => by
    unfold State.touchProfile
    extract_lets now src
    split
    · exact h.withWork
    · exact h.withWork

theorem admitTrace {d : Desc} {status reason e : Nat} (h : Only P r s)
    (sub : [.free, .regs, .bus, .ras, .sram, .cl, .trace] ⊆ P := by decide) : Only P r (s.admitTrace d status reason e) :=
  h.step sub fun _ h => h.takeFree.traceRec

theorem stat {c w : Nat} (h : Only P r s) (sub : [.regs] ⊆ P := by decide) : Only P r (s.stat c w) := h.step sub fun _ h => h.setFld

theorem countRefused {d : Desc} {status : Nat} (h : Only P r s) (sub : [.regs, .bus, .ras, .sram, .cl] ⊆ P := by decide) :
    Only P r (s.countRefused d status) :=
  h.step sub fun _ h => .ite h (h.foldl fun _ _ h1 => h1.foldl fun _ _ h2 => h2.bump)

theorem refuseItem {d : Desc} {status reason cause : Nat} {nest : Option Nat} (h : Only P r s)
    (sub : [.free, .regs, .bus, .ras, .work, .sram, .cl, .trace] ⊆ P := by decide) : Only P r (s.refuseItem d status reason cause nest) :=
  h.step sub fun _ h => h.countRefused.endItem.admitTrace.stat

theorem deferItem {d : Desc} {cause : Nat} {nest : Option Nat} (h : Only P r s)
    (sub : [.free, .regs, .bus, .ras, .work, .sram, .cl, .trace] ⊆ P := by decide) : Only P r (s.deferItem d cause nest) :=
  h.step sub fun _ h => by
    unfold State.deferItem
    extract_lets later
    split
    next v s0 heq =>
    have h1 : Only _ _ s0 := .snd heq h.takeFree
    extract_lets n s1
    have hs1 : Only _ _ s1 := .ite h1.post.onDesc h1
    exact hs1.admitTrace.stat

theorem kvList {d : Desc} (h : Only P r s) (sub : [.free, .out, .regs, .bus, .ras, .grid, .mods, .sram, .cl, .trace] ⊆ P := by decide) :
    Only P r (s.kvList d).1 :=
  h.step sub fun _ h => by
    unfold State.kvList
    extract_lets arg
    refine .iteFst h.res ?_
    refine .iteFst h.res ?_
    split
    next t ps heq =>
      have h1 : Only _ _ t := h.memRead_ok heq
      extract_lets l
      exact .iteFst h1.res (.iteFst h1.res h1.res)
    · exact h.res

theorem migrate {d : Desc} {opc : Nat} {r' : Nat × Nat × Nat × Nat × Nat} (h : Only P r s)
    (sub : [.regs, .work, .ses, .sram, .cl] ⊆ P := by decide) : Only P r (s.migrate d opc r') :=
  h.step sub fun _ h => by
    unfold State.migrate
    split
    · exact h
    · exact h.postDescr

theorem fetchKv {d : Desc} {l : List (Nat × Nat × Nat × Nat × Nat)} (h : Only P r s)
    (sub : [.regs, .work, .ses, .sram, .cl] ⊆ P := by decide) : Only P r (s.fetchKv d l).1 :=
  h.step sub fun _ h => by
    unfold State.fetchKv
    extract_lets missing ask
    exact (h.foldl fun _ _ h1 => h1.migrate.onDesc).res

theorem evictKv {d : Desc} {final : Bool} (h : Only P r s)
    (sub : [.free, .out, .regs, .bus, .ras, .grid, .work, .mods, .ses, .sram, .cl, .trace] ⊆ P := by decide) :
    Only P r (s.evictKv d final) :=
  h.step sub fun _ h => by
    unfold State.evictKv
    refine .ite h ?_
    split
    next s1 l heq =>
      have h1 : Only _ _ s1 := .fst heq h.kvList
      exact (h1.foldl fun _ _ h => .ite h.migrate h).onDesc
    next s1 other _ heq =>
      have h1 : Only _ _ s1 := .fst heq h.kvList
      exact h1.onDesc

theorem kvArrived {ring st : Nat} (h : Only P r s) (sub : [.work] ⊆ P := by decide) : Only P r (s.kvArrived ring st) :=
  h.step sub fun _ h => by
    unfold State.kvArrived
    split
    · exact h
    · exact .ite h.onDesc (.ite h.onDesc.endItem h.onDesc.endItem)

theorem execSeDescComplete {k i : Nat} (h : Only P r s) (sub : [.out, .regs, .bus, .ras, .work, .ses, .sram, .cl] ⊆ P := by decide) :
    Answers P r (execSeDescComplete k i s) :=
  h.answer sub fun _ h => by
    unfold Machine.execSeDescComplete
    refine h.onClock ?_
    split
    · exact h.passOver
    · exact .ite h.passOver ((Only.ite h.jobDone.kvArrived h.jobDone).next)

theorem execKvIdleEvict {d : Nat} (h : Only P r s)
    (sub : [.free, .out, .regs, .bus, .ras, .grid, .work, .mods, .ses, .sram, .cl, .trace] ⊆ P := by decide) :
    Answers P r (execKvIdleEvict d s) :=
  h.answer sub fun _ h => by
    unfold Machine.execKvIdleEvict
    refine h.onClock ?_
    split
    · exact h.passOver
    · exact .ite h.evictKv.next h.passOver

theorem consider {d : Desc} (h : Only P r s)
    (sub : [.free, .out, .regs, .bus, .ras, .grid, .work, .mods, .ses, .sram, .cl, .trace] ⊆ P := by decide) : Only P r (s.consider d).1 :=
  h.step sub fun _ h => by
    unfold State.consider
    extract_lets ts s0
    refine .iteFst h.onDesc.endItem.stat.res ?_
    refine .iteFst h.onDesc.refuseItem.res ?_
    refine .iteFst h.onDesc.takeFree.deferItem.res ?_
    split
    · exact h.onDesc.refuseItem.res
    · refine .iteFst h.onDesc.deferItem.res ?_
      refine .iteFst h.onDesc.takeFree.deferItem.res ?_
      split
      next s1 heq =>
        have h1 : Only _ _ s1 := .fst heq h.onDesc.kvList
        exact h1.res
      next s1 e heq =>
        have h2 : Only _ _ s1 := .fst heq h.onDesc.kvList
        exact h2.endItem.stat.res
      next s1 l heq =>
        have h3 : Only _ _ s1 := .fst heq h.onDesc.kvList
        split
        next s2 missing heq =>
        have h5 : Only _ _ s2 := .fst heq h3.fetchKv
        refine .iteFst ?_ h5.res
        split
        next v s3 heq =>
        have h6 : Only _ _ s3 := .snd heq h5.takeFree
        split
        · exact h6.deferItem.res
        · exact h6.res

theorem serveItem {x : Ask} {runs : List (Nat × Nat)} (h : Only P r s)
    (sub : [.free, .regs, .bus, .ras, .work, .sram, .cl, .trace] ⊆ P := by decide) : Only P r (s.serveItem x runs) :=
  h.step sub fun _ h => by
    unfold State.serveItem
    extract_lets d new_ src s1 e c f src' s3 s2
    have hs2 : Only _ _ s2 := .ite h.withWork h.withWork.withWork.onDesc.touchProfile.setFld.admitTrace
    exact hs2.onDesc.stat

theorem settle {k : Terms} {base xs def_ : List Ask} {causes counts : SMap Nat} (h : Only P r s)
    (sub : [.free, .regs, .bus, .ras, .work, .sram, .cl, .trace] ⊆ P := by decide) : Only P r (s.settle k base causes xs def_ counts) :=
  h.step sub fun _ h => by
    clear * - h
    induction xs generalizing s def_ counts with
    | nil => exact h
    | cons x xs ih =>
      unfold State.settle
      extract_lets c cause nest src src' s0 n room reason
      clear_value room nest
      have hs0 : Only _ _ s0 := .ite (h.withWork) h
      refine .ite (ih hs0.deferItem) ?_
      split
      · exact .ite (ih hs0.deferItem) (ih hs0.refuseItem)
      · exact ih hs0.refuseItem

theorem considerAll {ds : List Desc} (h : Only P r s)
    (sub : [.free, .out, .regs, .bus, .ras, .grid, .work, .mods, .ses, .sram, .cl, .trace] ⊆ P := by decide) :
    Only P r (s.considerAll ds).1 :=
  h.step sub fun _ h => by
    unfold State.considerAll
    refine h.res.foldlFst fun _ _ h1 => ?_
    split
    · exact h1
    · extract_lets r
      refine .iteFst ?_ h1.consider.res
      split
      · extract_lets rs
        exact h1.consider.res
      · exact h1.consider.res

theorem admitClear (h : Only P r s) (sub : [.regs, .work] ⊆ P := by decide) : Only P r s.admitClear :=
  h.step sub fun _ h => h.withWork.foldl fun _ _ h1 => h1.setFld.setFld.setFld.setFld

theorem servePlan {asks : List Ask} {served : List (Nat × List (Nat × Nat))} (h : Only P r s)
    (sub : [.free, .regs, .bus, .ras, .work, .sram, .cl, .trace] ⊆ P := by decide) : Only P r (s.servePlan asks served) :=
  h.step sub fun _ h => by
    unfold State.servePlan
    refine h.foldl fun _ _ h1 => ?_
    split
    · exact h1.serveItem
    · exact h1

theorem admitShow {used : SMap Nat} (h : Only P r s) (sub : [.regs, .work] ⊆ P := by decide) : Only P r (s.admitShow used) :=
  h.step sub fun _ h => h.withWork.foldl fun _ _ h1 => h1.setFld.setFld

theorem admitPhase (h : Only P r s)
    (sub : [.free, .out, .regs, .bus, .ras, .grid, .work, .mods, .ses, .sram, .cl, .trace] ⊆ P := by decide) : Only P r s.admitPhase :=
  h.step sub fun _ h => by
    unfold State.admitPhase
    exact (Only.ite h.bump h).admitClear.considerAll.servePlan.settle.admitShow

theorem adaptFrame (h : Only P r s) (sub : [.work] ⊆ P := by decide) : Only P r s.adaptFrame := h.step sub fun _ h => h.withWork

theorem adaptChoose (h : Only P r s) (sub : [.work] ⊆ P := by decide) : Only P r s.adaptChoose := h.step sub fun _ h => h.withWork

theorem adaptMove (h : Only P r s) (sub : [.regs, .work] ⊆ P := by decide) : Only P r s.adaptMove :=
  h.step sub fun _ h => by
    unfold State.adaptMove
    split
    · exact h
    · exact h.withWork.setFld.setFld

theorem execPolicyAdaptWindow (h : Only P r s) (sub : [.work] ⊆ P := by decide) : Answers P r (execPolicyAdaptWindow s) :=
  h.answer sub fun _ h => h.onClock (.ite h.adaptChoose.next h.passOver)

end Only
end Sys2Proof.Machine
end

/-! ### What the operations of host queues may change (`Machine/HostQueues.lean`) -/

section
open Sys2Proof
namespace Sys2Proof.Machine
namespace Only
set_option Elab.async false
variable {P Q : List Piece} {r s t : State}

theorem hostError {off cause : Nat} {t' : Option Nat} {vf slot : Nat} (h : Only P r s)
    (sub : [.out, .regs, .bus, .ras, .sram, .cl] ⊆ P := by decide) : Only P r (s.hostError off cause t' vf slot) :=
  h.step sub fun _ h => h.pageError

theorem notice {t' code : Nat} (h : Only P r s) (sub : [.work] ⊆ P := by decide) : Only P r (s.notice t' code) :=
  h.step sub fun _ h => h.onTenant

theorem queueProto {t' : Nat} (h : Only P r s) (sub : [.regs, .work] ⊆ P := by decide) : Only P r (s.queueProto t') :=
  h.step sub fun _ h => h.setRegBit.notice

theorem doorbell {vf page size off : Nat} {f : State → Nat → State} (h : Only P r s) (hf : ∀ t k, Only P r t → Only P r (f t k))
    (sub : [.out, .regs, .bus, .ras, .sram, .cl] ⊆ P := by decide) : Only P r (s.doorbell vf page size off f) := by
  unfold State.doorbell
  split
  · exact h
  · exact h.hostError sub
  · exact .ite (h.hostError sub) (hf _ _ h)

theorem tailRung {vf page : Nat} {val : Word} {t' : Nat} (h : Only P r s)
    (sub : [.out, .regs, .bus, .ras, .work, .sram, .cl] ⊆ P := by decide) : Only P r (s.tailRung vf page val t') :=
  h.step sub fun _ h => .ite h.hostError (.ite h.queueProto h.onTenant)

theorem execDbSqTail {vf page size : Nat} {val : Word} {at_ : Dword} (h : Only P r s)
    (sub : [.out, .tb, .regs, .bus, .ras, .work, .sram, .cl] ⊆ P := by decide) : Answers P r (execDbSqTail vf page size val at_ s) :=
  h.answer sub fun _ h => h.onClock ((h.advance.doorbell (fun _ _ h1 => h1.tailRung)).next)

theorem freeHead {val : Word} {t' : Nat} (h : Only P r s) (sub : [.regs, .work] ⊆ P := by decide) : Only P r (s.freeHead val t') :=
  h.step sub fun _ h => .ite h.queueProto (.ite h.queueProto h.onTenant)

theorem execDbCqHead {vf page size : Nat} {val : Word} {at_ : Dword} (h : Only P r s)
    (sub : [.out, .tb, .regs, .bus, .ras, .work, .sram, .cl] ⊆ P := by decide) : Answers P r (execDbCqHead vf page size val at_ s) :=
  h.answer sub fun _ h => h.onClock ((h.advance.doorbell (fun _ _ h1 => h1.freeHead)).next)

theorem execSqFetch {t' : Nat} (h : Only P r s) (sub : [.out, .work] ⊆ P := by decide) : Answers P r (execSqFetch t' s) :=
  h.answer sub fun _ h => h.onClock (.ite h.passOver (.ite h.onTenant.emit.next h.passOver))

theorem fetchDone {t' : Nat} {sq host : List Byte} {sqEnd hostEnd : ReadEnd} (h : Only P r s)
    (sub : [.out, .regs, .work] ⊆ P := by decide) : Only P r (s.fetchDone t' sq host sqEnd hostEnd) :=
  h.step sub fun _ h => by
    unfold State.fetchDone
    extract_lets x pg head b run reads src d src' s1 s2 s3
    have hs3 : Only _ _ s3 := .ite h.withWork.setFld.onTenant.emit h.withWork.setFld.onTenant
    exact .ite hs3.postEnd (.ite hs3.postEnd (.ite hs3.postEnd (.ite hs3.postEnd hs3)))

theorem execSqFetchComplete {t' : Nat} {sq host : List Byte} {sqEnd hostEnd : ReadEnd} {at_ : Dword} (h : Only P r s)
    (sub : [.out, .tb, .regs, .work] ⊆ P := by decide) : Answers P r (execSqFetchComplete t' sq host sqEnd hostEnd at_ s) :=
  h.answer sub fun _ h => h.onClock (.ite h.advance.fetchDone.next h.passOver)

theorem discardDesc {d : Desc} (h : Only P r s)
    (sub : [.free, .out, .regs, .bus, .ras, .grid, .work, .mods, .ses, .sram, .cl, .trace] ⊆ P := by decide) : Only P r (s.discardDesc d) :=
  h.step sub fun _ h => by
    unfold State.discardDesc
    extract_lets s0 s1 s2 src s3 s4
    refine .via (x := s1) ?_ fun hs1 => ?_
    · unfold s1
      refine h.evictKv.foldl fun _ _ h1 => ?_
      refine .ite h1 ?_
      refine .ite h1.withWork ?_
      refine .ite ?_ h1
      split
      · exact h1.cutRun
      · exact h1
    · refine .via (x := s2) ?_ fun hs2 => ?_
      · unfold s2
        split
        · exact hs1
        · extract_lets a
          have ha : Only _ _ a := .ite hs1.onRegion hs1
          exact ha.dropLoad
      · exact hs2.withWork.withSes.onDesc

theorem resetTenant {t' : Nat} (h : Only P r s)
    (sub : [.free, .out, .regs, .bus, .ras, .grid, .work, .mods, .ses, .sram, .cl, .trace] ⊆ P := by decide) :
    Only P r (s.resetTenant t') :=
  h.step sub fun _ h => by
    unfold State.resetTenant
    extract_lets s1 base s2
    have hs1 : Only _ _ s1 := h.foldl fun _ _ h1 => h1.discardDesc
    have hs2 : Only _ _ s2 := hs1.foldl fun _ _ h2 => h2.setReg
    exact hs2.onTenant

theorem tenantReserved {i : Iface} {t' off : Nat} {val : Word} (h : Only P r s)
    (sub : [.out, .regs, .bus, .ras, .sram, .cl] ⊆ P := by decide) : Only P r (s.tenantReserved i t' off val).1 :=
  h.step sub fun _ h => h.reservedWrite.res

theorem writeQCtl {t' vf slot : Nat} {val : Word} (h : Only P r s)
    (sub : [.free, .out, .regs, .bus, .ras, .grid, .work, .mods, .ses, .sram, .cl, .trace] ⊆ P := by decide) :
    Only P r (s.writeQCtl t' vf slot val).1 :=
  h.step sub fun _ h => by
    unfold State.writeQCtl
    refine .iteFst h.resetTenant.res ?_
    refine .iteFst h.setFld.onTenant.res ?_
    refine .iteFst h.hostError.res ?_
    refine .iteFst h.res ?_
    extract_lets s1
    have hs1 : Only _ _ s1 := h.setFld.setFld.setFld.setRegBit
    exact hs1.onTenant.res

theorem writeQueueReg {i : Iface} {t' off : Nat} {val : Word} (h : Only P r s)
    (sub : [.out, .regs, .bus, .ras, .sram, .cl] ⊆ P := by decide) : Only P r (s.writeQueueReg i t' off val).1 :=
  h.step sub fun _ h => by
    unfold State.writeQueueReg
    extract_lets a src low
    refine .iteFst h.tenantReserved ?_
    refine .iteFst (.iteFst h.setReg.res h.tenantReserved) ?_
    exact .iteFst (.iteFst h.setReg.res h.tenantReserved) (.iteFst h.withBus.res h.setReg.setReg.res)

theorem writeNoticeAck {i : Iface} {t' : Nat} {val : Word} (h : Only P r s) (sub : [.out, .regs, .bus, .ras, .sram, .cl] ⊆ P := by decide) :
    Only P r (s.writeNoticeAck i t' val).1 :=
  h.step sub fun _ h => by
    unfold State.writeNoticeAck
    extract_lets head v
    exact .iteFst h.setFld.res h.tenantReserved

theorem writeFn {i : Iface} {t' : Nat} {val : Word} (h : Only P r s) (sub : [.out, .regs, .bus, .ras, .sram, .cl] ⊆ P := by decide) :
    Only P r (s.writeFn i t' val).1 :=
  h.step sub fun _ h => by
    unfold State.writeFn
    extract_lets v vf taken
    exact .iteFst h.tenantReserved h.setReg.res

theorem writeTenantCtl {i : Iface} {t' : Nat} {val : Word} (h : Only P r s)
    (sub : [.out, .regs, .bus, .ras, .rind, .work, .sram, .cl, .nv] ⊆ P := by decide) : Only P r (s.writeTenantCtl i t' val).1 :=
  h.step sub fun _ h => by
    unfold State.writeTenantCtl
    extract_lets st c d r role log
    refine .iteFst h.tenantReserved.audit.audit.res ?_
    refine .iteFst (.iteFst h.audit.res (.iteFst h.tenantReserved.audit.res h.onTenant.audit.res)) ?_
    exact .iteFst (.iteFst h.setFld.audit.res h.audit.res) h.res

theorem writeTenant {i : Iface} {t' off vf slot : Nat} {val : Word} (h : Only P r s)
    (sub : [.free, .out, .regs, .bus, .ras, .rind, .grid, .work, .mods, .ses, .sram, .cl, .nv, .trace] ⊆ P := by decide) :
    Only P r (s.writeTenant i t' off vf slot val).1 :=
  h.step sub fun _ h => by
    unfold State.writeTenant
    refine .iteFst h.writeTenantCtl ?_
    exact .iteFst h.writeQCtl (.iteFst h.writeQueueReg (.iteFst h.writeNoticeAck (.iteFst h.writeFn h.plainWrite)))

theorem busTenant {rq : Req} {t' off : Nat} {val : Word} (h : Only P r s)
    (sub : [.free, .out, .tb, .regs, .bus, .ras, .rind, .grid, .work, .mods, .ses, .sram, .cl, .nv, .trace] ⊆ P := by decide) :
    Only P r (s.busTenant rq t' off val) :=
  h.step sub fun _ h => h.busWrite (fun _ h1 => h1.writeTenant)

theorem execQCtlEnWrite {rq : Req} {t' : Nat} {val : Word} (h : Only P r s)
    (sub : [.free, .out, .tb, .regs, .bus, .ras, .rind, .grid, .work, .mods, .ses, .sram, .cl, .nv, .trace] ⊆ P := by decide) :
    Answers P r (execQCtlEnWrite rq t' val s) :=
  h.answer sub fun _ h => h.busTenant.next

theorem execTenantQueueReset {rq : Req} {t' : Nat} (h : Only P r s)
    (sub : [.free, .out, .tb, .regs, .bus, .ras, .rind, .grid, .work, .mods, .ses, .sram, .cl, .nv, .trace] ⊆ P := by decide) :
    Answers P r (execTenantQueueReset rq t' s) :=
  h.answer sub fun _ h => h.busTenant.next

theorem execTenantCreate {rq : Req} {t' : Nat} (h : Only P r s)
    (sub : [.free, .out, .tb, .regs, .bus, .ras, .rind, .grid, .work, .mods, .ses, .sram, .cl, .nv, .trace] ⊆ P := by decide) :
    Answers P r (execTenantCreate rq t' s) :=
  h.answer sub fun _ h => h.busTenant.next

theorem execTenantDestroy {rq : Req} {t' : Nat} (h : Only P r s)
    (sub : [.free, .out, .tb, .regs, .bus, .ras, .rind, .grid, .work, .mods, .ses, .sram, .cl, .nv, .trace] ⊆ P := by decide) :
    Answers P r (execTenantDestroy rq t' s) :=
  h.answer sub fun _ h => h.busTenant.next

theorem execTenantFnWrite {rq : Req} {t' : Nat} {val : Word} (h : Only P r s)
    (sub : [.free, .out, .tb, .regs, .bus, .ras, .rind, .grid, .work, .mods, .ses, .sram, .cl, .nv, .trace] ⊆ P := by decide) :
    Answers P r (execTenantFnWrite rq t' val s) :=
  h.answer sub fun _ h => h.busTenant.next

theorem execNoticeAckWrite {rq : Req} {t' : Nat} {val : Word} (h : Only P r s)
    (sub : [.free, .out, .tb, .regs, .bus, .ras, .rind, .grid, .work, .mods, .ses, .sram, .cl, .nv, .trace] ⊆ P := by decide) :
    Answers P r (execNoticeAckWrite rq t' val s) :=
  h.answer sub fun _ h => h.busTenant.next

theorem windowWrite {vf k off : Nat} {val : Word} (h : Only P r s)
    (sub : [.free, .out, .regs, .bus, .ras, .rind, .grid, .work, .mods, .ses, .sram, .cl, .nv, .trace] ⊆ P := by decide) :
    Only P r (s.windowWrite vf k off val) :=
  h.step sub fun _ h => .elim h.hostError fun _ => .ite h.writeTenant h.hostError

theorem execVfWindowWrite {vf k off : Nat} {val : Word} {at_ : Dword} (h : Only P r s)
    (sub : [.free, .out, .tb, .regs, .bus, .ras, .rind, .grid, .work, .mods, .ses, .sram, .cl, .nv, .trace] ⊆ P := by decide) :
    Answers P r (execVfWindowWrite vf k off val at_ s) :=
  h.answer sub fun _ h => by
    unfold Machine.execVfWindowWrite
    refine h.onClock ?_
    extract_lets s0
    exact .ite h.advance.next h.advance.windowWrite.next

theorem copyTo {d : Desc} {bs : List Byte} {poison : List Bool} (h : Only P r s)
    (sub : [.out, .regs, .bus, .ras, .grid, .work, .mods, .modHeld, .sram, .cl, .tyz, .peers, .trace] ⊆ P := by decide) :
    Only P r (s.copyTo d bs poison) :=
  h.step sub fun _ h => by
    unfold State.copyTo
    extract_lets dst
    refine .ite h.emit.post ?_
    refine .ite ((h.foldl fun _ _ h1 => h1.sendTyz).post) ?_
    split
    next t pieces heq =>
      have h2 : Only _ _ t := h.memWrite_ok heq
      exact h2.post
    · exact h.postEnd

theorem carryCopy {d : Desc} (h : Only P r s)
    (sub : [.free, .out, .regs, .bus, .ras, .grid, .work, .mods, .modHeld, .sram, .cl, .tyz, .peers, .trace] ⊆ P := by decide) :
    Only P r (s.carryCopy d) :=
  h.step sub fun _ h => by
    unfold State.carryCopy
    refine .ite h.copyTo ?_
    split
    next t ps heq =>
      have h1 : Only _ _ t := h.memRead_ok heq
      exact .ite h1.postEnd h1.copyTo
    · exact h.postEnd

theorem takeReady (h : Only P r s)
    (sub : [.free, .out, .regs, .bus, .ras, .grid, .work, .mods, .modHeld, .sram, .cl, .tyz, .peers, .trace] ⊆ P := by decide) :
    Only P r s.takeReady :=
  h.step sub fun _ h => h.foldl fun _ _ h1 => .ite h1.submitRun (.ite h1.submitUnload (.ite h1.onDesc.carryCopy h1))

theorem showProgress (h : Only P r s) (sub : [.out, .work] ⊆ P := by decide) : Only P r s.showProgress :=
  h.step sub fun _ h => by
    unfold State.showProgress
    refine h.foldl fun _ _ h1 => ?_
    refine .ite h1 ?_
    extract_lets b
    have hb : Only _ _ b := h1.foldl fun _ _ h2 => .ite h2 h2.emit
    exact hb.onDesc

theorem firstOutput {d : Desc} (h : Only P r s) (sub : [.regs, .bus, .ras, .work, .sram, .cl] ⊆ P := by decide) :
    Only P r (s.firstOutput d) :=
  h.step sub fun _ h => .ite h.onDesc.setFld.bump h.onDesc.setFld

theorem outputs (h : Only P r s) (sub : [.regs, .bus, .ras, .work, .sram, .cl] ⊆ P := by decide) : Only P r s.outputs :=
  h.step sub fun _ h => h.foldl fun _ _ h1 => h1.firstOutput

theorem profileItem {d : Desc} (h : Only P r s) (sub : [.work] ⊆ P := by decide) : Only P r (s.profileItem d) :=
  h.step sub fun _ h => by
    unfold State.profileItem
    exact h.touchProfile

theorem writeEntry {d : Desc} {p : Post} (h : Only P r s)
    (sub : [.free, .out, .regs, .bus, .ras, .grid, .work, .mods, .ses, .sram, .cl, .trace] ⊆ P := by decide) :
    Only P r (s.writeEntry d p) :=
  h.step sub fun _ h => by
    unfold State.writeEntry
    extract_lets t pg tail phase e next_ s1 s2 a s3 src
    have ha : Only _ _ a := .ite h.emit.setFld.onTenant.firstOutput h.emit.setFld.onTenant
    have hs3 : Only _ _ s3 := .ite ((Only.ite ha.profileItem ha).evictKv) h.emit.setFld.onTenant
    exact .ite h.bump.onDesc (.ite h.emit.setFld.onTenant.onDesc hs3.withWork)

theorem writeEntries {late : List Nat} (h : Only P r s)
    (sub : [.free, .out, .regs, .bus, .ras, .grid, .work, .mods, .ses, .sram, .cl, .trace] ⊆ P := by decide) :
    Only P r (s.writeEntries late) :=
  h.step sub fun _ h => by
    unfold State.writeEntries
    refine h.foldl fun _ _ h1 => ?_
    split
    · exact h1
    · refine .ite h1 ?_
      extract_lets p note
      clear_value p
      split
      · exact h1
      · exact .ite (.ite h1.writeEntry h1.writeEntry.notice) (.ite (.ite h1.writeEntry h1.writeEntry.notice) h1.writeEntry)

theorem moveTenant {t' : Nat} (h : Only P r s) (sub : [.regs, .bus, .ras, .work, .sram, .cl] ⊆ P := by decide) :
    Only P r (s.moveTenant t') :=
  h.step sub fun _ h => .ite h (.ite h.setFld h.setFld.withBus.notice.bump)

theorem writeNotices {t' : Nat} (h : Only P r s) (sub : [.out, .regs, .bus, .ras, .work, .sram, .cl] ⊆ P := by decide) :
    Only P r (s.writeNotices t') :=
  h.step sub fun _ h => by
    unfold State.writeNotices
    extract_lets pg x s1 s2
    have hs1 : Only _ _ s1 := h.foldl fun _ _ h1 => .ite h1.bump h1.setReg.setReg.setReg.setReg.setFld
    exact .ite hs1.onTenant hs1.onTenant.sendMsix

theorem moderate {t' : Nat} (h : Only P r s) (sub : [.out, .regs, .bus, .ras, .work, .sram, .cl] ⊆ P := by decide) :
    Only P r (s.moderate t') :=
  h.step sub fun _ h => .ite h (.ite h.sendMsix.onTenant h.onTenant)

theorem sendHeld (h : Only P r s) (sub : [.out, .regs, .bus, .ras, .sram, .cl] ⊆ P := by decide) : Only P r s.sendHeld :=
  h.step sub fun _ h => h.withBus.foldl fun _ _ h1 => h1.sendMsix

theorem step8 {late : List Nat} (h : Only P r s)
    (sub : [.free, .out, .regs, .bus, .ras, .grid, .work, .mods, .ses, .sram, .cl, .sys, .trace] ⊆ P := by decide) :
    Only P r (s.step8 late) :=
  h.step sub fun _ h => by
    unfold State.step8
    extract_lets ts s0 s1 s2 deg src s3 src' s4
    have hs0 : Only _ _ s0 := h.foldl fun _ _ h1 => h1.setFld
    have hs1 : Only _ _ s1 := hs0.foldl fun _ _ h2 => .ite h2 h2.onTenant
    refine .via (x := s3) ?_ fun hs3 => ?_
    · unfold s3
      refine .ite hs1.showProgress.outputs.writeEntries ?_
      exact hs1.showProgress.outputs.writeEntries.withSys.foldl fun _ _ h3 => .ite h3 h3.notice
    · exact hs3.withWork.sendHeld.foldl fun _ _ h4 => h4.moveTenant.moderate.writeNotices

theorem tenantStates (h : Only P r s) (sub : [.regs, .work, .acct] ⊆ P := by decide) : Only P r s.tenantStates :=
  h.step sub fun _ h => h.foldl fun _ _ h1 => .ite h1.setFld.onTenant (.ite h1.setFld.withAcct h1)

end Only
end Sys2Proof.Machine
end

/-! ### What the operations of energy may change (`Machine/Energy.lean`) -/

section
open Sys2Proof
namespace Sys2Proof.Machine
namespace Only
set_option Elab.async false
variable {P Q : List Piece} {r s t : State}

theorem railsMeasured {mw : List Nat} (h : Only P r s) (sub : [.regs, .bus, .ras, .sram, .cl, .meter] ⊆ P := by decide) :
    Only P r (s.railsMeasured mw) :=
  h.step sub fun _ h => by
    unfold State.railsMeasured
    extract_lets es total s1 src
    have hs1 : Only _ _ s1 := h.foldl fun _ _ h1 => h1.withMeter.accumulate
    exact hs1.withMeter

theorem execRailSample {mw : List Nat} {at_ : Dword} (h : Only P r s)
    (sub : [.tb, .regs, .bus, .ras, .sram, .cl, .meter] ⊆ P := by decide) : Answers P r (execRailSample mw at_ s) :=
  h.answer sub fun _ h => h.advance.railsMeasured.next

theorem applyTariff (h : Only P r s) (sub : [.out, .regs, .bus, .ras, .sram, .cl, .acct] ⊆ P := by decide) : Only P r s.applyTariff :=
  h.step sub fun _ h => .ite h.withAcct.event h.withAcct.withAcct

theorem acctAdd {owner pg : Nat} {f : Fld} {bit n : Nat} (h : Only P r s) (sub : [.regs, .bus, .ras, .sram, .cl, .acct] ⊆ P := by decide) :
    Only P r (s.acctAdd owner pg f bit n) :=
  h.step sub fun _ h => .ite h.accumulate.withAcct h.accumulate

theorem acctRecord {v : Interval} {type tariff : Nat} (h : Only P r s)
    (sub : [.out, .regs, .bus, .ras, .sram, .cl, .nv, .acct] ⊆ P := by decide) : Only P r (s.acctRecord v type tariff) :=
  h.step sub fun _ h => h.withAcct.appendRecord

theorem showLast {b : List Byte} {cost tokens : Nat} (h : Only P r s) (sub : [.regs] ⊆ P := by decide) :
    Only P r (s.showLast b cost tokens) :=
  h.step sub fun _ h => (h.foldl fun _ _ h1 => h1.setReg).setFld64

theorem acctRestart (h : Only P r s) (sub : [.regs, .work, .acct] ⊆ P := by decide) : Only P r s.acctRestart :=
  h.step sub fun _ h => by
    unfold State.acctRestart
    extract_lets ovf s1 s2 src
    have hs1 : Only _ _ s1 := (h.foldl fun _ _ h1 => h1.setRegBit).foldl fun _ _ h2 => h2.setFld64
    have hs2 : Only _ _ s2 := hs1.foldl fun _ _ h3 => ((h3.foldl fun _ _ h4 => h4.setRegBit).foldl fun _ _ h5 => h5.setFld64).onTenant
    exact hs2.withAcct

theorem closeInterval {flags tariff : Nat} (h : Only P r s)
    (sub : [.out, .regs, .bus, .ras, .work, .sram, .cl, .nv, .acct] ⊆ P := by decide) : Only P r (s.closeInterval flags tariff) :=
  h.step sub fun _ h => by
    unfold State.closeInterval
    split
    · exact h
    · exact h.acctRecord.showLast.acctRestart.withAcct

theorem openInterval (h : Only P r s) (sub : [.regs, .acct] ⊆ P := by decide) : Only P r s.openInterval :=
  h.step sub fun _ h => by
    unfold State.openInterval
    extract_lets w src midnight s1 len start src'
    have hs1 : Only _ _ s1 := .ite h.setFld h
    exact .ite h.withAcct hs1.withAcct

theorem boundaries (h : Only P r s) (sub : [.out, .regs, .bus, .ras, .work, .sram, .cl, .nv, .acct] ⊆ P := by decide) :
    Only P r s.boundaries :=
  h.step sub fun _ h => by
    unfold State.boundaries
    extract_lets idx0 a src s1 s2 idx s3 src' s4 src''
    refine .via (x := s1) ?_ fun hs1 => ?_
    · unfold s1
      split
      · exact .ite h.closeInterval h
      · exact h.closeInterval.withAcct.setFld
    · have hs2 : Only _ _ s2 := .ite hs1.applyTariff hs1
      refine .via (x := s4) ?_ fun hs4 => ?_
      · unfold s4
        split
        · exact hs2.setFld.openInterval
        · exact .ite hs2.setFld.withAcct.acctRecord hs2.setFld.withAcct
      · exact hs4.withAcct

theorem quotaNotices {t' : Nat} (h : Only P r s) (sub : [.work] ⊆ P := by decide) : Only P r (s.quotaNotices t') :=
  h.step sub fun _ h => h.foldl fun _ _ h1 => .ite h1.onTenant.notice h1

theorem shareOut {ej us : Nat} (h : Only P r s) (sub : [.regs, .bus, .ras, .work, .sram, .cl, .meter, .acct] ⊆ P := by decide) :
    Only P r (s.shareOut ej us) :=
  h.step sub fun _ h => by
    unfold State.shareOut
    extract_lets fix all share p s1 tenants mods s2 v src s3 src'
    have hs1 : Only _ _ s1 := h.foldl fun _ _ h => .ite h h.acctAdd.acctAdd.acctAdd.onTenant
    have hs2 : Only _ _ s2 := hs1.acctAdd.acctAdd.acctAdd.acctAdd
    have hs3 : Only _ _ s3 := hs2.withWork
    exact hs3.withMeter

theorem countTokens (h : Only P r s) (sub : [.regs, .bus, .ras, .work, .sram, .cl, .acct] ⊆ P := by decide) : Only P r s.countTokens :=
  h.step sub fun _ h => by
    unfold State.countTokens
    extract_lets clear
    have hclear : Only _ _ clear := h.foldl fun _ _ h1 => h1.setFld
    refine hclear.foldl fun _ _ h2 => ?_
    extract_lets tb n b f c
    have hc : Only _ _ c := h2.onDesc.acctAdd.acctAdd.setFld
    exact .ite h2.onDesc hc.onTenant

theorem takeEnergy (h : Only P r s) (sub : [.meter] ⊆ P := by decide) : Only P r (s.takeEnergy).2 :=
  h.step sub fun _ h => h.withMeter.resSnd

theorem step1 {us : Nat} (h : Only P r s) (sub : [.out, .regs, .bus, .ras, .work, .sram, .cl, .nv, .meter, .acct] ⊆ P := by decide) :
    Only P r (s.step1 us) :=
  h.step sub fun _ h => by
    unfold State.step1
    split
    next ej s1 heq =>
    have h2 : Only _ _ s1 := .snd heq h.takeEnergy
    extract_lets s2 s3
    have hs3 : Only _ _ s3 := h2.shareOut.countTokens.foldl fun _ _ h3 => h3.quotaNotices
    exact hs3.boundaries

theorem boundaryAsleep (h : Only P r s) (sub : [.out, .regs, .bus, .ras, .work, .sram, .cl, .nv, .meter, .acct] ⊆ P := by decide) :
    Only P r s.boundaryAsleep :=
  h.step sub fun _ h => h.takeEnergy.withMeter.shareOut.boundaries

theorem execAcctBoundaryInSleep {at_ : Dword} (h : Only P r s)
    (sub : [.out, .tb, .regs, .bus, .ras, .work, .sram, .cl, .nv, .meter, .acct] ⊆ P := by decide) :
    Answers P r (execAcctBoundaryInSleep at_ s) :=
  h.answer sub fun _ h => by
    unfold Machine.execAcctBoundaryInSleep
    extract_lets s0
    exact .ite h.passOver (.ite h.advance.boundaryAsleep.next h.passOver)

theorem writeWall {val : Dword} (h : Only P r s) (sub : [.regs, .acct] ⊆ P := by decide) : Only P r (s.writeWall val) :=
  h.step sub fun _ h => h.setFld64.withAcct

theorem execWallOfsWrite {rq : Req} {val : Dword} (h : Only P r s)
    (sub : [.out, .tb, .regs, .bus, .ras, .rind, .sram, .cl, .nv, .acct, .trace] ⊆ P := by decide) :
    Answers P r (execWallOfsWrite rq val s) :=
  h.answer sub fun _ h => (h.busWrite (fun _ h1 => h1.writeWall.res)).next

theorem setClock {mhz : Nat} (h : Only P r s) (sub : [.regs, .work] ⊆ P := by decide) : Only P r (s.setClock mhz) :=
  h.step sub fun _ h => h.withWork.setFld

theorem throttled (h : Only P r s) (sub : [.out, .regs, .bus, .ras, .work, .sram, .cl, .meter] ⊆ P := by decide) : Only P r s.throttled :=
  h.step sub fun _ h => h.setClock.withMeter.bump.event

theorem execEmergThrottle {sensors : List Int} {at_ : Dword} (h : Only P r s)
    (sub : [.out, .tb, .regs, .bus, .ras, .work, .sram, .cl, .meter] ⊆ P := by decide) : Answers P r (execEmergThrottle sensors at_ s) :=
  h.answer sub fun _ h => by
    unfold Machine.execEmergThrottle
    extract_lets s0
    exact .ite h.advance.throttled.next h.passOver

theorem showSensors {sensors : List Int} (h : Only P r s) (sub : [.regs] ⊆ P := by decide) : Only P r (s.showSensors sensors) :=
  h.step sub fun _ h => by
    unfold State.showSensors
    extract_lets s1
    have hs1 : Only _ _ s1 := h.foldl fun _ _ h1 => h1.setFld
    split
    · exact hs1.setFld
    · exact hs1

theorem step5 {sensors : List Int} (h : Only P r s) (sub : [.out, .regs, .cal, .meter] ⊆ P := by decide) : Only P r (s.step5 sensors) :=
  h.step sub fun _ h => by
    unfold State.step5
    extract_lets pkg w cap s0 uj us above under thr hot cool m pc tc s1 target cur new_ held s2 s3 s4
    have hs2 : Only _ _ s2 := h.setFld.showSensors.withMeter.calApply.setFld
    have hs3 : Only _ _ s3 := .ite hs2 hs2.emit
    exact hs3.setRegBit.setFld

theorem tripBy {i : Nat} (h : Only P r s) (sub : [.out, .regs, .sys] ⊆ P := by decide) : Only P r (s.tripBy i) :=
  h.step sub fun _ h => h.setFld.setFld64.emit.withSys

theorem execThermtrip {i : Nat} {raw : Int} {at_ : Dword} (h : Only P r s) (sub : [.out, .tb, .regs, .sys] ⊆ P := by decide) :
    Answers P r (execThermtrip i raw at_ s) :=
  h.answer sub fun _ h => by
    unfold Machine.execThermtrip
    extract_lets s0
    exact .ite h.passOver h.advance.tripBy.next

theorem gaspClose {idx0 : Nat} (h : Only P r s) (sub : [.out, .regs, .bus, .ras, .work, .sram, .cl, .nv, .acct] ⊆ P := by decide) :
    Only P r (s.gaspClose idx0) :=
  h.step sub fun _ h => by
    unfold State.gaspClose
    refine .ite ?_ ?_
    · extract_lets a b
      have hb : Only _ _ b := .ite h.closeInterval.applyTariff h.closeInterval
      exact hb.setFld.openInterval
    · extract_lets b idx src
      have hb : Only _ _ b := .ite h.applyTariff h
      split
      · exact hb
      · exact hb.withAcct.setFld

theorem gaspStore (h : Only P r s) (sub : [.nv] ⊆ P := by decide) : Only P r s.gaspStore :=
  h.step sub fun _ h => by
    unfold State.gaspStore
    extract_lets src stopped pages
    split
    · exact h.withNv
    · exact .ite h.withNv (h.withNv.program.foldl fun _ _ h1 => h1.program)

theorem lastGasp (h : Only P r s) (sub : [.out, .regs, .bus, .ras, .work, .sram, .cl, .nv, .meter, .acct] ⊆ P := by decide) :
    Only P r s.lastGasp :=
  h.step sub fun _ h => by
    unfold State.lastGasp
    extract_lets idx0 e s1
    have hs1 : Only _ _ s1 := h.takeEnergy.acctAdd.acctAdd.acctAdd
    exact hs1.gaspClose.gaspStore

theorem abandonOp (h : Only P r s) (sub : [.free, .flash, .nv] ⊆ P := by decide) : Only P r s.abandonOp :=
  h.step sub fun _ h => by
    unfold State.abandonOp
    split
    · exact h
    · exact .ite h.withFlash (h.foldl fun _ _ h1 => h1.takeFree.withFlash)

theorem powerCut (h : Only P r s)
    (sub : [.free, .out, .regs, .bus, .ras, .work, .sram, .cl, .flash, .nv, .sys, .meter, .acct] ⊆ P := by decide) : Only P r s.powerCut :=
  h.step sub fun _ h => h.abandonOp.withSys.lastGasp

theorem execPwrfailAssert {at_ : Dword} (h : Only P r s)
    (sub : [.free, .out, .tb, .regs, .bus, .ras, .work, .sram, .cl, .flash, .nv, .sys, .meter, .acct] ⊆ P := by decide) :
    Answers P r (execPwrfailAssert at_ s) :=
  h.answer sub fun _ h => by
    unfold Machine.execPwrfailAssert
    extract_lets s0 src
    exact .ite h.passOver (.ite h.advance.withSys.next h.advance.powerCut.next)

theorem execRailFault {k : Nat} {raw : Int} {at_ : Dword} (h : Only P r s)
    (sub : [.free, .out, .tb, .regs, .bus, .ras, .work, .sram, .cl, .flash, .nv, .sys, .meter, .acct] ⊆ P := by decide) :
    Answers P r (execRailFault k raw at_ s) :=
  h.answer sub fun _ h => by
    unfold Machine.execRailFault
    extract_lets s0 e
    split
    · exact h.passOver
    · exact .ite h.passOver h.advance.powerCut.next

end Only
end Sys2Proof.Machine
end

/-! ### What the operations of repair may change (`Machine/Repair.lean`) -/

section
open Sys2Proof
namespace Sys2Proof.Machine
namespace Only
set_option Elab.async false
variable {P Q : List Piece} {r s t : State}

theorem readWhole {pos : Nat} (h : Only P r s) (sub : [.out, .regs, .bus, .ras, .grid, .sram, .cl, .trace] ⊆ P := by decide) :
    Only P r (s.readWhole pos) :=
  h.step sub fun _ h => h.foldl fun _ _ h1 => h1.spReadGranule

theorem overwriteMarks {pos : Nat} {m : EccMem} (h : Only P r s)
    (sub : [.out, .regs, .bus, .ras, .grid, .sram, .cl, .trace] ⊆ P := by decide) : Only P r (s.overwriteMarks pos m) :=
  h.step sub fun _ h => h.foldl fun _ _ h1 => h1.spWriteGranule

theorem copyEast {pos : Nat} (h : Only P r s) (sub : [.out, .regs, .bus, .ras, .grid, .sram, .cl, .trace] ⊆ P := by decide) :
    Only P r (s.copyEast pos) :=
  h.step sub fun _ h => by
    unfold State.copyEast
    exact h.readWhole.overwriteMarks.onSlice

theorem copyRow {q y p : Nat} (h : Only P r s) (sub : [.out, .regs, .bus, .ras, .grid, .sram, .cl, .trace] ⊆ P := by decide) :
    Only P r (s.copyRow q y p) :=
  h.step sub fun _ h => by
    unfold State.copyRow
    extract_lets s2 src
    have hs2 : Only _ _ s2 := h.foldl fun _ _ h1 => h1.copyEast
    exact hs2.withGrid

theorem execRepairCopy {q y : Nat} {at_ : Dword} (h : Only P r s)
    (sub : [.out, .tb, .regs, .bus, .ras, .grid, .sram, .cl, .trace] ⊆ P := by decide) : Answers P r (execRepairCopy q y at_ s) :=
  h.answer sub fun _ h => by
    unfold Machine.execRepairCopy
    extract_lets s1
    split
    · exact h.passOver
    · exact .ite h.passOver h.advance.copyRow.next

theorem repoint {f : Nat → Nat} (h : Only P r s) (sub : [.grid, .work, .press, .ses] ⊆ P := by decide) : Only P r (s.repoint f) :=
  h.step sub fun _ h => h.withGridWorkPressSes

theorem reinstall {t' : Sect} (h : Only P r s) (sub : [.grid, .work] ⊆ P := by decide) : Only P r (s.reinstall t') :=
  h.step sub fun _ h => by
    unfold State.reinstall
    extract_lets s1 s2
    have hs1 : Only _ _ s1 := h.clearFlows.foldl fun _ _ h1 => h1.setRouter
    exact hs1.installTables.onSectRec

theorem swapRow {q y p : Nat} (h : Only P r s)
    (sub : [.out, .regs, .bus, .ras, .grid, .work, .press, .ses, .sram, .cl, .trace] ⊆ P := by decide) : Only P r (s.swapRow q y p) :=
  h.step sub fun _ h => by
    unfold State.swapRow
    extract_lets s1 at_ src s2 s3 s4 src' s5
    have hs1 : Only _ _ s1 := h.foldl fun _ _ h1 => h1.setCell
    have hs4 : Only _ _ s4 := hs1.setCell.repoint.setQrow.foldl fun _ _ h2 => h2.reinstall
    exact hs4.withGrid.rasReport.event

theorem repairCauses (h : Only P r s) (sub : [.out, .regs, .bus, .ras, .sram, .cl] ⊆ P := by decide) : Only P r s.repairCauses :=
  h.step sub fun _ h => h.setCause.setCause.setCause

theorem swapAll (h : Only P r s) (sub : [.out, .regs, .bus, .ras, .grid, .work, .press, .ses, .sram, .cl, .trace] ⊆ P := by decide) :
    Only P r s.swapAll :=
  h.step sub fun _ h => (h.foldl fun _ _ h1 => h1.swapRow).repairCauses

theorem deferSwap {q y : Nat} (h : Only P r s) (sub : [.out, .regs, .bus, .ras, .sram, .cl, .trace] ⊆ P := by decide) :
    Only P r (s.deferSwap q y) :=
  h.step sub fun _ h => h.rasReport

theorem deferSwaps (h : Only P r s) (sub : [.out, .regs, .bus, .ras, .sram, .cl, .trace] ⊆ P := by decide) : Only P r s.deferSwaps :=
  h.step sub fun _ h => h.foldl fun _ _ h1 => h1.deferSwap

theorem removeRow {q y : Nat} (h : Only P r s) (sub : [.out, .regs, .bus, .ras, .grid, .sram, .cl, .trace] ⊆ P := by decide) :
    Only P r (s.removeRow q y) :=
  h.step sub fun _ h => by
    unfold State.removeRow
    extract_lets s1 src s2
    have hs2 : Only _ _ s2 := h.setQrow.foldl fun _ _ h1 => h1.setCell
    exact hs2.rasReport.event

theorem markDisplaced (h : Only P r s) (sub : [.work] ⊆ P := by decide) : Only P r s.markDisplaced :=
  h.step sub fun _ h => h.foldl fun _ _ h1 => h1.discardConts.withWork

theorem settleDisplaced (h : Only P r s) (sub : [.work] ⊆ P := by decide) : Only P r s.settleDisplaced := h.step sub fun _ h => h.withWork

theorem planes (h : Only P r s) (sub : [.out, .regs, .bus, .ras, .grid, .sram, .cl] ⊆ P := by decide) : Only P r s.planes :=
  h.step sub fun _ h => h.withGrid.setCause

theorem repairHead (h : Only P r s) (sub : [.out, .regs, .bus, .ras, .grid, .sram, .cl, .trace] ⊆ P := by decide) : Only P r s.repairHead :=
  h.step sub fun _ h => by
    unfold State.repairHead
    extract_lets s1 s2 s3 src s4 s5 src'
    have hs2 : Only _ _ s2 := h.planes.foldl fun _ _ h1 => h1.removeRow
    have hs3 : Only _ _ s3 := hs2.foldl fun _ _ h2 => h2.setQrow
    have hs5 : Only _ _ s5 := hs3.withGrid.foldl fun _ _ h3 => h3.deferSwap
    exact hs5.withGrid

theorem repairTail {changed : Bool} (h : Only P r s) (sub : [.out, .regs, .bus, .ras, .work, .sram, .cl, .nv, .sys] ⊆ P := by decide) :
    Only P r (s.repairTail changed) :=
  h.step sub fun _ h => by
    unfold State.repairTail
    extract_lets s1 s2 src
    have hs2 : Only _ _ s2 := .ite h.markDisplaced.repairCauses.mapRecord h.markDisplaced.repairCauses
    exact .ite hs2.withSys.mapRecord hs2

theorem applyRepairs (h : Only P r s) (sub : [.out, .regs, .bus, .ras, .grid, .sram, .cl] ⊆ P := by decide) : Only P r s.applyRepairs :=
  h.step sub fun _ h => h.withGrid.foldl fun _ _ h1 => .ite h1.decideRepair h1

theorem writeRepairApply {val : Word} (h : Only P r s) (sub : [.out, .regs, .bus, .ras, .grid, .sram, .cl] ⊆ P := by decide) :
    Only P r (s.writeRepairApply val).1 :=
  h.step sub fun _ h => (Only.ite h.applyRepairs.repairCauses h).res

theorem execRepairApplyWrite {rq : Req} {val : Word} (h : Only P r s)
    (sub : [.out, .tb, .regs, .bus, .ras, .rind, .grid, .sram, .cl, .nv, .trace] ⊆ P := by decide) :
    Answers P r (execRepairApplyWrite rq val s) :=
  h.answer sub fun _ h => (h.busWrite (fun _ h1 => h1.writeRepairApply)).next

theorem writeRepairClear {i : Iface} {val : Word} (h : Only P r s)
    (sub : [.out, .regs, .bus, .ras, .rind, .sram, .cl, .nv] ⊆ P := by decide) : Only P r (s.writeRepairClear i val).1 :=
  h.step sub fun _ h => .iteFst h.res (.iteFst h.defer.res h.mapRecord.res)

theorem execRepairClear {rq : Req} {val : Word} (h : Only P r s)
    (sub : [.out, .tb, .regs, .bus, .ras, .rind, .sram, .cl, .nv, .trace] ⊆ P := by decide) : Answers P r (execRepairClear rq val s) :=
  h.answer sub fun _ h => (h.busWrite (fun _ h1 => h1.writeRepairClear)).next

theorem showUnack (h : Only P r s) (sub : [.regs] ⊆ P := by decide) : Only P r s.showUnack := h.step sub fun _ h => h.setRegBit

theorem retryMap {seq : Nat} (h : Only P r s) (sub : [.out, .regs, .bus, .ras, .sram, .cl, .nv] ⊆ P := by decide) :
    Only P r (s.retryMap seq) :=
  h.step sub fun _ h => h.withNv.appendRecord

theorem execRepairNvRetry {at_ : Dword} (h : Only P r s) (sub : [.out, .tb, .regs, .bus, .ras, .sram, .cl, .nv] ⊆ P := by decide) :
    Answers P r (execRepairNvRetry at_ s) :=
  h.answer sub fun _ h => by
    unfold Machine.execRepairNvRetry
    extract_lets s1
    split
    · exact h.passOver
    · exact .ite h.passOver (.ite h.passOver h.advance.retryMap.next)

end Only
end Sys2Proof.Machine
end

/-! ### What the operations of the watchdog, trace and debug may change (`Machine/Watch.lean`) -/

section
open Sys2Proof
namespace Sys2Proof.Machine
namespace Only
set_option Elab.async false
variable {P Q : List Piece} {r s t : State}

theorem dropTrace (h : Only P r s) (sub : [.regs, .bus, .ras, .sram, .cl, .trace] ⊆ P := by decide) : Only P r s.dropTrace :=
  h.step sub fun _ h => h.withTrace.bump

theorem ringPut {r' : List Byte} (h : Only P r s)
    (sub : [.out, .regs, .bus, .ras, .grid, .mods, .modHeld, .sram, .cl, .trace] ⊆ P := by decide) : Only P r (s.ringPut r') :=
  h.step sub fun _ h => by
    unfold State.ringPut
    extract_lets a
    refine .ite h.dropTrace ?_
    refine .ite h.sramWrite.setFld64 ?_
    split
    next t pieces heq =>
      have h1 : Only _ _ t := h.memWrite_ok heq
      exact h1.setFld64
    · exact h.setRegBit.event.dropTrace

theorem lostRecord (h : Only P r s) (sub : [.trace] ⊆ P := by decide) : Only P r s.lostRecord := h.step sub fun _ h => .ite h h.withTrace

theorem tracePump (h : Only P r s) (sub : [.out, .regs, .bus, .ras, .grid, .mods, .modHeld, .sram, .cl, .trace] ⊆ P := by decide) :
    Only P r s.tracePump :=
  h.step sub fun _ h => by
    unfold State.tracePump
    split
    · exact h
    · exact h.withTrace.ringPut.lostRecord

theorem traceFlush {x : Nat} (h : Only P r s)
    (sub : [.out, .regs, .bus, .ras, .grid, .mods, .modHeld, .sram, .cl, .trace] ⊆ P := by decide) : Only P r (s.traceFlush x) :=
  h.step sub fun _ h => by
    clear * - h
    induction x generalizing s with
    | zero => exact h
    | succ n ih =>
      unfold State.traceFlush
      exact ih h.tracePump

theorem flushTrace (h : Only P r s) (sub : [.out, .regs, .bus, .ras, .grid, .mods, .modHeld, .sram, .cl, .trace] ⊆ P := by decide) :
    Only P r s.flushTrace :=
  h.step sub fun _ h => h.traceFlush

theorem execTraceRingWrite (h : Only P r s) (sub : [.out, .regs, .bus, .ras, .grid, .mods, .modHeld, .sram, .cl, .trace] ⊆ P := by decide) :
    Answers P r (execTraceRingWrite s) :=
  h.answer sub fun _ h => by
    unfold Machine.execTraceRingWrite
    extract_lets s1
    have hs1 : Only _ _ s1 := .ite h.lostRecord h
    exact .ite h.passOver hs1.tracePump.next

theorem writeTraceCtl {i : Iface} {val : Word} (h : Only P r s)
    (sub : [.out, .regs, .bus, .ras, .grid, .mods, .modHeld, .sram, .cl, .trace] ⊆ P := by decide) : Only P r (s.writeTraceCtl i val).1 :=
  h.step sub fun _ h => by
    unfold State.writeTraceCtl
    extract_lets was en s1 s2 src
    have hs1 : Only _ _ s1 := .ite h.flushTrace h
    refine .iteFst h.reservedWrite.res ?_
    exact (Only.ite hs1.setRegBit.setRegBit.withTrace.setRegBit hs1.setRegBit.setRegBit).res

theorem execTraceEnable {rq : Req} (h : Only P r s)
    (sub : [.out, .tb, .regs, .bus, .ras, .rind, .grid, .mods, .modHeld, .sram, .cl, .nv, .trace] ⊆ P := by decide) :
    Answers P r (execTraceEnable rq s) :=
  h.answer sub fun _ h => by
    unfold Machine.execTraceEnable
    extract_lets v
    exact (h.busWrite (fun _ h1 => h1.writeTraceCtl)).next

theorem writeFwRec {off : Nat} {val : Word} (h : Only P r s) (sub : [.free, .regs, .bus, .ras, .sram, .cl, .trace] ⊆ P := by decide) :
    Only P r (s.writeFwRec off val).1 :=
  h.step sub fun _ h => by
    unfold State.writeFwRec
    extract_lets s1
    exact .iteFst h.setReg.res h.setReg.takeFree.traceRec.res

theorem execTraceFwRec {rq : Req} {val : Word} (h : Only P r s)
    (sub : [.free, .out, .tb, .regs, .bus, .ras, .rind, .sram, .cl, .nv, .trace] ⊆ P := by decide) :
    Answers P r (execTraceFwRec rq val s) :=
  h.answer sub fun _ h => (h.busWrite (fun _ h1 => h1.writeFwRec)).next

theorem ringRecord {i : Nat} (h : Only P r s) (sub : [.free, .out, .regs, .bus, .ras, .grid, .mods, .sram, .cl, .trace] ⊆ P := by decide) :
    Only P r (s.ringRecord i).1 :=
  h.step sub fun _ h => by
    unfold State.ringRecord
    extract_lets a
    refine .iteFst h.sramRead.res ?_
    split
    next t ps heq =>
      have h1 : Only _ _ t := h.memRead_ok heq
      exact h1.res
    · exact h.res

theorem ringRecords {i x : Nat} (h : Only P r s)
    (sub : [.free, .out, .regs, .bus, .ras, .grid, .mods, .sram, .cl, .trace] ⊆ P := by decide) : Only P r (s.ringRecords i x).1 :=
  h.step sub fun _ h => by
    clear * - h
    induction x generalizing s i with
    | zero => exact h.res
    | succ n ih =>
      unfold State.ringRecords
      split
      next s1 heq =>
        have h1 : Only _ _ s1 := .fst heq h.ringRecord
        exact h1.res
      next s1 b heq =>
        have h2 : Only _ _ s1 := .fst heq h.ringRecord
        split
        next s2 bs heq =>
        have h3 : Only _ _ s2 := .fst heq (ih h2)
        exact h3.res

theorem dumpInto {sec : Nat} {bs : List Byte} (h : Only P r s) (sub : [.regs, .nv, .trace] ⊆ P := by decide) :
    Only P r (s.dumpInto sec bs) :=
  h.step sub fun _ h => h.setFld.withTrace.program.program

theorem writeDump {val : Word} (h : Only P r s)
    (sub : [.free, .out, .regs, .bus, .ras, .grid, .mods, .sram, .cl, .nv, .trace] ⊆ P := by decide) : Only P r (s.writeDump val).1 :=
  h.step sub fun _ h => by
    unfold State.writeDump
    extract_lets n
    refine .iteFst h.res ?_
    cases s.dumpSlot with
    | none => exact h.setFld.res
    | some sec =>
      cases records : s.ringRecords (s.traceHead - n) n with
      | mk t bs =>
        have h1 : Only _ _ t := .fst records h.ringRecords
        cases bs with
        | none => exact h1.setFld.res
        | some bs => exact h1.dumpInto.res

theorem execTraceDumpGo {rq : Req} (h : Only P r s)
    (sub : [.free, .out, .tb, .regs, .bus, .ras, .rind, .grid, .mods, .sram, .cl, .nv, .trace] ⊆ P := by decide) :
    Answers P r (execTraceDumpGo rq s) :=
  h.answer sub fun _ h => (h.busWrite (fun _ h1 => h1.writeDump)).next

theorem writeDumpAck {val : Word} (h : Only P r s) (sub : [.regs, .nv, .trace] ⊆ P := by decide) : Only P r (s.writeDumpAck val).1 :=
  h.step sub fun _ h => by
    unfold State.writeDumpAck
    split
    · exact h.res
    · extract_lets base src s1
      exact h.setFld.withTrace.program.eraseSector.res

theorem execTraceDumpAck {rq : Req} (h : Only P r s)
    (sub : [.out, .tb, .regs, .bus, .ras, .rind, .sram, .cl, .nv, .trace] ⊆ P := by decide) : Answers P r (execTraceDumpAck rq s) :=
  h.answer sub fun _ h => (h.busWrite (fun _ h1 => h1.writeDumpAck)).next

theorem setStage {n : Nat} (h : Only P r s) (sub : [.regs] ⊆ P := by decide) : Only P r (s.setStage n) :=
  h.step sub fun _ h => h.setRegBit.setRegBit

theorem wdtArm (h : Only P r s) (sub : [.regs, .wdt] ⊆ P := by decide) : Only P r s.wdtArm :=
  h.step sub fun _ h => by
    unfold State.wdtArm
    extract_lets s1 src
    have hs1 : Only _ _ s1 := h.setFld.setFld.setFld.setReg
    exact hs1.withWdt.setFld.setStage

theorem captureWdt {f : Fld} {cause : Nat} {t' : Dword} (h : Only P r s) (sub : [.free, .regs] ⊆ P := by decide) :
    Only P r (s.captureWdt f cause t') :=
  h.step sub fun _ h => h.setFld.setFld64.setFld64.foldl fun _ _ h1 => .ite h1.takeFree.setFld64 h1.setFld64

theorem wdtStage1 {cause : Nat} {t' : Dword} (h : Only P r s)
    (sub : [.free, .out, .regs, .bus, .ras, .grid, .mods, .modHeld, .sram, .cl, .trace, .wdt] ⊆ P := by decide) :
    Only P r (s.wdtStage1 cause t') :=
  h.step sub fun _ h => by
    unfold State.wdtStage1
    extract_lets s1 src s2
    have hs2 : Only _ _ s2 := h.captureWdt.setStage.withWdt.event
    exact hs2.traceRec.flushTrace

theorem wdtAccept (h : Only P r s) (sub : [.regs, .bus, .ras, .cal, .sram, .cl, .wdt] ⊆ P := by decide) : Only P r s.wdtAccept :=
  h.step sub fun _ h => by
    unfold State.wdtAccept
    extract_lets w w1 s1
    split
    · exact h.withWdt.calApply.setFld.setFld
    · exact h.withWdt.calApply.bump

theorem writeSvc {i : Iface} {val : Word} (h : Only P r s)
    (sub : [.free, .out, .regs, .bus, .ras, .cal, .grid, .mods, .modHeld, .sram, .cl, .trace, .wdt] ⊆ P := by decide) :
    Only P r (s.writeSvc i val).1 :=
  h.step sub fun _ h => by
    unfold State.writeSvc
    refine .iteFst h.reservedWrite.res ?_
    refine .iteFst h.res ?_
    refine .iteFst h.bump.res ?_
    exact .iteFst h.wdtStage1.bump.res (.iteFst h.wdtStage1.res (.iteFst h.wdtStage1.res h.wdtAccept.res))

theorem execWdtService {rq : Req} {val : Word} (h : Only P r s)
    (sub : [.free, .out, .tb, .regs, .bus, .ras, .rind, .cal, .grid, .mods, .modHeld, .sram, .cl, .nv, .trace, .wdt] ⊆ P := by decide) :
    Answers P r (execWdtService rq val s) :=
  h.answer sub fun _ h => (h.busWrite (fun _ h1 => h1.writeSvc)).next

theorem writeWdt {i : Iface} {off : Nat} {val : Word} (h : Only P r s)
    (sub : [.out, .regs, .bus, .ras, .sram, .cl, .wdt] ⊆ P := by decide) : Only P r (s.writeWdt i off val).1 :=
  h.step sub fun _ h => by
    unfold State.writeWdt
    extract_lets lo hi v bad src
    exact .iteFst h.res (.iteFst h.reservedWrite.res (.iteFst h.withWdt.setFld.res h.setReg.res))

theorem execWdtExpire {at_ : Dword} (h : Only P r s)
    (sub : [.free, .out, .tb, .regs, .bus, .ras, .grid, .mods, .modHeld, .sram, .cl, .trace, .wdt] ⊆ P := by decide) :
    Answers P r (execWdtExpire at_ s) :=
  h.answer sub fun _ h => by
    unfold Machine.execWdtExpire
    extract_lets s1
    exact .ite h.passOver (.ite h.passOver h.advance.wdtStage1.next)

theorem execWdtClockExpire {count : Nat} {at_ : Dword} (h : Only P r s)
    (sub : [.free, .out, .tb, .regs, .bus, .ras, .grid, .mods, .modHeld, .sram, .cl, .trace, .wdt] ⊆ P := by decide) :
    Answers P r (execWdtClockExpire count at_ s) :=
  h.answer sub fun _ h => by
    unfold Machine.execWdtClockExpire
    extract_lets s1 scaled
    exact .ite h.passOver (.ite h.passOver h.advance.wdtStage1.next)

theorem wdtFreeze (h : Only P r s) (sub : [.regs, .wdt] ⊆ P := by decide) : Only P r s.wdtFreeze :=
  h.step sub fun _ h => by
    unfold State.wdtFreeze
    extract_lets stop src
    split
    · exact .ite h.withWdt.setRegBit h
    · exact .ite h h.withWdt.setRegBit

theorem setCore {k : Nat} {c : Core} (h : Only P r s) (sub : [.cl] ⊆ P := by decide) : Only P r (s.setCore k c) :=
  h.step sub fun _ h => h.withCl

theorem resumeCores (h : Only P r s) (sub : [.regs, .cl, .wdt] ⊆ P := by decide) : Only P r s.resumeCores :=
  h.step sub fun _ h => (h.foldl fun _ _ h1 => h1.setCore).wdtFreeze

theorem setIr {i : JtagIr} (h : Only P r s) (sub : [.jtag] ⊆ P := by decide) : Only P r (s.setIr i) := h.step sub fun _ h => h.withJtag

theorem execJtagIdcode (h : Only P r s) (sub : [.out, .jtag] ⊆ P := by decide) : Answers P r (execJtagIdcode s) :=
  h.answer sub fun _ h => h.setIr.emit.next

theorem execJtagBypass (h : Only P r s) (sub : [.jtag] ⊆ P := by decide) : Answers P r (execJtagBypass s) :=
  h.answer sub fun _ h => h.setIr.next

theorem execJtagSamplePreload {pins preload : List Bool} (h : Only P r s) (sub : [.out, .jtag] ⊆ P := by decide) :
    Answers P r (execJtagSamplePreload pins preload s) :=
  h.answer sub fun _ h => h.withJtag.emit.next

theorem jtagDrive {i : JtagIr} {mode : Nat} {bits : List Bool} (h : Only P r s) (sub : [.out, .jtag] ⊆ P := by decide) :
    Only P r (s.jtagDrive i mode bits) :=
  h.step sub fun _ h => .ite h.setIr.emit h.setIr

theorem execJtagExtest (h : Only P r s) (sub : [.out, .jtag] ⊆ P := by decide) : Answers P r (execJtagExtest s) :=
  h.answer sub fun _ h => h.jtagDrive.next

theorem execJtagClamp (h : Only P r s) (sub : [.out, .jtag] ⊆ P := by decide) : Answers P r (execJtagClamp s) :=
  h.answer sub fun _ h => h.jtagDrive.next

theorem execJtagHighz (h : Only P r s) (sub : [.out, .jtag] ⊆ P := by decide) : Answers P r (execJtagHighz s) :=
  h.answer sub fun _ h => h.jtagDrive.next

theorem execDebugCoreHalt {k : Nat} {at_ : Dword} (h : Only P r s) (sub : [.tb, .regs, .cl, .wdt] ⊆ P := by decide) :
    Answers P r (execDebugCoreHalt k at_ s) :=
  h.answer sub fun _ h => by
    unfold Machine.execDebugCoreHalt
    extract_lets s1 src
    exact .ite h.advance.setCore.wdtFreeze.next h.advance.next

theorem execDebugCoreResume {k : Nat} {at_ : Dword} (h : Only P r s) (sub : [.tb, .regs, .cl, .wdt] ⊆ P := by decide) :
    Answers P r (execDebugCoreResume k at_ s) :=
  h.answer sub fun _ h => by
    unfold Machine.execDebugCoreResume
    extract_lets s1 src
    exact .ite h.advance.setCore.wdtFreeze.next h.advance.next

theorem execPldmSensorRead {sensor : Nat} (h : Only P r s) (sub : [.out] ⊆ P := by decide) : Answers P r (execPldmSensorRead sensor s) :=
  h.answer sub fun _ h => .ite h.emit.next (.ite h.emit.next (.ite h.emit.next h.emit.next))

end Only
end Sys2Proof.Machine
end

/-! ### What the operations of sessions and keys may change (`Machine/Rind.lean`) -/

section
open Sys2Proof
namespace Sys2Proof.Machine
namespace Only
set_option Elab.async false
variable {P Q : List Piece} {r s t : State}

theorem debugRec {k open_ role : Nat} (h : Only P r s) (sub : [.regs, .bus, .ras, .sram, .cl, .trace] ⊆ P := by decide) :
    Only P r (s.debugRec k open_ role) :=
  h.step sub fun _ h => .ite h h.traceRec

theorem closeSess {k cause : Nat} (h : Only P r s)
    (sub : [.out, .regs, .bus, .ras, .rind, .sram, .cl, .nv, .trace, .wdt] ⊆ P := by decide) : Only P r (s.closeSess k cause) :=
  h.step sub fun _ h => .ite h (.ite h.setSess.audit.debugRec.resumeCores h.setSess.audit.debugRec)

theorem closeSessions {cause : Nat} {p : Nat → Sess → Bool} (h : Only P r s)
    (sub : [.out, .regs, .bus, .ras, .rind, .sram, .cl, .nv, .trace, .wdt] ⊆ P := by decide) : Only P r (s.closeSessions cause p) :=
  h.step sub fun _ h => h.foldl fun _ _ h1 => .ite h1.closeSess h1

theorem randomBytes {x : Nat} (h : Only P r s) (sub : [.free] ⊆ P := by decide) : Only P r (s.randomBytes x).1 :=
  h.step sub fun _ h => by
    clear * - h
    induction x generalizing s with
    | zero => exact h.res
    | succ n ih =>
      unfold State.randomBytes
      split
      next v s1 heq =>
      have h2 : Only _ _ s1 := .snd heq h.takeFree
      split
      next s2 bs heq =>
      have h3 : Only _ _ s2 := .fst heq (ih h2)
      exact h3.res

theorem sessFail {k role : Nat} (h : Only P r s) (sub : [.out, .regs, .bus, .ras, .rind, .sram, .cl, .nv] ⊆ P := by decide) :
    Only P r (sessFail s k role) :=
  h.step sub fun _ h => h.audit

theorem openSess {k role key : Nat} (h : Only P r s)
    (sub : [.free, .out, .regs, .bus, .ras, .rind, .sram, .cl, .nv, .trace, .wdt] ⊆ P := by decide) : Only P r (s.openSess k role key) :=
  h.step sub fun _ h => by
    unfold State.openSess
    extract_lets s1 x
    have hs1 : Only _ _ s1 := h.closeSess
    refine .ite hs1.setSess (.ite hs1.setSess.sessFail ?_)
    split
    next s2 n heq =>
    have h2 : Only _ _ s2 := .fst heq hs1.randomBytes
    exact h2.setSess

theorem writeSessCtl {i : Iface} {val : Word} (h : Only P r s)
    (sub : [.free, .out, .regs, .bus, .ras, .rind, .sram, .cl, .nv, .trace, .wdt] ⊆ P := by decide) : Only P r (s.writeSessCtl i val).1 :=
  h.step sub fun _ h => by
    unfold State.writeSessCtl
    split
    · exact h.res
    · extract_lets act role key src s1
      exact .iteFst h.reservedWrite.res ((Only.ite h.setSess.openSess (.ite h.setSess.closeSess h.setSess)).res)

theorem enterSess {k role key : Nat} {iauth : List Byte} (h : Only P r s)
    (sub : [.out, .regs, .bus, .ras, .rind, .sram, .cl, .nv, .trace, .wdt] ⊆ P := by decide) : Only P r (s.enterSess k role key iauth) :=
  h.step sub fun _ h => h.setSess.audit.debugRec.wdtFreeze

theorem checkResp {k : Nat} (h : Only P r s) (sub : [.out, .regs, .bus, .ras, .rind, .sram, .cl, .nv, .trace, .wdt] ⊆ P := by decide) :
    Only P r (s.checkResp k) :=
  h.step sub fun _ h => .ite h (.ite h.enterSess h.setSess.sessFail)

theorem writeSessResp {i : Iface} {off : Nat} {val : Word} (h : Only P r s)
    (sub : [.out, .regs, .bus, .ras, .rind, .sram, .cl, .nv, .trace, .wdt] ⊆ P := by decide) : Only P r (s.writeSessResp i off val).1 :=
  h.step sub fun _ h => by
    unfold State.writeSessResp
    split
    · exact h.res
    · extract_lets x s1 last
      exact (Only.ite h.setSess.checkResp h.setSess).res

theorem busSess {rq : Req} {off : Nat} {val : Word} {f : State → State × Nat} (h : Only P r s) (hf : ∀ t, Only P r t → Only P r (f t).1)
    (sub : [.out, .tb, .regs, .bus, .ras, .rind, .sram, .cl, .nv,
      .trace] ⊆ P := by decide) : Only P r (s.busSess rq off val f) := h.busWrite hf sub

theorem execSessOpen {rq : Req} {role key : Nat} (h : Only P r s)
    (sub : [.free, .out, .tb, .regs, .bus, .ras, .rind, .sram, .cl, .nv, .trace, .wdt] ⊆ P := by decide) :
    Answers P r (execSessOpen rq role key s) :=
  h.answer sub fun _ h => by
    unfold Machine.execSessOpen
    extract_lets v
    exact (h.busSess (fun _ h1 => h1.writeSessCtl)).next

theorem execSessResp {rq : Req} {val : Word} (h : Only P r s)
    (sub : [.out, .tb, .regs, .bus, .ras, .rind, .sram, .cl, .nv, .trace, .wdt] ⊆ P := by decide) : Answers P r (execSessResp rq val s) :=
  h.answer sub fun _ h => by
    unfold Machine.execSessResp
    extract_lets k off
    exact (h.busSess (fun _ h1 => h1.writeSessResp)).next

theorem execSessClose {rq : Req} (h : Only P r s)
    (sub : [.free, .out, .tb, .regs, .bus, .ras, .rind, .sram, .cl, .nv, .trace, .wdt] ⊆ P := by decide) :
    Answers P r (execSessClose rq s) :=
  h.answer sub fun _ h => (h.busSess (fun _ h1 => h1.writeSessCtl)).next

theorem execSessIdleClose {k : Nat} {at_ : Dword} (h : Only P r s)
    (sub : [.out, .tb, .regs, .bus, .ras, .rind, .sram, .cl, .nv, .trace, .wdt] ⊆ P := by decide) :
    Answers P r (execSessIdleClose k at_ s) :=
  h.answer sub fun _ h => by
    unfold Machine.execSessIdleClose
    extract_lets s1
    exact .ite h.passOver (.ite h.passOver h.advance.closeSess.next)

theorem execNonceExpire {k : Nat} {at_ : Dword} (h : Only P r s) (sub : [.tb, .rind] ⊆ P := by decide) :
    Answers P r (execNonceExpire k at_ s) :=
  h.answer sub fun _ h => by
    unfold Machine.execNonceExpire
    extract_lets s1 x
    exact .ite h.passOver h.advance.setSess.next

theorem execLockoutExpire {k : Nat} {at_ : Dword} (h : Only P r s) (sub : [.tb, .rind] ⊆ P := by decide) :
    Answers P r (execLockoutExpire k at_ s) :=
  h.answer sub fun _ h => by
    unfold Machine.execLockoutExpire
    extract_lets s1 x
    exact .ite h.passOver h.advance.setSess.next

theorem keySts {v : Nat} (h : Only P r s) (sub : [.regs] ⊆ P := by decide) : Only P r (s.keySts v) := h.step sub fun _ h => h.setFld

theorem keyAction {i : Iface} {type slot : Nat} {b : Except Nat Burn} (h : Only P r s)
    (sub : [.out, .regs, .bus, .ras, .rind, .sram, .cl, .nv] ⊆ P := by decide) : Only P r (s.keyAction i type slot b).1 :=
  h.step sub fun _ h => by
    unfold State.keyAction
    split
    · exact h.keySts.audit.res
    · extract_lets seq
      exact h.keySts.audit.defer.res

theorem writeKeyCtl {i : Iface} {val : Word} (h : Only P r s) (sub : [.out, .regs, .bus, .ras, .rind, .sram, .cl, .nv] ⊆ P := by decide) :
    Only P r (s.writeKeyCtl i val).1 :=
  h.step sub fun _ h => by
    unfold State.writeKeyCtl
    extract_lets act slot
    refine .iteFst h.res ?_
    exact .iteFst h.reservedWrite.res (.iteFst h.res (.iteFst h.keyAction (.iteFst h.keyAction h.keyAction)))

theorem busKey {rq : Req} {act slot : Nat} (h : Only P r s)
    (sub : [.out, .tb, .regs, .bus, .ras, .rind, .sram, .cl, .nv, .trace] ⊆ P := by decide) : Only P r (s.busKey rq act slot) :=
  h.step sub fun _ h => h.busWrite (fun _ h1 => h1.writeKeyCtl)

theorem execKeyWrite {rq : Req} {slot : Nat} (h : Only P r s)
    (sub : [.out, .tb, .regs, .bus, .ras, .rind, .sram, .cl, .nv, .trace] ⊆ P := by decide) : Answers P r (execKeyWrite rq slot s) :=
  h.answer sub fun _ h => h.busKey.next

theorem execKeyRevoke {rq : Req} {slot : Nat} (h : Only P r s)
    (sub : [.out, .tb, .regs, .bus, .ras, .rind, .sram, .cl, .nv, .trace] ⊆ P := by decide) : Answers P r (execKeyRevoke rq slot s) :=
  h.answer sub fun _ h => h.busKey.next

theorem execKeyClaim {rq : Req} (h : Only P r s) (sub : [.out, .tb, .regs, .bus, .ras, .rind, .sram, .cl, .nv, .trace] ⊆ P := by decide) :
    Answers P r (execKeyClaim rq s) :=
  h.answer sub fun _ h => h.busKey.next

theorem endBurn {i : Iface} {b : Burn} {ok : Bool} (h : Only P r s)
    (sub : [.out, .regs, .bus, .ras, .rind, .sram, .cl, .nv, .trace, .wdt] ⊆ P := by decide) : Only P r (s.endBurn i b ok) :=
  h.step sub fun _ h => by
    unfold State.endBurn
    extract_lets src s1 src'
    split
    · exact .ite h.withRind.withRind.keySts h.withRind.keySts
    · refine .ite ?_ h.withRind.withRind.keySts
      extract_lets s2
      refine .ite h.withRind.withRind.keySts.enterSess ?_
      split
      · exact h.withRind.withRind.keySts.setSess
      · exact h.withRind.withRind.keySts

theorem execKeyBurnComplete {ok : Bool} (h : Only P r s)
    (sub : [.out, .regs, .bus, .ras, .rind, .sram, .cl, .nv, .trace, .wdt] ⊆ P := by decide) : Answers P r (execKeyBurnComplete ok s) :=
  h.answer sub fun _ h => by
    unfold Machine.execKeyBurnComplete
    split
    · exact h.passOver
    · exact h.endBurn.next

theorem burnMfuse {i : Iface} {val : Word} (h : Only P r s) (sub : [.out, .regs, .bus, .ras, .rind, .sram, .cl] ⊆ P := by decide) :
    Only P r (s.burnMfuse i val).1 :=
  h.step sub fun _ h => by
    unfold State.burnMfuse
    extract_lets t d src
    refine .iteFst h.res ?_
    refine .iteFst h.res ?_
    refine .iteFst (.iteFst h.withRind.res h.res) ?_
    refine .iteFst (.iteFst h.res h.withRind.res) ?_
    exact .iteFst (.iteFst h.res h.withRind.res) (.iteFst (.iteFst h.res h.withRind.res) h.reservedWrite.res)

theorem execMfuseGo {rq : Req} {val : Word} (h : Only P r s)
    (sub : [.out, .tb, .regs, .bus, .ras, .rind, .sram, .cl, .nv, .trace] ⊆ P := by decide) : Answers P r (execMfuseGo rq val s) :=
  h.answer sub fun _ h => (h.busWrite (fun _ h1 => h1.burnMfuse)).next

theorem writeLcGo {i : Iface} {val : Word} (h : Only P r s) (sub : [.out, .regs, .bus, .ras, .rind, .sram, .cl, .nv] ⊆ P := by decide) :
    Only P r (s.writeLcGo i val).1 :=
  h.step sub fun _ h => by
    unfold State.writeLcGo
    extract_lets t busy rec_ seq
    exact .iteFst h.reservedWrite.res (.iteFst h.res (.iteFst h.setFld.audit.defer.res h.setFld.audit.res))

theorem execLcGo {rq : Req} {target : Nat} (h : Only P r s)
    (sub : [.out, .tb, .regs, .bus, .ras, .rind, .sram, .cl, .nv, .trace] ⊆ P := by decide) : Answers P r (execLcGo rq target s) :=
  h.answer sub fun _ h => by
    unfold Machine.execLcGo
    extract_lets v
    exact (h.busWrite (fun _ h1 => h1.writeLcGo)).next

theorem writeConsent {i : Iface} {val : Word} (h : Only P r s) (sub : [.regs] ⊆ P := by decide) : Only P r (s.writeConsent i val).1 :=
  h.step sub fun _ h => .iteFst h.res (.iteFst h.setFld.res h.res)

theorem lcEnter {t' : Nat} (h : Only P r s) (sub : [.out, .regs, .bus, .ras, .rind, .sram, .cl, .nv, .trace, .wdt] ⊆ P := by decide) :
    Only P r (s.lcEnter t') :=
  h.step sub fun _ h => by
    unfold State.lcEnter
    extract_lets src s1 src' s2
    have hs1 : Only _ _ s1 := .ite h.withRind h
    have hs2 : Only _ _ s2 := .ite hs1.withRind hs1
    exact hs2.closeSessions

theorem burnLc {t' n : Nat} (h : Only P r s) (sub : [.rind] ⊆ P := by decide) : Only P r (s.burnLc t' n) := h.step sub fun _ h => h.withRind

theorem lcBurnt {t' : Nat} (h : Only P r s) (sub : [.out, .regs, .bus, .ras, .rind, .sram, .cl, .nv, .trace, .wdt] ⊆ P := by decide) :
    Only P r (s.lcBurnt t') :=
  h.step sub fun _ h => h.burnLc.lcEnter.withRind.setFld

theorem execLcBurnComplete (h : Only P r s) (sub : [.out, .regs, .bus, .ras, .rind, .sram, .cl, .nv, .trace, .wdt] ⊆ P := by decide) :
    Answers P r (execLcBurnComplete s) :=
  h.answer sub fun _ h => by
    unfold Machine.execLcBurnComplete
    split
    · exact h.passOver
    · exact h.lcBurnt.next

theorem raiseSecVer {v : Nat} (h : Only P r s) (sub : [.regs, .rind] ⊆ P := by decide) : Only P r (s.raiseSecVer v) :=
  h.step sub fun _ h => h.withRind.setFld

theorem writeSecVer {i : Iface} {val : Word} (h : Only P r s) (sub : [.out, .regs, .bus, .ras, .rind, .sram, .cl, .nv] ⊆ P := by decide) :
    Only P r (s.writeSecVer i val).1 :=
  h.step sub fun _ h => by
    unfold State.writeSecVer
    extract_lets v seq
    exact .iteFst h.reservedWrite.res (.iteFst h.res (.iteFst h.audit.defer.res h.raiseSecVer.res))

theorem execSecVerMinWrite {rq : Req} {val : Word} (h : Only P r s)
    (sub : [.out, .tb, .regs, .bus, .ras, .rind, .sram, .cl, .nv, .trace] ⊆ P := by decide) : Answers P r (execSecVerMinWrite rq val s) :=
  h.answer sub fun _ h => (h.busWrite (fun _ h1 => h1.writeSecVer)).next

theorem setBytes {pg off : Nat} {bs : List Byte} {x : Nat} (h : Only P r s) (sub : [.regs] ⊆ P := by decide) :
    Only P r (s.setBytes pg off bs x) :=
  h.step sub fun _ h => by
    clear * - h
    induction x generalizing s pg off bs with
    | zero => exact h
    | succ n ih =>
      unfold State.setBytes
      exact ih h.setReg

theorem writeAttest {i : Iface} {off : Nat} {val : Word} (h : Only P r s) (sub : [.regs, .rind] ⊆ P := by decide) :
    Only P r (s.writeAttest i off val).1 :=
  h.step sub fun _ h => by
    unfold State.writeAttest
    extract_lets src s1 chain m
    refine .iteFst h.withRind.res ?_
    split
    · exact h.withRind.res
    · refine .iteFst h.withRind.res ?_
      extract_lets tag
      exact h.withRind.setFld.setBytes.setBytes.res

theorem execAttestNonceWrite {rq : Req} {val : Word} (h : Only P r s)
    (sub : [.out, .tb, .regs, .bus, .ras, .rind, .sram, .cl, .nv, .trace] ⊆ P := by decide) : Answers P r (execAttestNonceWrite rq val s) :=
  h.answer sub fun _ h => (h.busWrite (fun _ h1 => h1.writeAttest)).next

theorem calSave (h : Only P r s) (sub : [.out, .regs, .bus, .ras, .sram, .cl, .nv] ⊆ P := by decide) : Only P r s.calSave :=
  h.step sub fun _ h => h.appendRecord

theorem writeCalCtl {i : Iface} {val : Word} (h : Only P r s)
    (sub : [.out, .regs, .bus, .ras, .rind, .cal, .sram, .cl, .nv] ⊆ P := by decide) : Only P r (s.writeCalCtl i val) :=
  h.step sub fun _ h => by
    unfold State.writeCalCtl
    extract_lets s1
    have hs1 : Only _ _ s1 := .ite h.calClear h
    exact .ite (.ite hs1.defer hs1.calSave) hs1

theorem execCalSave {rq : Req} (h : Only P r s)
    (sub : [.out, .tb, .regs, .bus, .ras, .rind, .cal, .sram, .cl, .nv, .trace] ⊆ P := by decide) : Answers P r (execCalSave rq s) :=
  h.answer sub fun _ h => by
    unfold Machine.execCalSave
    extract_lets v
    exact (h.busWrite (fun _ h1 => h1.writeCalCtl.res)).next

theorem execCalClearAll {rq : Req} (h : Only P r s)
    (sub : [.out, .tb, .regs, .bus, .ras, .rind, .cal, .sram, .cl, .nv, .trace] ⊆ P := by decide) : Answers P r (execCalClearAll rq s) :=
  h.answer sub fun _ h => by
    unfold Machine.execCalClearAll
    extract_lets v
    exact (h.busWrite (fun _ h1 => h1.writeCalCtl.res)).next

end Only
end Sys2Proof.Machine
end

/-! ### What the operations of flash operations may change (`Machine/NvOps.lean`) -/

section
open Sys2Proof
namespace Sys2Proof.Machine
namespace Only
set_option Elab.async false
variable {P Q : List Piece} {r s t : State}

theorem updSts {st cause : Nat} (h : Only P r s) (sub : [.regs] ⊆ P := by decide) : Only P r (s.updSts st cause) :=
  h.step sub fun _ h => h.setFld

theorem updFail {cause : Nat} (h : Only P r s) (sub : [.regs, .nv] ⊆ P := by decide) : Only P r (s.updFail cause) :=
  h.step sub fun _ h => h.withNv.updSts

theorem updStart (h : Only P r s) (sub : [.nv] ⊆ P := by decide) : Only P r s.updStart :=
  h.step sub fun _ h => by
    unfold State.updStart
    split
    · exact h
    · exact h.withNv.jWrite

theorem updProgram {u' : Upd} (h : Only P r s) (sub : [.regs, .nv] ⊆ P := by decide) : Only P r (s.updProgram u') :=
  h.step sub fun _ h => .ite h.updFail h.program

theorem updErase {u' : Upd} (h : Only P r s) (sub : [.regs, .nv] ⊆ P := by decide) : Only P r (s.updErase u') :=
  h.step sub fun _ h => by
    unfold State.updErase
    split
    · exact h.updProgram
    · exact .ite h.updFail h.eraseSector

theorem updStep {step : Nat} (h : Only P r s) (sub : [.regs, .nv] ⊆ P := by decide) : Only P r (s.updStep step) :=
  h.step sub fun _ h => by
    unfold State.updStep
    split
    · exact h
    · exact .ite h.withNv.updErase (.ite (.ite h.updFail h.jWrite) (.ite h.jWrite h.withNv.updSts))

theorem updErased {sec : Nat} {bad : Bool} (h : Only P r s) (sub : [.regs, .nv] ⊆ P := by decide) : Only P r (s.updErased sec bad) :=
  h.step sub fun _ h => by
    unfold State.updErased
    split
    · exact h
    · exact .ite h (.ite h.updFail h.withNv.updErase)

theorem updSource {len : Nat} {image : List Byte} {how : ReadEnd} (h : Only P r s)
    (sub : [.free, .out, .regs, .bus, .ras, .grid, .mods, .sram, .cl, .trace] ⊆ P := by decide) : Only P r (s.updSource len image how).1 :=
  h.step sub fun _ h => by
    unfold State.updSource
    extract_lets a
    refine .iteFst ?_ h.res
    split
    next t ps heq =>
      have h1 : Only _ _ t := h.memRead_ok heq
      exact h1.res
    · exact h.res

theorem writeUpdCtl {i : Iface} {val : Word} {image : List Byte} {how : ReadEnd} (h : Only P r s)
    (sub : [.free, .out, .regs, .bus, .ras, .rind, .grid, .mods, .sram, .cl, .nv, .trace] ⊆ P := by decide) :
    Only P r (s.writeUpdCtl i val image how).1 :=
  h.step sub fun _ h => by
    unfold State.writeUpdCtl
    refine .iteFst h.reservedWrite.res ?_
    extract_lets s1 len
    refine .iteFst h.setFld.res ?_
    refine .iteFst h.setFld.updSts.res ?_
    split
    next t bs ends heq =>
    have h1 : Only _ _ t := .fst heq h.setFld.updSource
    extract_lets src s2
    exact .iteFst h1.withNv.updSts.defer.res h1.withNv.updSts.updStart.res

theorem execNvUpdGo {rq : Req} {activate : Bool} {image : List Byte} {how : ReadEnd} (h : Only P r s)
    (sub : [.free, .out, .tb, .regs, .bus, .ras, .rind, .grid, .mods, .sram, .cl, .nv, .trace] ⊆ P := by decide) :
    Answers P r (execNvUpdGo rq activate image how s) :=
  h.answer sub fun _ h => by
    unfold Machine.execNvUpdGo
    extract_lets v
    exact (h.busWrite (fun _ h1 => h1.writeUpdCtl)).next

theorem perform {d : Deferred} (h : Only P r s) (sub : [.out, .regs, .bus, .ras, .rind, .sram, .cl, .nv] ⊆ P := by decide) :
    Only P r (s.perform d) :=
  h.step sub fun _ h => by
    unfold State.perform
    split
    · exact h.withRind
    · exact h.withRind
    · exact h.raiseSecVer
    · exact h.calSave
    · exact h.updStart
    · exact h.mapRecord

theorem audited {seq : Nat} (h : Only P r s) (sub : [.out, .regs, .bus, .ras, .rind, .sram, .cl, .nv] ⊆ P := by decide) :
    Only P r (s.audited seq) :=
  h.step sub fun _ h => h.withRind.setFld.foldl fun _ _ h1 => h1.perform

theorem journalSwitch {sec jseq : Nat} (h : Only P r s) (sub : [.nv] ⊆ P := by decide) : Only P r (s.journalSwitch sec jseq) :=
  h.step sub fun _ h => by
    unfold State.journalSwitch
    extract_lets old j src s1 s2 s3 held src'
    have hs2 : Only _ _ s2 := h.withNv.program.jPut.jPut
    have hs3 : Only _ _ s3 := .ite hs2.program hs2
    exact hs3.withNv.foldl fun _ _ h1 => h1.jWrite

theorem eraseFull {r' : Nat} (h : Only P r s) (sub : [.nv] ⊆ P := by decide) : Only P r (s.eraseFull r') :=
  h.step sub fun _ h => by
    unfold State.eraseFull
    split
    · exact h.foldl fun _ _ h1 => .ite h1.eraseSector h1

theorem retireGasps (h : Only P r s) (sub : [.nv, .acct] ⊆ P := by decide) : Only P r s.retireGasps :=
  h.step sub fun _ h => h.withAcct.foldl fun _ _ h1 => h1.program.eraseSector

theorem follow {o' : FlashOp} (h : Only P r s) (sub : [.out, .regs, .bus, .ras, .rind, .sram, .cl, .nv, .acct] ⊆ P := by decide) :
    Only P r (s.follow o') :=
  h.step sub fun _ h => by
    unfold State.follow
    split
    · exact h
    · exact h.flashOp
    · exact .ite h.program (.ite h.journalSwitch h.jWrite)
    · exact .ite h.withNv.updErased (.ite h.withNv h.withNv.drainHeld)
    · exact h.setFld.showUnack.setRegBit.withNv.eraseFull
    · exact h.eraseFull
    · exact h.audited
    · exact .ite h h.withAcct.retireGasps
    · extract_lets s1
      split
      · exact h.setFld.program
      · exact h.setFld
    · exact h.updStep

theorem execFlashOpStart (h : Only P r s) (sub : [.nv] ⊆ P := by decide) : Answers P r (execFlashOpStart s) :=
  h.answer sub fun _ h => by
    unfold Machine.execFlashOpStart
    extract_lets n
    refine .ite h.passOver ?_
    refine .ite ?_ ?_
    · split
      · exact h.withNv.next
      · exact h.passOver
    · split
      · split
        · exact h.withNv.next
        · exact h.passOver
      · exact h.passOver
      · split
        · exact .ite h.withNv.next h.withNv.next
        · exact h.withNv.next
      · exact .ite h.withNv.next h.passOver

theorem programmed {o' : FlashOp} (h : Only P r s)
    (sub : [.out, .regs, .bus, .ras, .rind, .sram, .cl, .flash, .nv, .acct] ⊆ P := by decide) : Only P r (s.programmed o') :=
  h.step sub fun _ h => .ite h.withFlash.follow h.withFlash.withNv

theorem programFails {o' : FlashOp} (h : Only P r s) (sub : [.out, .regs, .bus, .ras, .sram, .cl, .nv, .trace] ⊆ P := by decide) :
    Only P r (s.programFails o') :=
  h.step sub fun _ h => by
    unfold State.programFails
    extract_lets src s1 src'
    split
    · exact h.withNv.withNv.rasReport.event
    · exact h.withNv.withNv

theorem execFlashProgramComplete {ok : Bool} (h : Only P r s)
    (sub : [.out, .regs, .bus, .ras, .rind, .sram, .cl, .flash, .nv, .acct, .trace] ⊆ P := by decide) :
    Answers P r (execFlashProgramComplete ok s) :=
  h.answer sub fun _ h => by
    unfold Machine.execFlashProgramComplete
    split
    · exact h.passOver
    · exact .ite h.passOver ((Only.ite h.programmed h.programFails).next)

theorem eraseEnds {o' : FlashOp} {ok : Bool} (h : Only P r s)
    (sub : [.out, .regs, .bus, .ras, .rind, .sram, .cl, .flash, .nv, .acct] ⊆ P := by decide) : Only P r (s.eraseEnds o' ok) :=
  h.step sub fun _ h => by
    unfold State.eraseEnds
    extract_lets sec src s1 src' s2 s3 r
    have hs3 : Only _ _ s3 := h.withNv.withNv.jWrite.event
    exact .ite h.withNv.withFlash.follow (.ite h.withNv.withNv (.ite hs3.updErased (.ite hs3 hs3.drainHeld)))

theorem writeAck {i : Iface} {off : Nat} {val : Word} (h : Only P r s) (sub : [.out, .regs, .bus, .ras, .sram, .cl, .nv] ⊆ P := by decide) :
    Only P r (s.writeAck i off val).1 :=
  h.step sub fun _ h => h.plainWrite.drainHeld.res

theorem execNvAcctAck {rq : Req} {val : Word} (h : Only P r s)
    (sub : [.out, .tb, .regs, .bus, .ras, .rind, .sram, .cl, .nv, .trace] ⊆ P := by decide) : Answers P r (execNvAcctAck rq val s) :=
  h.answer sub fun _ h => (h.busWrite (fun _ h1 => h1.writeAck)).next

theorem execNvAuditAck {rq : Req} {val : Word} (h : Only P r s)
    (sub : [.out, .tb, .regs, .bus, .ras, .rind, .sram, .cl, .nv, .trace] ⊆ P := by decide) : Answers P r (execNvAuditAck rq val s) :=
  h.answer sub fun _ h => (h.busWrite (fun _ h1 => h1.writeAck)).next

end Only
end Sys2Proof.Machine
end

/-! ### What the operations of resets may change (`Machine/Resets.lean`) -/

section
open Sys2Proof
namespace Sys2Proof.Machine
namespace Only
set_option Elab.async false
variable {P Q : List Piece} {r s t : State}

theorem endGridWork (h : Only P r s) (sub : [.out, .regs, .bus, .ras, .grid, .work, .sram, .cl, .meter] ⊆ P := by decide) :
    Only P r s.endGridWork :=
  h.step sub fun _ h => by
    unfold State.endGridWork
    extract_lets s1 s2 s3 src
    have hs1 : Only _ _ s1 := h.foldl fun _ _ h1 => .ite h1.endRun h1
    have hs2 : Only _ _ s2 := hs1.foldl fun _ _ h2 => h2.endItem
    have hs3 : Only _ _ s3 := hs2.foldl fun _ _ h3 => h3.failLoad
    exact hs3.withWork

theorem gridReset (h : Only P r s)
    (sub : [.out, .regs, .bus, .ras, .grid, .work, .press, .ses, .sram, .cl, .tyz, .sys, .meter, .trace] ⊆ P := by decide) :
    Only P r s.gridReset :=
  h.step sub fun _ h => by
    unfold State.gridReset
    extract_lets s1 src src' src'' s2
    have hs1 : Only _ _ s1 := h.endGridWork
    have hs2 : Only _ _ s2 := hs1.withGridReset (regsWf_filter _)
    exact hs2.releaseBar4.foldl fun _ _ h => h.setFld.foldl fun _ _ h => h.setFld

theorem releaseGrid (h : Only P r s) (sub : [.grid] ⊆ P := by decide) : Only P r s.releaseGrid := h.step sub fun _ h => h.withGrid

theorem wakeSleep (h : Only P r s) (sub : [.out, .regs, .cal, .grid, .sys] ⊆ P := by decide) : Only P r s.wakeSleep :=
  h.step sub fun _ h => by
    unfold State.wakeSleep
    extract_lets s1 src src'
    have hs1 : Only _ _ s1 := h.foldl fun _ _ h1 => h1.emit.calDeskew
    exact hs1.withGridSys.setFld

theorem endTransition (h : Only P r s) (sub : [.out, .regs, .cal, .grid, .sys] ⊆ P := by decide) : Only P r s.endTransition :=
  h.step sub fun _ h => .ite h.withSys (.ite h.wakeSleep h)

theorem execRouterPlaneFault {pos : Nat} (h : Only P r s)
    (sub : [.out, .regs, .bus, .ras, .cal, .grid, .work, .press, .ses, .sram, .cl, .tyz, .sys, .meter, .trace] ⊆ P := by decide) :
    Answers P r (execRouterPlaneFault pos s) :=
  h.answer sub fun _ h => by
    unfold Machine.execRouterPlaneFault
    refine .ite h.passOver ?_
    extract_lets r s1
    exact .ite h.setRouter.event.rasReport.strike.next h.setRouter.event.rasReport.gridReset.endTransition.next

theorem abandonBurns (h : Only P r s) (sub : [.free, .rind] ⊆ P := by decide) : Only P r s.abandonBurns :=
  h.step sub fun _ h => by
    unfold State.abandonBurns
    extract_lets src s1 s2 src'
    refine .via (x := s1) ?_ fun hs1 => ?_
    · unfold s1
      split
      · exact h.withRind
      · exact h
    · refine .via (x := s2) ?_ fun hs2 => ?_
      · unfold s2
        split
        · exact hs1.takeFree.burnLc
        · exact hs1
      · exact hs2.withRind

theorem wideReset {k : ResetKind} (h : Only P r s) (sub : allButQueue ⊆ P := by decide) : Only P r (s.wideReset k) :=
  h.step sub fun _ h => by
    unfold State.wideReset
    extract_lets s1
    have hs1 : Only _ _ s1 := h.abandonOp.abandonBurns
    exact hs1.withWideReset (fun wf => regsWf_foldl_mapPut registerFileCanonicalAtReset (regsWf_filter _ wf).2) rfl

theorem unarmed (h : Only P r s) (sub : [.regs] ⊆ P := by decide) : Only P r s.unarmed := h.step sub fun _ h => h.setStage

theorem porReset (h : Only P r s) (sub : allButQueue ⊆ P := by decide) : Only P r s.porReset := h.step sub fun _ h => h.wideReset

theorem boardReset (h : Only P r s) (sub : allButQueue ⊆ P := by decide) : Only P r s.boardReset :=
  h.step sub fun _ h => h.wideReset.unarmed

theorem deviceReset (h : Only P r s) (sub : allButQueue ⊆ P := by decide) : Only P r s.deviceReset :=
  h.step sub fun _ h => ((h.foldl fun _ _ h1 => h1.emit).wideReset).unarmed

theorem clusterWake (h : Only P r s) (sub : [.out, .regs, .cal, .grid, .sys] ⊆ P := by decide) : Only P r s.clusterWake :=
  h.step sub fun _ h => by
    unfold State.clusterWake
    refine .ite h ?_
    extract_lets s1 src
    have hs1 : Only _ _ s1 := .ite h h.emit
    exact hs1.withGrid.wakeSleep

theorem clusterReset (h : Only P r s)
    (sub : [.free, .out, .regs, .bus, .ras, .rind, .cal, .calSel, .grid, .work, .mods, .press, .ses, .sram, .cl, .flash, .nv, .tyz, .sys,
      .meter, .acct, .trace, .wdt] ⊆ P := by decide) :
    Only P r s.clusterReset :=
  h.step sub fun _ h => by
    unfold State.clusterReset
    extract_lets s0 s1 ring src src' src'' src''' src4 s2
    have hs0 : Only _ _ s0 := h.abandonOp.abandonBurns
    have hs1 : Only _ _ s1 := (hs0.gridReset.foldl fun _ _ h => h.resetTenant).acctRestart
    have hs2 : Only _ _ s2 := hs1.withClusterReset fun wf => regsWf_foldl_mapPut registerFileCanonicalAtReset (regsWf_filter _ wf).2
    exact (Only.ite hs2.setFld64.setFld64 hs2).unarmed.clusterWake

theorem execPor (h : Only P r s) (sub : allButQueue ⊆ P := by decide) : Answers P r (execPor s) :=
  h.answer sub fun _ h => by
    unfold Machine.execPor
    extract_lets s1 src
    exact h.porReset.withSys.next

theorem execPowerUpSequence (h : Only P r s) (sub : [.out, .sys] ⊆ P := by decide) : Answers P r (execPowerUpSequence s) :=
  h.answer sub fun _ h => by
    unfold Machine.execPowerUpSequence
    refine .ite h.passOver ?_
    extract_lets s1 src
    exact h.emit.emit.withSys.next

theorem execBoardReset {at_ : Dword} (h : Only P r s) (sub : allButQueue ⊆ P := by decide) : Answers P r (execBoardReset at_ s) :=
  h.answer sub fun _ h => by
    unfold Machine.execBoardReset
    extract_lets s1
    exact .ite h.advance.boardReset.next h.passOver

theorem applyReset {kind : Nat} (h : Only P r s) (sub : allButQueue ⊆ P := by decide) : Only P r (s.applyReset kind) :=
  h.step sub fun _ h => .ite h.withSys.gridReset.endTransition (.ite h.withSys.clusterReset h.withSys.deviceReset)

theorem writeRst {i : Iface} {val : Word} (h : Only P r s) (sub : [.out, .regs, .bus, .ras, .sram, .cl, .sys] ⊆ P := by decide) :
    Only P r (s.writeRst i val).1 :=
  h.step sub fun _ h => by
    unfold State.writeRst
    extract_lets k s1 r src
    exact .iteFst h.reservedWrite.res (.iteFst h.setFld.res h.setFld.withSys.res)

theorem busRst {rq : Req} {kind : Nat} (h : Only P r s)
    (sub : [.out, .tb, .regs, .bus, .ras, .rind, .sram, .cl, .nv, .sys, .trace] ⊆ P := by decide) : Only P r (s.busRst rq kind) :=
  h.step sub fun _ h => h.busWrite (fun _ h1 => h1.writeRst)

theorem execRstGrid {rq : Req} (h : Only P r s)
    (sub : [.out, .tb, .regs, .bus, .ras, .rind, .sram, .cl, .nv, .sys, .trace] ⊆ P := by decide) : Answers P r (execRstGrid rq s) :=
  h.answer sub fun _ h => h.busRst.next

theorem execRstCluster {rq : Req} (h : Only P r s)
    (sub : [.out, .tb, .regs, .bus, .ras, .rind, .sram, .cl, .nv, .sys, .trace] ⊆ P := by decide) : Answers P r (execRstCluster rq s) :=
  h.answer sub fun _ h => h.busRst.next

theorem execRstDevice {rq : Req} (h : Only P r s)
    (sub : [.out, .tb, .regs, .bus, .ras, .rind, .sram, .cl, .nv, .sys, .trace] ⊆ P := by decide) : Answers P r (execRstDevice rq s) :=
  h.answer sub fun _ h => h.busRst.next

theorem wdtReset {t2 : Dword} {hold why : Nat} (h : Only P r s) (sub : allButQueue ⊆ P := by decide) : Only P r (s.wdtReset t2 hold why) :=
  h.step sub fun _ h => h.captureWdt.setFld.setFld.deviceReset.bump

theorem advanceWdt {t' : Dword} (h : Only P r s) (sub : [.tb] ⊆ P := by decide) : Only P r (s.advanceWdt t') :=
  h.step sub fun _ h => h.advance

theorem execWdtStage2 {at_ : Dword} (h : Only P r s) (sub : allButQueue ⊆ P := by decide) : Answers P r (execWdtStage2 at_ s) :=
  h.answer sub fun _ h => by
    unfold Machine.execWdtStage2
    extract_lets s1 t2 src
    exact .ite h.passOver (.ite h.passOver (.ite h.advanceWdt.withWdt.next h.advanceWdt.wdtReset.next))

theorem execWdtHoldExpire {at_ : Dword} (h : Only P r s) (sub : allButQueue ⊆ P := by decide) : Answers P r (execWdtHoldExpire at_ s) :=
  h.answer sub fun _ h => by
    unfold Machine.execWdtHoldExpire
    extract_lets s1
    split
    · exact h.passOver
    · exact .ite h.passOver h.advanceWdt.wdtReset.next

theorem afterHold (h : Only P r s) (sub : allButQueue ⊆ P := by decide) : Only P r s.afterHold :=
  h.step sub fun _ h => by
    unfold State.afterHold
    split
    · exact h.wdtReset
    · exact h

theorem execFlashEraseComplete {ok : Bool} (h : Only P r s) (sub : allButQueue ⊆ P := by decide) :
    Answers P r (execFlashEraseComplete ok s) :=
  h.answer sub fun _ h => by
    unfold Machine.execFlashEraseComplete
    split
    · exact h.passOver
    · exact .ite h.passOver h.eraseEnds.afterHold.next

theorem execPwrfailRelease {at_ : Dword} (h : Only P r s) (sub : allButQueue ⊆ P := by decide) : Answers P r (execPwrfailRelease at_ s) :=
  h.answer sub fun _ h => by
    unfold Machine.execPwrfailRelease
    extract_lets s1
    split
    · exact h.passOver
    · exact .ite h.passOver (.ite h.passOver h.advance.boardReset.next)

theorem execRefclkSysLost (h : Only P r s) (sub : [.sys] ⊆ P := by decide) : Answers P r (execRefclkSysLost s) :=
  h.answer sub fun _ h => .ite h.passOver h.withSys.next

end Only
end Sys2Proof.Machine
end

/-! ### What the operations of power states may change (`Machine/PowerStates.lean`) -/

section
open Sys2Proof
namespace Sys2Proof.Machine
namespace Only
set_option Elab.async false
variable {P Q : List Piece} {r s t : State}

theorem examineLp (h : Only P r s) (sub : [.regs, .sys] ⊆ P := by decide) : Only P r s.examineLp :=
  h.step sub fun _ h => by
    unfold State.examineLp
    split
    · exact h
    · exact .ite h.withSys.setFld h.withSys.setFld.withSys

theorem leaveSleep (h : Only P r s) (sub : [.out, .grid, .sys] ⊆ P := by decide) : Only P r s.leaveSleep :=
  h.step sub fun _ h => h.emit.withGridSys

theorem writeLp {i : Iface} {val : Word} (h : Only P r s) (sub : [.out, .regs, .bus, .ras, .grid, .sram, .cl, .sys] ⊆ P := by decide) :
    Only P r (s.writeLp i val).1 :=
  h.step sub fun _ h => by
    unfold State.writeLp
    extract_lets s0 q s1 asleep src
    refine .iteFst h.setFld.reservedWrite.res ?_
    refine .res ?_
    refine .ite (.ite h.setFld.setFld.leaveSleep (.ite h.setFld.setFld.withSys h.setFld.setFld.withSys)) ?_
    exact .ite (.ite h.setFld.setFld.withSys.examineLp h.setFld.setFld) (.ite h.setFld.setFld.withSys h.setFld.setFld)

theorem busLp {rq : Req} {q : Nat} (h : Only P r s)
    (sub : [.out, .tb, .regs, .bus, .ras, .rind, .grid, .sram, .cl, .nv, .sys, .trace] ⊆ P := by decide) : Only P r (s.busLp rq q) :=
  h.step sub fun _ h => by
    unfold State.busLp
    exact h.busWrite (fun _ h1 => h1.writeLp)

theorem execLpReqSleep {rq : Req} (h : Only P r s)
    (sub : [.out, .tb, .regs, .bus, .ras, .rind, .grid, .sram, .cl, .nv, .sys, .trace] ⊆ P := by decide) :
    Answers P r (execLpReqSleep rq s) :=
  h.answer sub fun _ h => h.busLp.next

theorem execLpReqStandby {rq : Req} (h : Only P r s)
    (sub : [.out, .tb, .regs, .bus, .ras, .rind, .grid, .sram, .cl, .nv, .sys, .trace] ⊆ P := by decide) :
    Answers P r (execLpReqStandby rq s) :=
  h.answer sub fun _ h => h.busLp.next

theorem execLpReqRun {rq : Req} (h : Only P r s)
    (sub : [.out, .tb, .regs, .bus, .ras, .rind, .grid, .sram, .cl, .nv, .sys, .trace] ⊆ P := by decide) :
    Answers P r (execLpReqRun rq s) :=
  h.answer sub fun _ h => h.busLp.next

theorem enterNap {t' : Dword} (h : Only P r s)
    (sub : [.out, .tb, .regs, .bus, .ras, .grid, .mods, .modHeld, .sram, .cl, .sys, .trace] ⊆ P := by decide) : Only P r (s.enterNap t') :=
  h.step sub fun _ h => h.advance.suspendRec.flushTrace.withGrid.setFld

theorem execNapEnter (h : Only P r s)
    (sub : [.out, .tb, .regs, .bus, .ras, .grid, .mods, .modHeld, .sram, .cl, .sys, .trace] ⊆ P := by decide) :
    Answers P r (execNapEnter s) :=
  h.answer sub fun _ h => by
    unfold Machine.execNapEnter
    extract_lets t
    exact .ite h.passOver h.enterNap.next

theorem gridOff (h : Only P r s)
    (sub : [.out, .regs, .bus, .ras, .grid, .work, .press, .ses, .sram, .cl, .tyz, .sys, .meter, .trace] ⊆ P := by decide) :
    Only P r s.gridOff :=
  h.step sub fun _ h => by
    unfold State.gridOff
    extract_lets s1 base src
    have hs1 : Only _ _ s1 := h.gridReset
    have hbase : Only _ _ base := hs1.emit
    exact hbase.withRegsGrid fun wf => regsWf_filter _ (by rwa [State.emit_regs] at wf)

theorem attributeNow {owners : Bool} (h : Only P r s) (sub : [.regs, .bus, .ras, .work, .sram, .cl, .meter, .acct] ⊆ P := by decide) :
    Only P r (s.attributeNow owners) :=
  h.step sub fun _ h => by
    unfold State.attributeNow
    split
    next ej s1 heq =>
    have h1 : Only _ _ s1 := .snd heq h.takeEnergy
    extract_lets src s2
    have hs2 : Only _ _ s2 := .ite h1 h1.withMeter
    exact hs2.shareOut

theorem suspend {code : Nat} (h : Only P r s)
    (sub : [.out, .tb, .regs, .bus, .ras, .grid, .work, .mods, .modHeld, .press, .ses, .sram, .cl, .tyz, .sys, .meter, .acct,
      .trace] ⊆ P := by decide) :
    Only P r (s.suspend code) :=
  h.step sub fun _ h => by
    unfold State.suspend
    extract_lets s0 s1
    have hs0 : Only _ _ s0 := .ite h.advance h
    exact (hs0.attributeNow.suspendRec.flushTrace.foldl fun _ _ h1 => h1.emit).gridOff

theorem enterSleep (h : Only P r s)
    (sub : [.out, .tb, .regs, .bus, .ras, .grid, .work, .mods, .modHeld, .press, .ses, .sram, .cl, .tyz, .sys, .meter, .acct,
      .trace] ⊆ P := by decide) :
    Only P r s.enterSleep :=
  h.step sub fun _ h => .ite h.suspend.setFld.withSys.leaveSleep h.suspend.setFld.withSys

theorem execSleepEnter (h : Only P r s)
    (sub : [.out, .tb, .regs, .bus, .ras, .grid, .work, .mods, .modHeld, .press, .ses, .sram, .cl, .tyz, .sys, .meter, .acct,
      .trace] ⊆ P := by decide) :
    Answers P r (execSleepEnter s) :=
  h.answer sub fun _ h => .ite h.passOver h.enterSleep.next

theorem execSleepExitReady {at_ : Dword} (h : Only P r s) (sub : [.out, .tb, .regs, .cal, .grid, .sys] ⊆ P := by decide) :
    Answers P r (execSleepExitReady at_ s) :=
  h.answer sub fun _ h => by
    unfold Machine.execSleepExitReady
    extract_lets s1
    exact .ite h.passOver h.advance.wakeSleep.next

theorem nvDrain {x : Nat} (h : Only P r s) (sub : [.out, .regs, .bus, .ras, .rind, .sram, .cl, .flash, .nv, .acct] ⊆ P := by decide) :
    Only P r (s.nvDrain x) :=
  h.step sub fun _ h => by
    clear * - h
    induction x generalizing s with
    | zero => exact h
    | succ n ih =>
      unfold State.nvDrain
      extract_lets all src
      split
      · exact h
      · exact ih h.withFlash.follow

theorem cutInterval (h : Only P r s) (sub : [.out, .regs, .bus, .ras, .work, .sram, .cl, .nv, .acct] ⊆ P := by decide) :
    Only P r s.cutInterval :=
  h.step sub fun _ h => by
    unfold State.cutInterval
    split
    · exact h
    · exact h.acctRecord.acctRestart.withAcct

theorem enterStandby (h : Only P r s) (sub : allButQueue ⊆ P := by decide) : Only P r s.enterStandby :=
  h.step sub fun _ h => by
    unfold State.enterStandby
    extract_lets s1 s2 s3 src src'
    have hs1 : Only _ _ s1 := .ite h.attributeNow.suspendRec.flushTrace h.suspend
    have hs3 : Only _ _ s3 := hs1.cutInterval.nvDrain.emit.wideReset.setFld
    exact hs3.withGridSys

theorem execStandbyEnter (h : Only P r s) (sub : allButQueue ⊆ P := by decide) : Answers P r (execStandbyEnter s) :=
  h.answer sub fun _ h => .ite h.passOver h.enterStandby.next

theorem wakeStandby (h : Only P r s) (sub : [.out, .regs, .grid, .sys, .trace, .wdt] ⊆ P := by decide) : Only P r s.wakeStandby :=
  h.step sub fun _ h => h.emit.emit.setFld.withGridSysTraceWdt

theorem execPldmPowerWake {at_ : Dword} (h : Only P r s) (sub : [.out, .tb, .regs, .grid, .sys, .trace, .wdt] ⊆ P := by decide) :
    Answers P r (execPldmPowerWake at_ s) :=
  h.answer sub fun _ h => by
    unfold Machine.execPldmPowerWake
    extract_lets s1
    exact .ite h.advance.next h.advance.wakeStandby.next

end Only
end Sys2Proof.Machine
end

/-! ### What the operations of register effects may change (`Machine/PageWrites.lean`) -/

section
open Sys2Proof
namespace Sys2Proof.Machine
namespace Only
set_option Elab.async false
variable {P Q : List Piece} {r s t : State}

theorem holdLow {pg off : Nat} {val : Word} (h : Only P r s) (sub : [.bus] ⊆ P := by decide) : Only P r (s.holdLow pg off val) :=
  h.step sub fun _ h => h.withBus

theorem plainWord {i : Iface} {pg off : Nat} {val : Word} (h : Only P r s) (sub : [.out, .regs, .bus, .ras, .sram, .cl] ⊆ P := by decide) :
    Only P r (s.plainWord i pg off val).1 :=
  h.step sub fun _ h => by
    unfold State.plainWord
    refine .iteFst h.holdLow.res ?_
    refine .iteFst ?_ h.plainWrite
    extract_lets v
    refine .iteFst (.iteFst h.plainWrite.plainWrite h.reservedWrite.res) ?_
    exact .iteFst h.writeFields.writeFields.reservedWrite.res h.writeFields.writeFields.res

theorem writeEvtEn {pg : Nat} {val : Word} (h : Only P r s) (sub : [.regs, .bus] ⊆ P := by decide) : Only P r (s.writeEvtEn pg val) :=
  h.step sub fun _ h => h.setReg.foldl fun _ _ h1 => .ite h1.holdVector h1

theorem writeErrLog {i : Iface} {pg : Nat} {val : Word} (h : Only P r s) (sub : [.out, .regs, .bus, .ras, .sram, .cl] ⊆ P := by decide) :
    Only P r (s.writeErrLog i pg val).1 :=
  h.step sub fun _ h => .iteFst h.setReg.setReg.res h.reservedWrite.res

theorem writeCtl {pg : Nat} {val : Word} (h : Only P r s) (sub : [.regs, .bus] ⊆ P := by decide) : Only P r (s.writeCtl pg val) :=
  h.step sub fun _ h => by
    unfold State.writeCtl
    extract_lets s1 src
    have hs1 : Only _ _ s1 := .ite h.setRegBit h
    exact .ite hs1.withBus hs1

theorem writeHeader {i : Iface} {pg off : Nat} {val : Word} (h : Only P r s)
    (sub : [.out, .regs, .bus, .ras, .sram, .cl] ⊆ P := by decide) : Only P r (s.writeHeader i pg off val).1 :=
  h.step sub fun _ h => .iteFst h.writeCtl.res (.iteFst h.writeEvtEn.res (.iteFst h.writeErrLog h.plainWrite))

theorem rewind {a : Nat} (h : Only P r s) (sub : [.bus] ⊆ P := by decide) : Only P r (s.rewind a) := h.step sub fun _ h => h.withBus

theorem holdWord {a : Nat} {v : Word} (h : Only P r s) (sub : [.bus] ⊆ P := by decide) : Only P r (s.holdWord a v) :=
  h.step sub fun _ h => h.withBus

theorem dropHeld {a n : Nat} (h : Only P r s) (sub : [.bus] ⊆ P := by decide) : Only P r (s.dropHeld a n) := h.step sub fun _ h => h.withBus

theorem entryWrite {i : Iface} {pg off old mask : Nat} {val : Word} {fs : List (Nat × Nat × (Nat → Bool))} {put : State → Word → State}
    (h : Only P r s) (hp : ∀ t w, Only P r t → Only P r (put t w)) (sub : [.out, .regs, .bus, .ras, .sram, .cl] ⊆ P := by decide) :
    Only P r (s.entryWrite i pg off val old mask fs put).1 := by
  unfold State.entryWrite
  split
  exact .ite ((hp _ _ h).reservedWrite sub) (hp _ _ h)

theorem writeIdx {i : Iface} {pg off n words : Nat} {val : Word} (h : Only P r s)
    (sub : [.out, .regs, .bus, .ras, .sram, .cl] ⊆ P := by decide) : Only P r (s.writeIdx i pg off n words val).1 :=
  h.step sub fun _ h => .iteFst h.dropHeld.setReg.res h.reservedWrite.res

theorem clearFlags {pos n lim mx vx : Nat} (h : Only P r s) (sub : [.grid] ⊆ P := by decide) : Only P r (s.clearFlags pos n lim mx vx) :=
  h.step sub fun _ h => h.setCtx

theorem writeCell {i : Iface} {pos off : Nat} {val : Word} (h : Only P r s)
    (sub : [.out, .regs, .bus, .ras, .grid, .sram, .cl] ⊆ P := by decide) : Only P r (s.writeCell i pos off val).1 :=
  h.step sub fun _ h => by
    unfold State.writeCell
    extract_lets pg a v r src e e'
    refine .iteFst h.writeHeader ?_
    refine .iteFst ((h.foldl fun _ _ h1 => h1.clearFlags).res) ?_
    refine .iteFst ((h.foldl fun _ _ h2 => h2.clearFlags).res) ?_
    refine .iteFst h.clearFlags.res ?_
    refine .iteFst h.writeIdx ?_
    refine .iteFst h.setRouter.res ?_
    refine .iteFst h.writeIdx ?_
    refine .iteFst h.holdWord.res ?_
    refine .iteFst (h.entryWrite (fun _ _ h3 => h3.dropHeld.setRouter)) ?_
    refine .iteFst h.writeIdx ?_
    refine .iteFst h.holdWord.res ?_
    refine .iteFst (h.entryWrite (fun _ _ h4 => h4.holdWord)) ?_
    refine .iteFst (h.entryWrite (fun _ _ h5 => h5.dropHeld.setRouter)) ?_
    exact .iteFst (.iteFst h.reservedWrite.res h.setRouter.res) h.plainWrite

theorem writeStream {i : Iface} {off : Nat} {val : Word} (h : Only P r s)
    (sub : [.out, .regs, .bus, .ras, .work, .ses, .sram, .cl] ⊆ P := by decide) : Only P r (s.writeStream i off val).1 :=
  h.step sub fun _ h => by
    unfold State.writeStream
    extract_lets k o busy bad t
    refine .iteFst h.writeHeader ?_
    refine .iteFst (.iteFst h.reservedWrite.res h.setReg.res) ?_
    exact .iteFst h.writeDb (.iteFst h.plainWrite.rewind.res h.plainWord)

theorem fwWrite {pg off : Nat} {val : Word} (h : Only P r s)
    (sub : [.out, .regs, .bus, .ras, .grid, .work, .ses, .sram, .cl] ⊆ P := by decide) : Only P r (s.fwWrite pg off val) :=
  h.step sub fun _ h => by
    unfold State.fwWrite
    split
    · exact .ite h h.writeCell
    · exact h.writeStream
    · exact h

end Only
end Sys2Proof.Machine
end

/-! ### What the operations of boot may change (`Machine/Boot.lean`) -/

section
open Sys2Proof
namespace Sys2Proof.Machine
namespace Only
set_option Elab.async false
variable {P Q : List Piece} {r s t : State}

theorem bootStsBit {k : Nat} {v : Bool} (h : Only P r s) (sub : [.regs] ⊆ P := by decide) : Only P r (bootStsBit s k v) :=
  h.step sub fun _ h => h.setRegBit

theorem bootFlash {b : BootInfo} (h : Only P r s) (sub : [.regs, .nv] ⊆ P := by decide) : Only P r (s.bootFlash b) :=
  h.step sub fun _ h => by
    unfold State.bootFlash
    split
    · exact h.withNv.setFld.bootStsBit

theorem bootLog (h : Only P r s) (sub : [.regs, .flash, .nv] ⊆ P := by decide) : Only P r (s.bootLog).1 :=
  h.step sub fun _ h => by
    unfold State.bootLog
    split
    · extract_lets f src
      exact h.withFlash.setFld.res

theorem bootPtr {r' : Nat} (h : Only P r s) (sub : [.nv] ⊆ P := by decide) : Only P r (s.bootPtr r') :=
  h.step sub fun _ h => by
    unfold State.bootPtr
    split
    · exact h
    · exact h.withNv

theorem bootSectors {j : JState} {weak : List Nat} (h : Only P r s) (sub : [.regs, .nv] ⊆ P := by decide) :
    Only P r (s.bootSectors j weak) :=
  h.step sub fun _ h => by
    unfold State.bootSectors
    extract_lets half src s1 all first src'
    have hs1 : Only _ _ s1 := h.withNv.foldl fun _ _ h1 => h1.bootPtr
    exact hs1.withNv.setFld

theorem noteTop {rs : List (Nat × List Byte)} (h : Only P r s) (sub : [.nv] ⊆ P := by decide) : Only P r (s.noteTop rs) :=
  h.step sub fun _ h => h.foldl fun _ _ h1 => h1.withNv

theorem bootAudit (h : Only P r s) (sub : [.regs, .rind, .nv] ⊆ P := by decide) : Only P r s.bootAudit :=
  h.step sub fun _ h => by
    unfold State.bootAudit
    extract_lets rs s1 src
    split
    · exact h.noteTop
    · exact h.noteTop.withRind.setFld

theorem rebuild {ckpts : List (List Byte)} {sum : List Byte} (h : Only P r s)
    (sub : [.out, .regs, .bus, .ras, .sram, .cl, .nv, .acct] ⊆ P := by decide) : Only P r (State.rebuild ckpts s sum) :=
  h.step sub fun _ h => by
    unfold State.rebuild
    extract_lets b q closed src s1 s2
    have hs2 : Only _ _ s2 := .ite h.withAcct.showLast h.withAcct
    exact hs2.appendRecord.setRegBit

theorem bootGasp (h : Only P r s) (sub : [.out, .regs, .bus, .ras, .sram, .cl, .nv, .acct, .trace] ⊆ P := by decide) :
    Only P r s.bootGasp :=
  h.step sub fun _ h => by
    unfold State.bootGasp
    extract_lets used isDump recs ckpts sums s0 s1
    have hs0 : Only _ _ s0 := (h.foldl fun _ _ h1 => h1.setRegBit).setRegBit
    have hs1 : Only _ _ s1 := hs0.foldl fun _ _ h2 => h2.rebuild
    exact hs1.foldl fun _ _ h3 => .ite h3.setFld.withTrace (.ite h3.program.eraseSector h3.withAcct)

theorem bootAcct (h : Only P r s) (sub : [.nv, .acct] ⊆ P := by decide) : Only P r s.bootAcct :=
  h.step sub fun _ h => h.noteTop.withAcct.foldl fun _ _ h1 => h1.eraseSector

theorem mapRows {m : Option (List Byte)} (h : Only P r s) (sub : [.regs] ⊆ P := by decide) : Only P r (s.mapRows m) :=
  h.step sub fun _ h => h.foldl fun _ _ h1 => h1.setQrow

theorem mapLinks {b : List Byte} (h : Only P r s) (sub : [.regs, .tyz] ⊆ P := by decide) : Only P r (s.mapLinks b) :=
  h.step sub fun _ h => by
    unfold State.mapLinks
    extract_lets s1
    have hs1 : Only _ _ s1 := h.foldl fun _ _ h1 => h1.setPort
    exact hs1.foldl fun _ _ h2 => .ite h2.setRegBit h2

theorem mapCores {lost : Nat} (h : Only P r s) (sub : [.out, .regs, .bus, .ras, .sram, .cl] ⊆ P := by decide) :
    Only P r (s.mapCores lost) :=
  h.step sub fun _ h => h.setFld.setCause

theorem bootMap (h : Only P r s) (sub : [.out, .regs, .bus, .ras, .sram, .cl, .tyz] ⊆ P := by decide) : Only P r s.bootMap :=
  h.step sub fun _ h => by
    unfold State.bootMap
    extract_lets m seq cores s1 s2
    refine .via (x := s2) ?_ fun hs2 => ?_
    · unfold s2
      clear_value m
      split
      · exact h.mapRows.setRegBit.mapLinks
      · exact h.mapRows.setRegBit
    · exact .ite h.mapCores hs2.setFld.showUnack.mapCores.repairCauses.channelCause

theorem linkTables {t' : List Byte} (h : Only P r s) (sub : [.regs, .tyz] ⊆ P := by decide) : Only P r (s.linkTables t') :=
  h.step sub fun _ h => by
    unfold State.linkTables
    extract_lets f s1 s2 s3 src
    have hs1 : Only _ _ s1 := h.setFld.setFld.setFld.setFld
    have hs3 : Only _ _ s3 := hs1.setFld.setFld.setFld.foldl fun _ _ h1 => h1.setFld.setFld
    exact hs3.withTyz

theorem applyGridBase (h : Only P r s) (sub : [.out, .regs, .bus, .ras, .grid, .work, .ses, .sram, .cl, .sys] ⊆ P := by decide) :
    Only P r s.applyGridBase :=
  h.step sub fun _ h => by
    unfold State.applyGridBase
    extract_lets src s0
    refine h.withSys.res.foldlFst fun _ _ h1 => ?_
    extract_lets t pg off mask old p place
    exact .iteFst h1.fwWrite.res h1.beginLoad.res

theorem runImage {img : List Byte} {slot : Nat} {places : List Placement} (h : Only P r s)
    (sub : [.out, .regs, .bus, .ras, .grid, .work, .ses, .sram, .cl, .tyz, .sys] ⊆ P := by decide) :
    Only P r (s.runImage img slot places) :=
  h.step sub fun _ h => by
    unfold State.runImage
    extract_lets b fw sig s2 s3 run beat s4 base src s5 src'
    refine .via (x := s3) ?_ fun hs3 => ?_
    · unfold s3
      refine .ite h.sramWrite.sramWrite ?_
      split
      · exact h.sramWrite.sramWrite.linkTables
      · exact h.sramWrite.sramWrite
    · have hrun : Only _ _ run := hs3.foldl fun _ _ h1 => .ite h1.setFld h1
      have hbeat : Only _ _ beat := hrun.foldl fun _ _ h2 => .ite h2.setCore h2
      have hs5 : Only _ _ s5 := hbeat.setFld64.bootStsBit.bootStsBit.withSys
      exact .ite hs5.withSys hs5.applyGridBase

theorem closedRecords (h : Only P r s) (sub : [.out, .regs, .bus, .ras, .rind, .sram, .cl, .nv, .sys] ⊆ P := by decide) :
    Only P r s.closedRecords :=
  h.step sub fun _ h => h.withSys.foldl fun _ _ h1 => h1.audit

theorem bootFuses (h : Only P r s) (sub : [.regs] ⊆ P := by decide) : Only P r s.bootFuses :=
  h.step sub fun _ h => .ite h.setFld h.setFld.setFld.setFld

theorem bootStore {b : BootInfo} (h : Only P r s) (sub : [.out, .regs, .bus, .ras, .rind, .sram, .cl, .flash, .nv, .tyz] ⊆ P := by decide) :
    Only P r (s.bootStore b).1 :=
  h.step sub fun _ h => by
    unfold State.bootStore
    split
    next s1 j heq =>
    have h1 : Only _ _ s1 := .fst heq h.bootFlash.bootLog
    exact h1.bootSectors.bootAudit.bootMap.res

theorem bootSlots {j : JState} {b : BootInfo} (h : Only P r s)
    (sub : [.out, .regs, .bus, .ras, .rind, .grid, .work, .ses, .sram, .cl, .flash, .nv, .tyz, .sys, .acct] ⊆ P := by decide) :
    Only P r (s.bootSlots j b) :=
  h.step sub fun _ h => by
    unfold State.bootSlots
    extract_lets p s1 s2 s3 base src
    have hs1 : Only _ _ s1 := h.foldl fun _ _ h1 => h1.jWrite
    have hbase : Only _ _ base := hs1.bootStsBit.setFld.nvDrain.bootStsBit
    split
    · exact hbase.withSys
    · extract_lets s4
      have hs4 : Only _ _ s4 := (Only.ite hs1.bootStsBit.setFld.jWrite hs1.bootStsBit.setFld).nvDrain
      exact hs4.runImage

theorem bootRest {j : JState} {b : BootInfo} {kept : Bool} (h : Only P r s)
    (sub : [.out, .regs, .bus, .ras, .rind, .cal, .grid, .work, .ses, .sram, .cl, .flash, .nv, .tyz, .sys, .acct, .trace,
      .wdt] ⊆ P := by decide) :
    Only P r (s.bootRest j b kept) :=
  h.step sub fun _ h => by
    unfold State.bootRest
    extract_lets s3 s5 src
    have hs3 : Only _ _ s3 := (Only.ite h h.wdtArm).calBoot
    have hs5 : Only _ _ s5 := hs3.bootSlots.closedRecords.foldl fun _ _ h1 => h1.makeFaulty
    exact .ite hs5.bootAcct hs5.withAcct.bootAcct.bootGasp

theorem bootUp {b : BootInfo} (h : Only P r s)
    (sub : [.out, .regs, .bus, .ras, .rind, .cal, .grid, .work, .ses, .sram, .cl, .flash, .nv, .tyz, .sys, .acct, .trace,
      .wdt] ⊆ P := by decide) :
    Only P r (s.bootUp b) :=
  h.step sub fun _ h => by
    unfold State.bootUp
    split
    next s2 j heq =>
    have h2 : Only _ _ s2 := .fst heq h.bootFuses.bootStore
    exact .ite h2 h2.bootRest

theorem execBoot {b : BootInfo} (h : Only P r s)
    (sub : [.out, .tb, .regs, .bus, .ras, .rind, .cal, .grid, .work, .ses, .sram, .cl, .flash, .nv, .tyz, .sys, .acct, .trace,
      .wdt] ⊆ P := by decide) :
    Answers P r (execBoot b s) :=
  h.answer sub fun _ h => by
    unfold Machine.execBoot
    extract_lets s0
    exact .ite h.passOver (.ite h.advance.next h.advance.bootUp.next)

theorem writeStageData {val : Word} (h : Only P r s) (sub : [.regs, .sram, .cl] ⊆ P := by decide) : Only P r (s.writeStageData val).1 :=
  h.step sub fun _ h => by
    unfold State.writeStageData
    extract_lets a bs
    exact h.sramWrite.setFld.res

theorem execStageDataWrite {rq : Req} {val : Word} (h : Only P r s)
    (sub : [.out, .tb, .regs, .bus, .ras, .rind, .sram, .cl, .nv, .trace] ⊆ P := by decide) : Answers P r (execStageDataWrite rq val s) :=
  h.answer sub fun _ h => (h.busWrite (fun _ h1 => h1.writeStageData)).next

theorem writeStageGo {val : Word} {places : List Placement} (h : Only P r s)
    (sub : [.out, .regs, .bus, .ras, .grid, .work, .ses, .sram, .cl, .tyz, .sys] ⊆ P := by decide) :
    Only P r (s.writeStageGo val places).1 :=
  h.step sub fun _ h => by
    unfold State.writeStageGo
    refine .iteFst h.res ?_
    split
    next t img heq =>
    have h1 : Only _ _ t := .fst heq h.sramRead
    extract_lets c
    exact .iteFst h1.setFld.res h1.runImage.res

theorem execStageGo {rq : Req} {places : List Placement} (h : Only P r s)
    (sub : [.out, .tb, .regs, .bus, .ras, .rind, .grid, .work, .ses, .sram, .cl, .nv, .tyz, .sys, .trace] ⊆ P := by decide) :
    Answers P r (execStageGo rq places s) :=
  h.answer sub fun _ h => (h.busWrite (fun _ h1 => h1.writeStageGo)).next

end Only
end Sys2Proof.Machine
end

/-! ### What the operations of the host link may change (`Machine/HostLink.lean`) -/

section
open Sys2Proof
namespace Sys2Proof.Machine
namespace Only
set_option Elab.async false
variable {P Q : List Piece} {r s t : State}

theorem showHdm (h : Only P r s) (sub : [.regs, .sys] ⊆ P := by decide) : Only P r s.showHdm := h.step sub fun _ h => h.withSys.setFld

theorem hdmTick (h : Only P r s) (sub : [.regs, .sys] ⊆ P := by decide) : Only P r s.hdmTick :=
  h.step sub fun _ h => .ite h.showHdm h.setFld.showHdm

theorem writeCxlCfg {i : Iface} {val : Word} (h : Only P r s) (sub : [.out, .regs, .bus, .ras, .sram, .cl, .sys] ⊆ P := by decide) :
    Only P r (s.writeCxlCfg i val).1 :=
  h.step sub fun _ h => by
    unfold State.writeCxlCfg
    exact h.plainWrite.showHdm.res

theorem msixReset {p : Nat → Bool} (h : Only P r s) (sub : [.bus] ⊆ P := by decide) : Only P r (s.msixReset p) :=
  h.step sub fun _ h => h.withBus

theorem resetTenants {p : Nat → Bool} (h : Only P r s)
    (sub : [.free, .out, .regs, .bus, .ras, .grid, .work, .mods, .ses, .sram, .cl, .trace] ⊆ P := by decide) :
    Only P r (s.resetTenants p) :=
  h.step sub fun _ h => h.foldl fun _ _ h1 => h1.resetTenant

theorem setSriov {n : Nat} {on_ : Bool} (h : Only P r s) (sub : [.regs] ⊆ P := by decide) : Only P r (s.setSriov n on_) :=
  h.step sub fun _ h => h.setFld

theorem linkReset (h : Only P r s)
    (sub : [.free, .out, .regs, .bus, .ras, .grid, .work, .mods, .ses, .sram, .cl, .sys, .trace] ⊆ P := by decide) : Only P r s.linkReset :=
  h.step sub fun _ h => h.resetTenants.msixReset.setSriov.withSys

theorem linkUp {rate width : Nat} {flit : Bool} {cxl : Nat} (h : Only P r s)
    (sub : [.out, .regs, .bus, .ras, .sram, .cl, .sys] ⊆ P := by decide) : Only P r (s.linkUp rate width flit cxl) :=
  h.step sub fun _ h => (Only.ite h.setFld h.setFld.event).showHdm

theorem execHostLinkTrain {rate width : Nat} {flit : Bool} {cxl : Nat} {at_ : Dword} (h : Only P r s)
    (sub : [.out, .tb, .regs, .bus, .ras, .sram, .cl, .sys] ⊆ P := by decide) : Answers P r (execHostLinkTrain rate width flit cxl at_ s) :=
  h.answer sub fun _ h => by
    unfold Machine.execHostLinkTrain
    extract_lets s1 up
    exact .ite h.passOver (.ite (.ite h.passOver h.advance.next) h.advance.linkUp.next)

theorem execHostLinkDown {at_ : Dword} (h : Only P r s)
    (sub : [.free, .out, .tb, .regs, .bus, .ras, .grid, .work, .mods, .ses, .sram, .cl, .sys, .trace] ⊆ P := by decide) :
    Answers P r (execHostLinkDown at_ s) :=
  h.answer sub fun _ h => by
    unfold Machine.execHostLinkDown
    extract_lets s1
    exact .ite h.passOver h.advance.setFld.linkReset.event.showHdm.next

theorem execHotReset {at_ : Dword} (h : Only P r s)
    (sub : [.free, .out, .tb, .regs, .bus, .ras, .grid, .work, .mods, .ses, .sram, .cl, .sys, .trace] ⊆ P := by decide) :
    Answers P r (execHotReset at_ s) :=
  h.answer sub fun _ h => by
    unfold Machine.execHotReset
    refine h.onClock ?_
    extract_lets s1
    exact .ite h.passOver h.advance.linkReset.next

theorem execFlrVf {v : Nat} {at_ : Dword} (h : Only P r s)
    (sub : [.free, .out, .tb, .regs, .bus, .ras, .grid, .work, .mods, .ses, .sram, .cl, .trace] ⊆ P := by decide) :
    Answers P r (execFlrVf v at_ s) :=
  h.answer sub fun _ h => by
    unfold Machine.execFlrVf
    refine h.onClock ?_
    extract_lets s1
    exact .ite h.passOver h.advance.resetTenants.msixReset.next

theorem execFlrPf1 {at_ : Dword} (h : Only P r s)
    (sub : [.free, .out, .tb, .regs, .bus, .ras, .grid, .work, .mods, .ses, .sram, .cl, .trace] ⊆ P := by decide) :
    Answers P r (execFlrPf1 at_ s) :=
  h.answer sub fun _ h => h.onClock h.advance.resetTenants.msixReset.setSriov.next

theorem execFlrPf0 {at_ : Dword} (h : Only P r s)
    (sub : [.out, .tb, .regs, .bus, .ras, .rind, .sram, .cl, .nv, .trace, .wdt] ⊆ P := by decide) : Answers P r (execFlrPf0 at_ s) :=
  h.answer sub fun _ h => h.onClock h.advance.msixReset.closeSessions.next

theorem setMsix {key : Nat} {e : MsixEntry} (h : Only P r s) (sub : [.out, .regs, .bus, .ras, .sram, .cl] ⊆ P := by decide) :
    Only P r (s.setMsix key e) :=
  h.step sub fun _ h => .ite h.withBus.withBus.emit.bump h.withBus

theorem execMsixVectorUnmask {fn vec : Nat} {addr : Dword} {data : Word} (h : Only P r s)
    (sub : [.out, .regs, .bus, .ras, .sram, .cl] ⊆ P := by decide) : Answers P r (execMsixVectorUnmask fn vec addr data s) :=
  h.answer sub fun _ h => h.onClock (.ite h.passOver h.setMsix.next)

theorem writeMsix {fn off : Nat} {val : Word} (h : Only P r s) (sub : [.out, .regs, .bus, .ras, .sram, .cl] ⊆ P := by decide) :
    Only P r (s.writeMsix fn off val) :=
  h.step sub fun _ h => .ite h h.setMsix

theorem vfsEnabled {n : Nat} {on_ : Bool} (h : Only P r s) (sub : [.regs, .bus] ⊆ P := by decide) : Only P r (s.vfsEnabled n on_) :=
  h.step sub fun _ h => by
    unfold State.vfsEnabled
    exact h.setSriov.msixReset

theorem execSriovVfEnable {n : Nat} {on_ : Bool} (h : Only P r s) (sub : [.regs, .bus] ⊆ P := by decide) :
    Answers P r (execSriovVfEnable n on_ s) :=
  h.answer sub fun _ h => h.onClock (.ite h.passOver h.vfsEnabled.next)

theorem execHdmDecoderCommit {commit : Bool} (h : Only P r s) (sub : [.sys] ⊆ P := by decide) :
    Answers P r (execHdmDecoderCommit commit s) :=
  h.answer sub fun _ h => h.onClock h.withSys.next

end Only
end Sys2Proof.Machine
end

/-! ### What the operations of register reads may change (`Machine/RegReads.lean`) -/

section
open Sys2Proof
namespace Sys2Proof.Machine
namespace Only
set_option Elab.async false
variable {P Q : List Piece} {r s t : State}

theorem readReg {i : Iface} {addr : Nat} (h : Only P r s) (sub : [.bus] ⊆ P := by decide) : Only P r (s.readReg i addr).1 :=
  h.step sub fun _ h => by
    unfold State.readReg
    extract_lets pg off hi src
    refine .iteFst h.res ?_
    refine .iteFst h.res ?_
    refine .iteFst h.res ?_
    refine .iteFst h.withBus.res ?_
    split
    · exact h.withBus.res
    · extract_lets a o
      exact h.withBus.res
    · exact h.res

theorem readVf {v off : Nat} (h : Only P r s) (sub : [.bus] ⊆ P := by decide) : Only P r (s.readVf v off).1 :=
  h.step sub fun _ h => by
    unfold State.readVf
    refine .iteFst ?_ (.iteFst h.res (.iteFst h.res h.res))
    split
    · exact h.readReg
    · exact h.res

theorem busRead {rq : Req} {addr : Nat} (h : Only P r s)
    (sub : [.out, .tb, .regs, .bus, .ras, .rind, .sram, .cl, .trace] ⊆ P := by decide) : Only P r (s.busRead rq addr) :=
  h.step sub fun _ h => by
    unfold State.busRead
    extract_lets s0
    have hs0 : Only _ _ s0 := h.advance.flushNotes.touch
    refine .ite hs0 ?_
    split
    · refine .ite hs0.emit ?_
      split
      next s1 w heq =>
      have h1 : Only _ _ s1 := .fst heq hs0.readVf
      exact h1.emit
    · split
      next s1 w heq =>
      have h1 : Only _ _ s1 := .fst heq hs0.readReg
      exact h1.emit

theorem execReadLowWordLatch {rq : Req} {addr : Nat} (h : Only P r s)
    (sub : [.out, .tb, .regs, .bus, .ras, .rind, .sram, .cl, .trace] ⊆ P := by decide) : Answers P r (execReadLowWordLatch rq addr s) :=
  h.answer sub fun _ h => h.busRead.next

theorem execRecordWindowDataRead {rq : Req} {addr : Nat} (h : Only P r s)
    (sub : [.out, .tb, .regs, .bus, .ras, .rind, .sram, .cl, .trace] ⊆ P := by decide) : Answers P r (execRecordWindowDataRead rq addr s) :=
  h.answer sub fun _ h => h.busRead.next

end Only
end Sys2Proof.Machine
end

/-! ### What the operations of register writes may change (`Machine/RegWrite.lean`) -/

section
open Sys2Proof
namespace Sys2Proof.Machine
namespace Only
set_option Elab.async false
variable {P Q : List Piece} {r s t : State}

theorem writeFrame {i : Iface} {off : Nat} {val : Word} (h : Only P r s)
    (sub : [.out, .tb, .regs, .bus, .ras, .sram, .cl, .disc, .sys, .wdt] ⊆ P := by decide) : Only P r (s.writeFrame i off val).1 :=
  h.step sub fun _ h => by
    unfold State.writeFrame
    refine .iteFst ?_ ?_
    · extract_lets s1 en base src
      exact (Only.ite h.writeCtl.setFld.withSys (.ite h.writeCtl.setFld h.writeCtl)).res
    · refine .iteFst h.writeHeader ?_
      refine .iteFst h.plainWord.sourceChanged.res ?_
      refine .iteFst h.holdLow.res ?_
      refine .iteFst (.iteFst h.reservedWrite.res h.setTimebase.res) ?_
      exact .iteFst (.iteFst h.reservedWrite.res h.setFld64.res) h.plainWord

theorem setProfileIdx {v : Nat} (h : Only P r s) (sub : [.regs] ⊆ P := by decide) : Only P r (s.setProfileIdx v) :=
  h.step sub fun _ h => h.setFld.setFld

theorem writeSched {i : Iface} {off : Nat} {val : Word} (h : Only P r s)
    (sub : [.out, .regs, .bus, .ras, .work, .sram, .cl] ⊆ P := by decide) : Only P r (s.writeSched i off val).1 :=
  h.step sub fun _ h => by
    unfold State.writeSched
    refine .iteFst h.writeHeader ?_
    refine .iteFst h.setProfileIdx.res ?_
    refine .iteFst ?_ h.plainWord
    extract_lets f src
    exact h.withWork.res

theorem writeDvfs1 {i : Iface} {val : Word} (h : Only P r s) (sub : [.out, .regs, .bus, .ras, .sram, .cl] ⊆ P := by decide) :
    Only P r (s.writeDvfs1 i val).1 :=
  h.step sub fun _ h => by
    unfold State.writeDvfs1
    extract_lets above back
    split
    next s1 res heq =>
    have h1 : Only _ _ s1 := .fst heq h.writeFields
    have h2 : Only _ _ (back s1 R.power_DVFS1_MIN_MHZ) := .ite h1.setFld h1
    have h3 : Only _ _ (back (back s1 R.power_DVFS1_MIN_MHZ) R.power_DVFS1_MAX_MHZ) := .ite h2.setFld h2
    exact .iteFst h3.reservedWrite.res h1.res

theorem writePower {i : Iface} {off : Nat} {val : Word} (h : Only P r s)
    (sub : [.out, .regs, .bus, .ras, .grid, .sram, .cl, .sys] ⊆ P := by decide) : Only P r (s.writePower i off val).1 :=
  h.step sub fun _ h => .iteFst h.writeHeader (.iteFst h.writeDvfs1 (.iteFst h.setProfileIdx.res (.iteFst h.writeLp h.plainWord)))

theorem selectRecord {pg off : Nat} {val : Word} (h : Only P r s) (sub : [.regs, .bus] ⊆ P := by decide) :
    Only P r (s.selectRecord pg off val).1 :=
  h.step sub fun _ h => h.setReg.rewind.res

theorem writeEnergy {i : Iface} {off : Nat} {val : Word} (h : Only P r s)
    (sub : [.out, .regs, .bus, .ras, .sram, .cl, .acct] ⊆ P := by decide) : Only P r (s.writeEnergy i off val).1 :=
  h.step sub fun _ h => by
    unfold State.writeEnergy
    refine .iteFst h.writeHeader ?_
    refine .iteFst h.holdLow.res ?_
    exact .iteFst h.writeWall.res (.iteFst h.selectRecord (.iteFst h.plainWord.withAcct.res h.plainWord.res))

theorem writeWdtPage {i : Iface} {off : Nat} {val : Word} (h : Only P r s)
    (sub : [.free, .out, .regs, .bus, .ras, .cal, .grid, .mods, .modHeld, .sram, .cl, .trace, .wdt] ⊆ P := by decide) :
    Only P r (s.writeWdtPage i off val).1 :=
  h.step sub fun _ h => by
    unfold State.writeWdtPage
    refine .iteFst h.plainWrite.writeCtl.wdtFreeze.res ?_
    exact .iteFst h.writeHeader (.iteFst h.writeWdt (.iteFst h.writeSvc h.plainWrite))

theorem writeTrace {i : Iface} {off : Nat} {val : Word} (h : Only P r s)
    (sub : [.free, .out, .regs, .bus, .ras, .grid, .mods, .modHeld, .sram, .cl, .nv, .trace] ⊆ P := by decide) :
    Only P r (s.writeTrace i off val).1 :=
  h.step sub fun _ h => by
    unfold State.writeTrace
    refine .iteFst h.writeTraceCtl.writeCtl.res ?_
    refine .iteFst h.writeHeader ?_
    exact .iteFst h.writeFwRec (.iteFst h.writeDump (.iteFst h.selectRecord (.iteFst h.writeDumpAck h.plainWord)))

theorem writeRas {i : Iface} {off : Nat} {val : Word} (h : Only P r s) (sub : [.out, .regs, .bus, .ras, .sram, .cl] ⊆ P := by decide) :
    Only P r (s.writeRas i off val).1 :=
  h.step sub fun _ h => by
    unfold State.writeRas
    extract_lets head ack v
    refine .iteFst h.writeHeader ?_
    refine .iteFst (.iteFst h.setFld.res h.reservedWrite.res) ?_
    refine .iteFst (.iteFst ((h.foldl fun _ _ h1 => h1.setReg).res) h.reservedWrite.res) ?_
    exact (Only.ite h.plainWord.emit h.plainWord).res

theorem writeRepair {i : Iface} {off : Nat} {val : Word} (h : Only P r s)
    (sub : [.out, .regs, .bus, .ras, .rind, .grid, .sram, .cl, .nv, .sys] ⊆ P := by decide) : Only P r (s.writeRepair i off val).1 :=
  h.step sub fun _ h => by
    unfold State.writeRepair
    refine .iteFst h.plainWrite.writeCtl.res ?_
    refine .iteFst h.writeHeader ?_
    refine .iteFst h.writeRepairApply ?_
    refine .iteFst ((Only.ite h.withSys h).res) ?_
    exact .iteFst h.plainWrite.showUnack.res (.iteFst h.writeRepairClear h.plainWord)

theorem writeNv {i : Iface} {off : Nat} {val : Word} {image : List Byte} {how : ReadEnd} {places : List Placement} (h : Only P r s)
    (sub : [.free, .out, .regs, .bus, .ras, .rind, .grid, .work, .mods, .ses, .sram, .cl, .nv, .tyz, .sys, .trace] ⊆ P := by decide) :
    Only P r (s.writeNv i off val image how places).1 :=
  h.step sub fun _ h => by
    unfold State.writeNv
    refine .iteFst h.writeHeader ?_
    refine .iteFst h.writeSecVer ?_
    exact .iteFst h.writeStageData (.iteFst h.writeStageGo (.iteFst h.writeUpdCtl (.iteFst h.writeAck h.plainWord)))

theorem writeRind {i : Iface} {off : Nat} {val : Word} (h : Only P r s)
    (sub : [.free, .out, .regs, .bus, .ras, .rind, .sram, .cl, .nv, .trace, .wdt] ⊆ P := by decide) : Only P r (s.writeRind i off val).1 :=
  h.step sub fun _ h => by
    unfold State.writeRind
    extract_lets bs src
    refine .iteFst h.writeHeader ?_
    refine .iteFst h.writeSessCtl ?_
    refine .iteFst h.writeSessResp ?_
    refine .iteFst h.writeKeyCtl ?_
    refine .iteFst h.withRind.res ?_
    refine .iteFst h.withRind.res ?_
    exact .iteFst h.burnMfuse (.iteFst h.withRind.res (.iteFst h.writeLcGo (.iteFst h.writeConsent h.plainWrite)))

theorem writeCal {i : Iface} {off : Nat} {val : Word} (h : Only P r s)
    (sub : [.out, .regs, .bus, .ras, .rind, .cal, .calSel, .sram, .cl, .nv] ⊆ P := by decide) : Only P r (s.writeCal i off val).1 :=
  h.step sub fun _ h => by
    unfold State.writeCal
    refine .iteFst h.writeCalCtl.writeCtl.res ?_
    exact .iteFst h.writeHeader (.iteFst h.writeCalIdx (.iteFst h.writeCalUser h.plainWrite))

theorem writeAuditPage {i : Iface} {off : Nat} {val : Word} (h : Only P r s)
    (sub : [.out, .regs, .bus, .ras, .rind, .sram, .cl] ⊆ P := by decide) : Only P r (s.writeAuditPage i off val).1 :=
  h.step sub fun _ h => .iteFst h.writeHeader (.iteFst h.writeAttest (.iteFst h.selectRecord h.plainWrite))

theorem writeRoute {i : Iface} {off : Nat} {val : Word} (h : Only P r s)
    (sub : [.out, .regs, .bus, .ras, .sram, .cl, .tyz] ⊆ P := by decide) : Only P r (s.writeRoute i off val).1 :=
  h.step sub fun _ h => by
    unfold State.writeRoute
    extract_lets a k
    exact .iteFst h.holdWord.res (h.entryWrite (fun _ _ h1 => h1.dropHeld.withTyz))

theorem writeColl {i : Iface} {off : Nat} {val : Word} (h : Only P r s)
    (sub : [.out, .regs, .bus, .ras, .sram, .cl, .tyz] ⊆ P := by decide) : Only P r (s.writeColl i off val).1 :=
  h.step sub fun _ h => by
    unfold State.writeColl
    extract_lets a j base e mask
    exact h.entryWrite (fun _ _ h1 => .ite h1.holdWord h1.dropHeld.withTyz)

theorem writeTyz {i : Iface} {n off : Nat} {val : Word} (h : Only P r s)
    (sub : [.out, .regs, .bus, .ras, .sram, .cl, .tyz] ⊆ P := by decide) : Only P r (s.writeTyz i n off val).1 :=
  h.step sub fun _ h => by
    unfold State.writeTyz
    extract_lets a s1 src src'
    refine .iteFst h.writeHeader ?_
    refine .iteFst h.writeTyzCfg ?_
    refine .iteFst h.plainWord ?_
    refine .iteFst h.dropHeld.setReg.res ?_
    refine .iteFst h.writeRoute ?_
    refine .iteFst h.setFld64.setFld.withTyz.res ?_
    exact .iteFst ((Only.ite h.withTyz h).res) (.iteFst h.writeIdx (.iteFst h.writeColl h.plainWord))

theorem writeEth {i : Iface} {k off : Nat} {val : Word} (h : Only P r s)
    (sub : [.out, .regs, .bus, .ras, .sram, .cl, .eth] ⊆ P := by decide) : Only P r (s.writeEth i k off val).1 :=
  h.step sub fun _ h => .iteFst h.writeHeader (.iteFst h.writeEthCfg h.plainWord)

theorem writeCluster {i : Iface} {off : Nat} {val : Word} (h : Only P r s) (sub : [.out, .regs, .bus, .ras, .sram, .cl] ⊆ P := by decide) :
    Only P r (s.writeCluster i off val).1 :=
  h.step sub fun _ h => by
    unfold State.writeCluster
    refine .iteFst h.writeHeader ?_
    refine .iteFst ?_ h.plainWrite
    extract_lets k s1 src
    exact .iteFst h.res h.plainWrite.setCore.res

theorem policyDue {off : Nat} (h : Only P r s) (sub : [.work] ⊆ P := by decide) : Only P r (s.policyDue off) :=
  h.step sub fun _ h => h.withWork

theorem writePolicy {i : Iface} {off : Nat} {val : Word} (h : Only P r s)
    (sub : [.out, .regs, .bus, .ras, .work, .sram, .cl] ⊆ P := by decide) : Only P r (s.writePolicy i off val).1 :=
  h.step sub fun _ h => .iteFst h.writeHeader ((Only.ite h.plainWord.policyDue h.plainWord).res)

theorem writeBody {i : Iface} {pg off : Nat} {val : Word} {image : List Byte} {how : ReadEnd} {places : List Placement} (h : Only P r s)
    (sub : anyWrite ⊆ P := by decide) : Only P r (s.writeBody i pg off val image how places).1 :=
  h.step sub fun _ h => by
    unfold State.writeBody
    split
    · exact h.res
    · split
      · exact .iteFst h.writeHeader (.iteFst h.writeRst h.plainWord)
      · exact h.writeFrame
      · exact h.writeSched
      · exact h.writePower
      · exact h.writeEnergy
      · exact h.writeWdtPage
      · exact h.writeTrace
      · exact h.writeRas
      · exact h.writeRepair
      · exact h.writeNv
      · exact h.writeRind
      · exact h.writeCal
      · exact h.writeAuditPage
      · exact .iteFst h.writeHeader (.iteFst h.writeCxlCfg h.plainWord)
      · exact h.writeTyz
      · exact h.writeEth
      · exact h.writeCluster
      · exact h.writeStream
      · exact h.writeCell
      · exact .iteFst h.writeHeader h.writeTenant
      · exact h.writePolicy
      · exact .iteFst h.writeHeader h.plainWord
      · exact .iteFst h.writeHeader h.plainWord
      · exact .iteFst h.writeHeader h.plainWord
      · exact .iteFst h.writeHeader h.plainWord

theorem writeVf {v off : Nat} {val : Word} (h : Only P r s)
    (sub : [.free, .out, .regs, .bus, .ras, .rind, .grid, .work, .mods, .ses, .sram, .cl, .nv, .trace] ⊆ P := by decide) :
    Only P r (s.writeVf v off val) :=
  h.step sub fun _ h => .ite h.windowWrite (.ite h.writeMsix h)

theorem writeReg {rq : Req} {addr : Nat} {val : Word} {image : List Byte} {how : ReadEnd} {places : List Placement} (h : Only P r s)
    (sub : anyWrite ⊆ P := by decide) : Only P r (s.writeReg rq addr val image how places) :=
  h.step sub fun _ h => by
    unfold State.writeReg
    split
    · exact .ite h.advance (.ite h.advance.writeVf h.advance.emit)
    · refine .ite ?_ (h.busWrite (fun _ h1 => h1.writeBody))
      extract_lets s0
      refine .ite h.advance ?_
      split
      · exact h.advance.writeMsix
      · exact h.advance

theorem execRegWrite {rq : Req} {addr : Nat} {val : Word} {image : List Byte} {how : ReadEnd} {places : List Placement} (h : Only P r s)
    (sub : anyWrite ⊆ P := by decide) : Answers P r (execRegWrite rq addr val image how places s) :=
  h.answer sub fun _ h => h.writeReg.next

theorem execWriteHighWordCommit {rq : Req} {addr : Nat} {val : Word} (h : Only P r s) (sub : anyWrite ⊆ P := by decide) :
    Answers P r (execWriteHighWordCommit rq addr val s) :=
  h.answer sub fun _ h => h.writeReg.next

theorem execRecordWindowIdxWrite {rq : Req} {addr : Nat} {val : Word} (h : Only P r s) (sub : anyWrite ⊆ P := by decide) :
    Answers P r (execRecordWindowIdxWrite rq addr val s) :=
  h.answer sub fun _ h => h.writeReg.next

theorem execTableWindowCommit {rq : Req} {addr : Nat} {val : Word} (h : Only P r s) (sub : anyWrite ⊆ P := by decide) :
    Answers P r (execTableWindowCommit rq addr val s) :=
  h.answer sub fun _ h => h.writeReg.next

theorem execErrLogClear {rq : Req} {pg : Nat} (h : Only P r s) (sub : anyWrite ⊆ P := by decide) : Answers P r (execErrLogClear rq pg s) :=
  h.answer sub fun _ h => h.writeReg.next

theorem execCounterClear {rq : Req} {addr : Nat} (h : Only P r s) (sub : anyWrite ⊆ P := by decide) :
    Answers P r (execCounterClear rq addr s) :=
  h.answer sub fun _ h => h.writeReg.next

theorem execPageCtlReset {rq : Req} {pg : Nat} (h : Only P r s) (sub : anyWrite ⊆ P := by decide) :
    Answers P r (execPageCtlReset rq pg s) :=
  h.answer sub fun _ h => h.writeReg.next

theorem execPageCtlLock {rq : Req} {pg : Nat} (h : Only P r s) (sub : anyWrite ⊆ P := by decide) : Answers P r (execPageCtlLock rq pg s) :=
  h.answer sub fun _ h => h.writeReg.next

theorem execUartRegAccess {write : Bool} {addr : Nat} {val : Word} {at_ : Dword} {image : List Byte} {how : ReadEnd}
    {places : List Placement} (h : Only P r s) (sub : anyWrite ⊆ P := by decide) :
    Answers P r (execUartRegAccess write addr val at_ image how places s) :=
  h.answer sub fun _ h => by
    unfold Machine.execUartRegAccess
    extract_lets rq s0
    exact .ite h.writeReg.next (.ite h.advance.touch.next h.advance.touch.readReg.emit.next)

theorem execPldmEffecterWrite {w : Nat} {at_ : Dword} (h : Only P r s) (sub : anyWrite ⊆ P := by decide) :
    Answers P r (execPldmEffecterWrite w at_ s) :=
  h.answer sub fun _ h => by
    unfold Machine.execPldmEffecterWrite
    extract_lets s0 v
    exact .ite h.advance.writeReg.emit.next h.advance.emit.next

theorem resetFields {pg : Nat} {ds : List FieldDesc} (h : Only P r s) (sub : [.regs] ⊆ P := by decide) : Only P r (s.resetFields pg ds) :=
  h.step sub fun _ h => h.foldl fun _ _ h1 => .ite (h1.foldl fun _ _ h2 => h2.setFld) h1

theorem resetWords {pg : Nat} {ws : List (Nat × Word)} (h : Only P r s) (sub : anyWrite ⊆ P := by decide) : Only P r (s.resetWords pg ws) :=
  h.step sub fun _ h => h.foldl fun _ _ h1 => h1.writeBody

theorem resetPage {pg : Nat} (h : Only P r s) (sub : anyWrite ⊆ P := by decide) : Only P r (s.resetPage pg) :=
  h.step sub fun _ h => by
    unfold State.resetPage
    split
    · exact h
    next k _ =>
    cases k with
    | frame => exact .ite h.resetFields.writeEvtEn h.resetFields.writeEvtEn.setFld.withSys
    | sched => exact h.resetFields.writeEvtEn.setProfileIdx
    | power => exact h.resetFields.writeEvtEn.setProfileIdx.setFld.withSys.setFld
    | energy =>
      exact (Only.ite h.resetFields.writeEvtEn.withAcct.setFld64.withAcct h.resetFields.writeEvtEn.withAcct.setFld64).selectRecord
    | trace => exact h.resetFields.writeEvtEn.writeTraceCtl.selectRecord
    | ras => exact .ite h.resetFields.writeEvtEn (.ite h.resetFields.writeEvtEn.setFld h.resetFields.writeEvtEn)
    | repair => exact h.resetFields.writeEvtEn.showUnack
    | host => exact h.resetFields.writeEvtEn.showHdm
    | tyz => exact .ite h.resetFields.writeEvtEn.resetWords.setReg.setReg h.resetFields.writeEvtEn.resetWords
    | eth | stream | cell | tenant => exact h.resetFields.writeEvtEn.resetWords
    | policy => exact h.resetFields.writeEvtEn.policyDue
    | top | therm | msix | mem | press | wdt | nv | rind | cal | audit | cluster => exact h.resetFields.writeEvtEn

end Only
end Sys2Proof.Machine
end

/-! ### What the operations of cores and the bus may change (`Machine/Cores.lean`) -/

section
open Sys2Proof
namespace Sys2Proof.Machine
namespace Only
set_option Elab.async false
variable {P Q : List Piece} {r s t : State}

theorem reportHits {k l : Nat} {hits : List Upset} (h : Only P r s) (sub : [.out, .regs, .bus, .ras, .sram, .cl, .trace] ⊆ P := by decide) :
    Only P r (s.reportHits k l hits) :=
  h.step sub fun _ h => h.foldl fun _ _ h1 => .ite h1.rasReport (.ite h1.setCore.rasReport h1)

theorem strikeLine {k l : Nat} {hits : List Upset} (h : Only P r s) (sub : [.out, .regs, .bus, .ras, .sram, .cl, .trace] ⊆ P := by decide) :
    Only P r (s.strikeLine k l hits) :=
  h.step sub fun _ h => by
    unfold State.strikeLine
    split
    · exact h
    · exact .ite h h.setCore.reportHits

theorem coreFault {k : Nat} (h : Only P r s) (sub : [.out] ⊆ P := by decide) : Only P r (s.coreFault k) := h.step sub fun _ h => h.emit

theorem doAccess {k l : Nat} {acc : CoreAcc} (h : Only P r s) (sub : [.out, .regs, .bus, .ras, .sram, .cl] ⊆ P := by decide) :
    Only P r (s.doAccess k l acc) :=
  h.step sub fun _ h => by
    unfold State.doAccess
    split
    · exact h
    · split
      · exact h
      · exact h
      · refine .ite h.setFld.setFld.event.coreFault ?_
        extract_lets src s1
        have hs1 : Only _ _ s1 := .ite h.setCore h
        exact hs1.emit
      · exact h.setCore

theorem request {r' : BusReq} (h : Only P r s) (sub : [.cl] ⊆ P := by decide) : Only P r (s.request r') := h.step sub fun _ h => h.withCl

theorem homeLine {who l : Nat} {hits : List Upset} (h : Only P r s) (sub : [.sram, .cl] ⊆ P := by decide) :
    Only P r (s.homeLine who l hits).1 :=
  h.step sub fun _ h => by
    unfold State.homeLine
    extract_lets struck
    split
    · exact h.withSram.addNotes.res

theorem writeHome {who off : Nat} {bs : List Byte} {poison : List Nat} (h : Only P r s) (sub : [.sram, .cl] ⊆ P := by decide) :
    Only P r (s.writeHome who off bs poison) :=
  h.step sub fun _ h => by
    unfold State.writeHome
    split
    · exact h.withSram.addNotes

theorem supplier {who l : Nat} {hits : List Upset} (h : Only P r s) (sub : [.out, .regs, .bus, .ras, .sram, .cl, .trace] ⊆ P := by decide) :
    Only P r (s.supplier who l hits).1 :=
  h.step sub fun _ h => by
    unfold State.supplier
    split
    · exact h.res
    split
    · exact .iteFst h.strikeLine.res h.res
    split
    · exact h.res
    refine .iteFst h.res ?_
    split
    next s1 d heq =>
    have h1 : Only _ _ s1 := .fst heq h.homeLine
    exact h1.res

theorem cancelWb {l : Nat} {supplied : Bool} (h : Only P r s) (sub : [.regs, .bus, .ras, .sram, .cl] ⊆ P := by decide) :
    Only P r (s.cancelWb l supplied) :=
  h.step sub fun _ h => .ite h.withCl.bump h.withCl

theorem snoopAll {who l : Nat} {k : BusKind} (h : Only P r s) (sub : [.cl] ⊆ P := by decide) : Only P r (s.snoopAll who l k) :=
  h.step sub fun _ h => h.withCl

theorem installI {k l off : Nat} {d : List Byte × List Nat} (h : Only P r s) (sub : [.free, .out, .cl] ⊆ P := by decide) :
    Only P r (s.installI k l off d) :=
  h.step sub fun _ h => by
    unfold State.installI
    extract_lets c set
    split
    next s1 c1 heq =>
    have h1 : Only _ _ s1 := .fst heq (.iteFst h.res h.takeFree.res)
    exact .ite h1.setCore.coreFault h1.setCore.emit

theorem complete {g : BusGrant} {d : List Byte × List Nat} (h : Only P r s)
    (sub : [.free, .out, .regs, .bus, .ras, .sram, .cl] ⊆ P := by decide) : Only P r (s.complete g d) :=
  h.step sub fun _ h => by
    unfold State.complete
    split
    · extract_lets s1 s2
      have hs1 : Only _ _ s1 := .ite h.writeHome h
      have hs2 : Only _ _ s2 := hs1.writeHome
      split
      next s3 x heq =>
      have h3 : Only _ _ s3 := .fst heq hs2.homeLine
      exact h3.withCl
    · refine .ite h.emit ?_
      split
      · exact h.installI
      all_goals exact h
    all_goals exact h.setCore.doAccess.withCl.setCore

theorem grantRead {who : Nat} {kind : BusKind} {l : Nat} {acc : CoreAcc} {mrg : Nat × List Byte} {hits : List Upset} (h : Only P r s)
    (sub : [.free, .out, .regs, .bus, .ras, .sram, .cl, .trace] ⊆ P := by decide) : Only P r (s.grantRead who kind l acc mrg hits) :=
  h.step sub fun _ h => by
    unfold State.grantRead
    split
    next s1 sup d fromWb heq =>
    have h1 : Only _ _ s1 := .fst heq h.supplier
    extract_lets sharers inst s2 s3 g src
    have hs2 : Only _ _ s2 := .ite h1.cancelWb h1
    split
    · exact hs2.snoopAll.complete
    · exact hs2.snoopAll.withCl

theorem granted {k : Nat} {r' : BusReq} (h : Only P r s) (sub : [.cl] ⊆ P := by decide) : Only P r (s.granted k r') :=
  h.step sub fun _ h => h.withCl

theorem grantCore {kind : BusKind} {at_ : Dword} {f : State → BusReq → State} (h : Only P r s) (hf : ∀ t q, Only P r t → Only P r (f t q))
    (sub : [.out, .tb, .regs, .bus, .ras, .sram, .cl, .trace] ⊆ P := by decide) : Answers P r (s.grantCore kind at_ f) := by
  unfold State.grantCore
  extract_lets s0
  have hs0 : Only P r s0 := h.step sub fun _ h => h.advance.flushNotes
  split
  · exact h.passOver
  split
  · exact h.passOver
  · exact .ite h.passOver ((hf _ _ (hs0.step sub fun _ h => h.granted)).step sub fun _ h => h.flushNotes).next

theorem grantAp {at_ : Dword} {f : State → State} (h : Only P r s) (hf : ∀ t, Only P r t → Only P r (f t))
    (sub : [.out, .tb, .regs, .bus, .ras, .sram, .cl, .trace] ⊆ P := by decide) : Answers P r (s.grantAp at_ f) := by
  unfold State.grantAp
  extract_lets s0
  have hs0 : Only P r s0 := h.step sub fun _ h => h.advance.flushNotes
  exact .ite h.passOver ((hf _ (hs0.step sub fun _ h => h.withCl)).step sub fun _ h => h.flushNotes).next

theorem execBusRd {hits : List Upset} {at_ : Dword} (h : Only P r s)
    (sub : [.free, .out, .tb, .regs, .bus, .ras, .sram, .cl, .trace] ⊆ P := by decide) : Answers P r (execBusRd hits at_ s) :=
  h.answer sub fun _ h => h.grantCore (fun _ _ h1 => h1.grantRead)

theorem execBusRdx {hits : List Upset} {at_ : Dword} (h : Only P r s)
    (sub : [.free, .out, .tb, .regs, .bus, .ras, .sram, .cl, .trace] ⊆ P := by decide) : Answers P r (execBusRdx hits at_ s) :=
  h.answer sub fun _ h => h.grantCore (fun _ _ h1 => h1.grantRead)

theorem grantUpgrade {r' : BusReq} {hits : List Upset} (h : Only P r s)
    (sub : [.free, .out, .regs, .bus, .ras, .sram, .cl, .trace] ⊆ P := by decide) : Only P r (s.grantUpgrade r' hits) :=
  h.step sub fun _ h => by
    unfold State.grantUpgrade
    split
    · exact h.grantRead
    · exact h.snoopAll.setCore.doAccess

theorem execBusUpgr {hits : List Upset} {at_ : Dword} (h : Only P r s)
    (sub : [.free, .out, .tb, .regs, .bus, .ras, .sram, .cl, .trace] ⊆ P := by decide) : Answers P r (execBusUpgr hits at_ s) :=
  h.answer sub fun _ h => h.grantCore (fun _ _ h1 => h1.grantUpgrade)

theorem execBusRdcur {ap : Bool} {line : Nat} {hits : List Upset} {at_ : Dword} (h : Only P r s)
    (sub : [.free, .out, .tb, .regs, .bus, .ras, .sram, .cl, .trace] ⊆ P := by decide) : Answers P r (execBusRdcur ap line hits at_ s) :=
  h.answer sub fun _ h => .ite (h.grantAp (fun _ h1 => h1.grantRead)) (h.grantCore (fun _ _ h2 => h2.grantRead))

theorem strikeHome {l : Nat} {hits : List Upset} (h : Only P r s) (sub : [.sram] ⊆ P := by decide) : Only P r (s.strikeHome l hits) :=
  h.step sub fun _ h => h.withSram

theorem wentHome {r' : BusReq} {hits : List Upset} (h : Only P r s) (sub : [.sram, .cl] ⊆ P := by decide) : Only P r (s.wentHome r' hits) :=
  h.step sub fun _ h => by
    unfold State.wentHome
    split
    · exact h
    · exact h.strikeHome.setCore.writeHome

theorem execBusWb {hits : List Upset} {at_ : Dword} (h : Only P r s)
    (sub : [.out, .tb, .regs, .bus, .ras, .sram, .cl, .trace] ⊆ P := by decide) : Answers P r (execBusWb hits at_ s) :=
  h.answer sub fun _ h => h.grantCore (fun _ _ h1 => h1.wentHome)

theorem writeLine {l : Nat} {data : List Byte} {hits : List Upset} (h : Only P r s)
    (sub : [.regs, .bus, .ras, .sram, .cl] ⊆ P := by decide) : Only P r (s.writeLine l data hits) :=
  h.step sub fun _ h => h.cancelWb.snoopAll.strikeHome.writeHome

theorem execBusWrinv {off : Nat} {data : List Byte} {hits : List Upset} {at_ : Dword} (h : Only P r s)
    (sub : [.out, .tb, .regs, .bus, .ras, .sram, .cl, .trace] ⊆ P := by decide) : Answers P r (execBusWrinv off data hits at_ s) :=
  h.answer sub fun _ h => h.grantAp (fun _ h1 => h1.writeLine)

theorem execBusWrmrg {off : Nat} {data : List Byte} {hits : List Upset} {at_ : Dword} (h : Only P r s)
    (sub : [.free, .out, .tb, .regs, .bus, .ras, .sram, .cl, .trace] ⊆ P := by decide) : Answers P r (execBusWrmrg off data hits at_ s) :=
  h.answer sub fun _ h => h.grantAp (fun _ h1 => h1.grantRead)

theorem dropGrant {g : BusGrant} (h : Only P r s) (sub : [.cl] ⊆ P := by decide) : Only P r (s.dropGrant g) :=
  h.step sub fun _ h => h.withCl

theorem execDataSupply {at_ : Dword} (h : Only P r s) (sub : [.free, .out, .tb, .regs, .bus, .ras, .sram, .cl, .trace] ⊆ P := by decide) :
    Answers P r (execDataSupply at_ s) :=
  h.answer sub fun _ h => by
    unfold Machine.execDataSupply
    extract_lets s0
    split
    · exact h.passOver
    · exact .ite h.passOver (.ite h.passOver h.advance.flushNotes.dropGrant.complete.flushNotes.next)

theorem homeSupplies {g : BusGrant} (h : Only P r s) (sub : [.free, .out, .regs, .bus, .ras, .sram, .cl, .trace] ⊆ P := by decide) :
    Only P r (s.homeSupplies g) :=
  h.step sub fun _ h => by
    unfold State.homeSupplies
    extract_lets owner old s1 c s2
    have hs2 : Only _ _ s2 := h.dropGrant.writeHome.setCore.homeTimedOut
    exact hs2.complete.flushNotes

theorem execHomeTimeout {at_ : Dword} (h : Only P r s) (sub : [.free, .out, .tb, .regs, .bus, .ras, .sram, .cl, .trace] ⊆ P := by decide) :
    Answers P r (execHomeTimeout at_ s) :=
  h.answer sub fun _ h => by
    unfold Machine.execHomeTimeout
    extract_lets s0
    split
    · exact h.passOver
    · exact .ite h.passOver h.advance.flushNotes.homeSupplies.next

theorem sramLoad {k a size : Nat} {lr : Bool} {hits : List Upset} (h : Only P r s)
    (sub : [.out, .regs, .bus, .ras, .sram, .cl, .trace] ⊆ P := by decide) : Only P r (s.sramLoad k a size lr hits) :=
  h.step sub fun _ h => by
    unfold State.sramLoad
    extract_lets l acc s1
    split
    · exact h.request
    · exact .ite h.strikeLine.doAccess (.ite h.strikeLine.setCore.doAccess h.strikeLine.request)

theorem sramStore {k a : Nat} {data : List Byte} {hits : List Upset} (h : Only P r s)
    (sub : [.out, .regs, .bus, .ras, .sram, .cl, .trace] ⊆ P := by decide) : Only P r (s.sramStore k a data hits) :=
  h.step sub fun _ h => by
    unfold State.sramStore
    extract_lets l acc s1
    split
    · exact h.request
    · split
      · exact h.strikeLine.doAccess
      · exact h.strikeLine.setCore.doAccess
      · exact h.strikeLine.request
      · exact h.strikeLine.request

theorem regLoad {k a size : Nat} (h : Only P r s) (sub : [.out, .bus] ⊆ P := by decide) : Only P r (s.regLoad k a size) :=
  h.step sub fun _ h => .ite h.readReg.readReg.emit h.readReg.emit

theorem coreLoads {k addr size : Nat} {hits : List Upset} (h : Only P r s)
    (sub : [.out, .regs, .bus, .ras, .sram, .cl, .trace] ⊆ P := by decide) : Only P r (s.coreLoads k addr size hits) :=
  h.step sub fun _ h => by
    unfold State.coreLoads
    split
    · exact h.coreFault
    · exact h.emit
    · exact h.regLoad
    · exact h.sramLoad

theorem coreStores {k addr : Nat} {data : List Byte} {hits : List Upset} {image : List Byte} {how : ReadEnd} {places : List Placement}
    (h : Only P r s) (sub : anyWrite ⊆ P := by decide) : Only P r (s.coreStores k addr data hits image how places) :=
  h.step sub fun _ h => by
    unfold State.coreStores
    split
    · exact h.coreFault
    · exact h
    · exact .ite h.coreFault (.ite h.writeReg.writeReg h.writeReg)
    · exact h.sramStore

theorem coreReserves {k addr size : Nat} {hits : List Upset} (h : Only P r s)
    (sub : [.out, .regs, .bus, .ras, .sram, .cl, .trace] ⊆ P := by decide) : Only P r (s.coreReserves k addr size hits) :=
  h.step sub fun _ h => by
    unfold State.coreReserves
    split
    · exact h.sramLoad
    · exact h.coreFault
    · exact h.coreFault
    · exact h.coreFault

theorem coreConditional {k addr : Nat} {data : List Byte} {hits : List Upset} (h : Only P r s)
    (sub : [.out, .regs, .bus, .ras, .sram, .cl, .trace] ⊆ P := by decide) : Only P r (s.coreConditional k addr data hits) :=
  h.step sub fun _ h => by
    unfold State.coreConditional
    split
    · exact .ite h.setCore.sramStore.emit h.setCore.emit
    · exact h.coreFault
    · exact h.coreFault
    · exact h.coreFault

theorem coreAccess {k : Nat} {at_ : Dword} {f : State → State} (h : Only P r s) (hf : ∀ t, Only P r t → Only P r (f t))
    (sub : [.out, .tb, .regs, .bus, .ras, .sram, .cl, .trace] ⊆ P := by decide) : Answers P r (s.coreAccess k at_ f) := by
  unfold State.coreAccess
  exact .ite h.passOver (.ite h.passOver (hf _ (h.step sub fun _ h => h.advance.flushNotes)).next)

theorem execCoreLoad {k addr size : Nat} {hits : List Upset} {at_ : Dword} (h : Only P r s)
    (sub : [.out, .tb, .regs, .bus, .ras, .sram, .cl, .trace] ⊆ P := by decide) : Answers P r (execCoreLoad k addr size hits at_ s) :=
  h.answer sub fun _ h => h.coreAccess (fun _ h1 => h1.coreLoads)

theorem execCoreStore {k addr : Nat} {data : List Byte} {hits : List Upset} {image : List Byte} {how : ReadEnd} {places : List Placement}
    {at_ : Dword} (h : Only P r s) (sub : anyWrite ⊆ P := by decide) :
    Answers P r (execCoreStore k addr data hits image how places at_ s) :=
  h.answer sub fun _ h => h.coreAccess (fun _ h1 => h1.coreStores)

theorem execCoreLr {k addr size : Nat} {hits : List Upset} {at_ : Dword} (h : Only P r s)
    (sub : [.out, .tb, .regs, .bus, .ras, .sram, .cl, .trace] ⊆ P := by decide) : Answers P r (execCoreLr k addr size hits at_ s) :=
  h.answer sub fun _ h => h.coreAccess (fun _ h1 => h1.coreReserves)

theorem execCoreSc {k addr : Nat} {data : List Byte} {hits : List Upset} {at_ : Dword} (h : Only P r s)
    (sub : [.out, .tb, .regs, .bus, .ras, .sram, .cl, .trace] ⊆ P := by decide) : Answers P r (execCoreSc k addr data hits at_ s) :=
  h.answer sub fun _ h => h.coreAccess (fun _ h1 => h1.coreConditional)

theorem evictOwned {k line : Nat} {x : CLine} {hits : List Upset} (h : Only P r s)
    (sub : [.out, .regs, .bus, .ras, .sram, .cl, .trace] ⊆ P := by decide) : Only P r (s.evictOwned k line x hits) :=
  h.step sub fun _ h => h.reportHits.setCore.request

theorem execL1dEvict {k line : Nat} {hits : List Upset} {at_ : Dword} (h : Only P r s)
    (sub : [.out, .tb, .regs, .bus, .ras, .sram, .cl, .trace] ⊆ P := by decide) : Answers P r (execL1dEvict k line hits at_ s) :=
  h.answer sub fun _ h => by
    unfold Machine.execL1dEvict
    extract_lets s0
    refine .ite h.passOver ?_
    split
    · exact h.passOver
    · exact .ite h.advance.flushNotes.setCore.next (.ite h.passOver h.advance.flushNotes.evictOwned.next)

theorem dropParity {k l : Nat} (h : Only P r s) (sub : [.out, .regs, .bus, .ras, .sram, .cl, .trace] ⊆ P := by decide) :
    Only P r (s.dropParity k l) :=
  h.step sub fun _ h => h.setCore.rasReport

theorem execL1iMiss {k addr : Nat} {parity : Bool} {at_ : Dword} (h : Only P r s)
    (sub : [.out, .tb, .regs, .bus, .ras, .sram, .cl, .trace] ⊆ P := by decide) : Answers P r (execL1iMiss k addr parity at_ s) :=
  h.answer sub fun _ h => by
    unfold Machine.execL1iMiss
    extract_lets s0 l held
    refine .ite h.passOver ?_
    refine .ite h.passOver ?_
    refine .ite h.advance.flushNotes.coreFault.next ?_
    exact .ite h.passOver (((Only.ite h.advance.flushNotes.dropParity h.advance.flushNotes).request).next)

theorem holdCore {k : Nat} (h : Only P r s) (sub : [.regs, .cl, .wdt] ⊆ P := by decide) : Only P r (s.holdCore k) :=
  h.step sub fun _ h => h.withCl.setCore.wdtFreeze

theorem loseCore {k : Nat} (h : Only P r s) (sub : [.out, .regs, .bus, .ras, .sram, .cl, .sys, .trace, .wdt] ⊆ P := by decide) :
    Only P r (s.loseCore k) :=
  h.step sub fun _ h => by
    unfold State.loseCore
    extract_lets s1 s2 src
    have hs2 : Only _ _ s2 := h.setFld.holdCore.rasReport.setCause.event
    exact hs2.withSys

theorem execCoreHeartbeatMiss {k : Nat} {at_ : Dword} (h : Only P r s)
    (sub : [.out, .tb, .regs, .bus, .ras, .sram, .cl, .sys, .trace, .wdt] ⊆ P := by decide) : Answers P r (execCoreHeartbeatMiss k at_ s) :=
  h.answer sub fun _ h => by
    unfold Machine.execCoreHeartbeatMiss
    extract_lets s0 missed ues
    exact .ite h.passOver (.ite h.passOver h.advance.flushNotes.loseCore.next)

end Only
end Sys2Proof.Machine
end

/-! ### What the operations of the frame may change (`Machine/Frame.lean`) -/

section
open Sys2Proof
namespace Sys2Proof.Machine
namespace Only
set_option Elab.async false
variable {P Q : List Piece} {r s t : State}

theorem endFrame (h : Only P r s) (sub : [.tb, .regs, .bus, .ras, .grid, .work, .ses, .sram, .cl, .meter] ⊆ P := by decide) :
    Only P r s.endFrame :=
  h.step sub fun _ h => by
    unfold State.endFrame
    extract_lets s1
    have hs1 : Only _ _ s1 := .ite h.beginGuard h
    exact hs1.foldl fun _ _ h1 => h1.idleTimeout

theorem closeRuns (h : Only P r s) (sub : [.free, .regs, .bus, .ras, .grid, .work, .sram, .cl, .trace] ⊆ P := by decide) :
    Only P r s.closeRuns :=
  h.step sub fun _ h => by
    unfold State.closeRuns
    extract_lets ended s1 cut frame ofCut clear left save src src'
    have hs1 : Only _ _ s1 := h.foldl fun _ _ h1 => h1.takeFree.traceRec
    exact hs1.withGridWork

theorem applyPageResets {due : Nat × Dword → Bool} (h : Only P r s) (sub : anyWrite ⊆ P := by decide) : Only P r (s.applyPageResets due) :=
  h.step sub fun _ h => h.withBus.foldl fun _ _ h1 => h1.resetPage

theorem updateReach (h : Only P r s) (sub : [.out, .regs, .bus, .ras, .sram, .cl, .tyz, .sys] ⊆ P := by decide) : Only P r s.updateReach :=
  h.step sub fun _ h => by
    unfold State.updateReach
    extract_lets src s1 bits s2 size
    have hs1 : Only _ _ s1 := h.withTyz.foldl fun _ _ h => h.setRegBit
    have hs2 : Only _ _ s2 := .ite hs1 (hs1.withRegs (regsWf_filter _))
    exact hs2.setCause.peerFallback

theorem portsUp (h : Only P r s) (sub : [.out, .regs, .bus, .ras, .sram, .cl, .tyz] ⊆ P := by decide) : Only P r s.portsUp :=
  h.step sub fun _ h => h.withTyz.portCounts

theorem alignTick {resumed : Bool} (h : Only P r s) (sub : [.out, .regs, .bus, .ras, .sram, .cl, .disc] ⊆ P := by decide) :
    Only P r (s.alignTick resumed) :=
  h.step sub fun _ h => by
    unfold State.alignTick
    extract_lets was s0 sel free src s1 s2 src' s3
    have hs0 : Only _ _ s0 := .ite h h.chooseParent
    have hs3 : Only _ _ s3 := .ite hs0.withDisc.setRegBit.sourceChanged.withDisc hs0.withDisc.setRegBit.sourceChanged
    exact hs3.slewTick.countOkTick

theorem setEff {pg off : Nat} (h : Only P r s) (sub : [.eff] ⊆ P := by decide) : Only P r (s.setEff pg off) :=
  h.step sub fun _ h => h.withEff

theorem applyPeriod {n : Nat} (h : Only P r s) (sub : [.out, .regs, .bus, .ras, .eff, .sram, .cl] ⊆ P := by decide) :
    Only P r (s.applyPeriod n) :=
  h.step sub fun _ h => by
    unfold State.applyPeriod
    extract_lets s0 pw gw clamped p g e s1 s2 s3
    have hs0 : Only _ _ s0 := .ite h.setEff.setEff h
    have hs1 : Only _ _ s1 := .ite hs0 hs0.setFld64
    have hs3 : Only _ _ s3 := hs1.setFld.setFld.setRegBit.setRegBit
    exact .ite hs3.event hs3

theorem step7 {temps : List (Nat × Int)} (h : Only P r s) (sub : [.regs, .mods, .press, .sys] ⊆ P := by decide) :
    Only P r (s.step7 temps) :=
  h.step sub fun _ h => by
    unfold State.step7
    extract_lets s1
    have hs1 : Only _ _ s1 := h.foldl fun _ _ h1 => .ite h1.setModule h1
    exact hs1.hdmTick.foldl fun _ _ h2 => .ite h2 h2.setPress.setFld

theorem rsvAsWritten (h : Only P r s) (sub : [.regs, .work] ⊆ P := by decide) : Only P r s.rsvAsWritten :=
  h.step sub fun _ h => h.withWork.foldl fun _ _ h1 => h1.setFld

theorem applyPolicy (h : Only P r s) (sub : [.out, .regs, .bus, .ras, .eff, .work, .sram, .cl] ⊆ P := by decide) : Only P r s.applyPolicy :=
  h.step sub fun _ h => by
    unfold State.applyPolicy
    extract_lets due src src' s0 was a s1
    have ha : Only _ _ a := (h.withWork.foldl fun _ _ h1 => h1.setEff).setRegBit
    have hs1 : Only _ _ s1 := .ite h.withWork (.ite (.ite ha.rsvAsWritten ha) h.withWork.setRegBit.event)
    exact .ite hs1.rsvAsWritten hs1

theorem applyQuota {t' : Nat} (h : Only P r s) (sub : [.regs] ⊆ P := by decide) : Only P r (s.applyQuota t') :=
  h.step sub fun _ h => h.setFld.setFld.setFld.setFld

theorem applySettings (h : Only P r s) (sub : [.out, .regs, .bus, .ras, .eff, .work, .sram, .cl] ⊆ P := by decide) :
    Only P r s.applySettings :=
  h.step sub fun _ h => h.applyPolicy.setEff.setEff.foldl fun _ _ h1 => h1.applyQuota.setEff

theorem withoutCells {sid : Nat} (h : Only P r s) (sub : [.work] ⊆ P := by decide) : Only P r (s.withoutCells sid) :=
  h.step sub fun _ h => h.withWork

theorem replaceSects {places : List (Nat × Option (Placement × List Byte))} (h : Only P r s) (sub : [.work] ⊆ P := by decide) :
    Only P r (s.replaceSects places) :=
  h.step sub fun _ h => by
    unfold State.replaceSects
    refine h.foldl fun _ _ h1 => ?_
    refine .ite h1 ?_
    split
    · exact h1.beginLoad
    · exact h1.withoutCells

theorem lpTick (h : Only P r s) (sub : [.regs, .sys] ⊆ P := by decide) : Only P r s.lpTick :=
  h.step sub fun _ h => by
    unfold State.lpTick
    split
    · exact .ite h.examineLp h
    · exact h

theorem kvTick (h : Only P r s) (sub : [.free, .out, .regs, .bus, .ras, .grid, .work, .mods, .ses, .sram, .cl, .trace] ⊆ P := by decide) :
    Only P r s.kvTick :=
  h.step sub fun _ h => h.foldl fun _ _ h1 => h1.evictKv

theorem adaptTick (h : Only P r s) (sub : [.work] ⊆ P := by decide) : Only P r s.adaptTick := h.step sub fun _ h => .ite h.adaptFrame h

theorem step9 {places : List (Nat × Option (Placement × List Byte))} (h : Only P r s)
    (sub : [.free, .out, .regs, .bus, .ras, .eff, .grid, .work, .mods, .ses, .sram, .cl, .sys, .acct, .trace] ⊆ P := by decide) :
    Only P r (s.step9 places) :=
  h.step sub fun _ h => by
    unfold State.step9
    extract_lets s1 s2
    have hs1 : Only _ _ s1 := ((((Only.ite h.adaptChoose h).adaptMove).applySettings).tenantStates).lpTick
    exact .ite hs1.replaceSects.kvTick hs1.replaceSects.kvTick.admitPhase.adaptTick

theorem tickInstant (h : Only P r s) (sub : [.out, .regs, .bus, .ras, .grid, .sram, .cl, .trace] ⊆ P := by decide) :
    Only P r s.tickInstant :=
  h.step sub fun _ h => by
    unfold State.tickInstant
    extract_lets s1 s2 base src
    have hs1 : Only _ _ s1 := .ite h.emit.emit h
    have hs2 : Only _ _ s2 := hs1.foldl fun _ _ h1 => .ite h1.emit h1
    exact hs2.endNap.withGrid

theorem step3 {rest : TickRest} (h : Only P r s)
    (sub : [.out, .regs, .bus, .ras, .grid, .work, .press, .ses, .sram, .cl, .nv, .sys, .trace] ⊆ P := by decide) :
    Only P r (s.step3 rest) :=
  h.step sub fun _ h => .ite h.repairHead.repairTail (.ite h.repairHead.swapAll.repairTail h.repairHead.withSys)

theorem runSteps {l : List (State → State)} (h : Only P r s) (hl : ∀ f ∈ l, ∀ t, Only P r t → Only P r (f t)) :
    Only P r (s.runSteps l) := by
  unfold State.runSteps
  induction l generalizing s with
  | nil => exact h
  | cons f l ih =>
    exact ih (.ite h (hl f List.mem_cons_self s h)) fun g mem => hl g (List.mem_cons_of_mem f mem)

/-- Each of the steps 4 to 9. -/
theorem lateStep {x : TickRest} {f : State → State} (mem : f ∈ lateSteps x) (h : Only P r s)
    (sub : [.free, .out, .regs, .bus, .ras, .cal, .eff, .grid, .work, .mods, .modHeld, .press, .ses, .sram, .cl, .tyz, .peers, .sys,
      .meter, .acct, .trace] ⊆ P := by decide) :
    Only P r (f s) := by
  refine h.step sub fun _ h => ?_
  simp only [lateSteps, List.mem_cons, List.not_mem_nil, or_false] at mem
  rcases mem with rfl | rfl | rfl | rfl | rfl | rfl
  · exact h.takeReady.releaseHeld.step4.settleDisplaced
  · exact h.step5
  · exact h.step6
  · exact h.step7
  · exact h.step8
  · exact h.step9

/-- Each of the steps 1 to 9. -/
theorem tickStep {resumed : Bool} {n us : Nat} {x : TickRest} {f : State → State} (mem : f ∈ tickList resumed n us x) (h : Only P r s)
    (sub : [.free, .out, .regs, .bus, .ras, .cal, .eff, .grid, .work, .mods, .modHeld, .press, .ses, .sram, .cl, .nv, .tyz, .peers, .disc,
      .sys, .meter, .acct, .trace] ⊆ P := by decide) :
    Only P r (f s) := by
  refine h.step sub fun _ h => ?_
  simp only [tickList, List.cons_append, List.nil_append, List.mem_cons] at mem
  rcases mem with rfl | rfl | rfl | mem
  · exact h.closeRuns.step1
  · exact h.applyPeriod.alignTick
  · exact h.step3
  · exact h.lateStep mem

theorem tickSteps {k n us : Nat} {x : TickRest} (h : Only P r s)
    (sub : [.free, .out, .regs, .bus, .ras, .cal, .eff, .grid, .work, .mods, .modHeld, .press, .ses, .sram, .cl, .nv, .tyz, .peers, .disc,
      .sys, .meter, .acct, .trace] ⊆ P := by decide) :
    Only P r (s.tickSteps k n us x) :=
  h.step sub fun _ h => by
    unfold State.tickSteps
    exact h.calTick.reformIlv.updateReach.portsUp.runSteps fun _ mem _ h => h.tickStep (List.mem_of_mem_take mem)

theorem tickEnd {done : Bool} (h : Only P r s)
    (sub : [.free, .out, .regs, .bus, .ras, .rind, .grid, .work, .ses, .sram, .cl, .nv, .sys] ⊆ P := by decide) :
    Only P r (s.tickEnd done) :=
  h.step sub fun _ h => by
    unfold State.tickEnd
    extract_lets src s1 src' s2 s3 src'' s4
    have hs1 : Only _ _ s1 := .ite h.withSys h
    have hs3 : Only _ _ s3 := .ite hs1.withSys.applyGridBase hs1.withSys
    have hs4 : Only _ _ s4 := .ite hs3.withSys.jWrite hs3
    exact .ite hs4.takeFree.withSys.audit hs4

theorem tickDone {done : Bool} (h : Only P r s)
    (sub : [.free, .out, .regs, .bus, .ras, .rind, .grid, .work, .ses, .sram, .cl, .nv, .sys] ⊆ P := by decide) :
    Only P r (s.tickDone done) :=
  h.step sub fun _ h => .ite h h.tickEnd

theorem tickLeave (h : Only P r s) (sub : [.regs, .bus, .ras, .sram, .cl, .meter, .trace] ⊆ P := by decide) : Only P r s.tickLeave :=
  h.step sub fun _ h => .ite h.withMeter.resumeRec h

theorem tickReset {at_ : Dword} {steps : State → State} (h : Only P r s) (hs : ∀ t, Only P r t → Only P r (steps t))
    (sub : allButQueue ⊆ P := by decide) : Only P r (s.tickReset at_ steps) := by
  unfold State.tickReset
  split
  · exact hs _ h
  · exact .ite (hs _ h) (.ite (hs _ (h.applyReset sub)) (h.applyReset sub))

theorem tickAtInstant {n : Nat} {t' : Dword} {sensors : List Int} {temps : List (Nat × Int)} {given : TickGiven} (h : Only P r s)
    (sub : allButQueue ⊆ P := by decide) : Only P r (s.tickAtInstant n t' sensors temps given) :=
  h.step sub fun _ h => by
    unfold State.tickAtInstant
    extract_lets us s0 late s1 s2 done r
    have hs1 : Only _ _ s1 := h.advance.flushNotes.drainTimeouts.setFld64.tickInstant
    split
    · exact hs1.releaseGrid.applyPageResets.tickLeave.tickReset (fun _ h1 => h1.tickSteps.tickDone)
    · exact (hs1.releaseGrid.applyPageResets.tickLeave.tickReset (fun _ h2 => h2.tickSteps)).boardReset

theorem sleepInstant (h : Only P r s) (sub : allButQueue ⊆ P := by decide) : Only P r s.sleepInstant :=
  h.step sub fun _ h => by
    unfold State.sleepInstant
    exact h.advance.flushNotes.applyPageResets.tickReset fun _ h => h

theorem execTick {sensors : List Int} {temps : List (Nat × Int)} {given : TickGiven} (h : Only P r s) (sub : allButQueue ⊆ P := by decide) :
    Answers P r (execTick sensors temps given s) :=
  h.answer sub fun _ h => by
    unfold Machine.execTick
    refine .ite h.sleepInstant.next ?_
    refine .ite h.passOver ?_
    refine .ite h.passOver ?_
    refine .ite h.passOver ?_
    extract_lets n t
    exact ((Only.ite h h.endFrame).tickAtInstant).next

theorem resumeTick {x : TickRest} {swap : Bool} (h : Only P r s)
    (sub : [.free, .out, .regs, .bus, .ras, .rind, .cal, .eff, .grid, .work, .mods, .modHeld, .press, .ses, .sram, .cl, .nv, .tyz, .peers,
      .sys, .meter, .acct, .trace] ⊆ P := by decide) :
    Only P r (s.resumeTick x swap) :=
  h.step sub fun _ h => by
    unfold State.resumeTick
    extract_lets src s1 s2
    have hs1 : Only _ _ s1 := h.withSys
    have hs2 : Only _ _ s2 := .ite hs1.swapAll.repairTail hs1.deferSwaps.repairTail
    exact (hs2.runSteps fun _ mem _ h => h.lateStep mem).tickEnd.releaseHeldInj.releaseBar4

theorem execRepairSwap {at_ : Dword} (h : Only P r s)
    (sub : [.free, .out, .tb, .regs, .bus, .ras, .rind, .cal, .eff, .grid, .work, .mods, .modHeld, .press, .ses, .sram, .cl, .nv, .tyz,
      .peers, .sys, .meter, .acct, .trace] ⊆ P := by decide) :
    Answers P r (execRepairSwap at_ s) :=
  h.answer sub fun _ h => by
    unfold Machine.execRepairSwap
    refine h.onClock ?_
    split
    · exact h.passOver
    · extract_lets s1
      exact .ite h.passOver (.ite h.passOver h.advance.resumeTick.next)

theorem execSwapWaitExpire {at_ : Dword} (h : Only P r s)
    (sub : [.free, .out, .tb, .regs, .bus, .ras, .rind, .cal, .eff, .grid, .work, .mods, .modHeld, .press, .ses, .sram, .cl, .nv, .tyz,
      .peers, .sys, .meter, .acct, .trace] ⊆ P := by decide) :
    Answers P r (execSwapWaitExpire at_ s) :=
  h.answer sub fun _ h => by
    unfold Machine.execSwapWaitExpire
    refine h.onClock ?_
    split
    · exact h.passOver
    · extract_lets s1
      exact .ite h.passOver (.ite h.passOver h.advance.resumeTick.next)

theorem delayedLp {due : Dword → Bool} (h : Only P r s) (sub : [.regs, .sys] ⊆ P := by decide) : Only P r (s.delayedLp due) :=
  h.step sub fun _ h => by
    unfold State.delayedLp
    split
    · exact .ite h.examineLp h
    · exact h

theorem disabledDue (h : Only P r s) (sub : allButQueue ⊆ P := by decide) : Only P r s.disabledDue :=
  h.step sub fun _ h => by
    unfold State.disabledDue
    extract_lets due s1
    split
    · exact .ite h.applyPageResets.applyReset h.applyPageResets.delayedLp
    · exact h.applyPageResets.delayedLp

theorem execDisabledDelayExpire {at_ : Dword} (h : Only P r s) (sub : allButQueue ⊆ P := by decide) :
    Answers P r (execDisabledDelayExpire at_ s) :=
  h.answer sub fun _ h => by
    unfold Machine.execDisabledDelayExpire
    extract_lets s0 due pages rst lp
    exact .ite h.passOver (.ite h.passOver h.advance.flushNotes.disabledDue.next)

end Only
end Sys2Proof.Machine
end

/-! ### What the operations of the vector engine may change (`Machine/Vector.lean`) -/

section
open Sys2Proof
namespace Sys2Proof.Machine
namespace Only
set_option Elab.async false
variable {P Q : List Piece} {r s t : State}

theorem vxFormat {pos n : Nat} {op : OpFields} (h : Only P r s) (sub : [.grid, .work] ⊆ P := by decide) : Only P r (s.vxFormat pos n op) :=
  h.step sub fun _ h => h.issuerFormat.vxRetire

theorem vxOperands {pos n : Nat} {op : OpFields} {u' : EngineUpset} {srcs : List Nat} {consume : Bool} (h : Only P r s)
    (sub : [.out, .regs, .bus, .ras, .grid, .work, .sram, .cl, .trace] ⊆ P := by decide) :
    Only P r (s.vxOperands pos n op u' srcs consume).1 :=
  h.step sub fun _ h => by
    unfold State.vxOperands
    extract_lets lanes s1 c p
    have hs1 : Only _ _ s1 := h.foldl fun _ _ h1 => h1.tileRead
    exact (Only.ite hs1.poisonRunAt hs1).res

theorem vxTile {pos n : Nat} {op : OpFields} {u' : EngineUpset} {srcs : List Nat} {consume : Bool} {d : VFmt} {f : Ctx → Nat → FRes}
    (h : Only P r s) (sub : [.out, .regs, .bus, .ras, .grid, .work, .sram, .cl, .trace] ⊆ P := by decide) :
    Only P r (s.vxTile pos n op u' srcs consume d f) :=
  h.step sub fun _ h => h.vxOperands.tileWrite.vxFlag.vxRetire

theorem vx1 {pos n : Nat} {op : OpFields} {u' : EngineUpset} {ok : VFmt → Bool} {consume : Bool} {f : VFmt → Nat → FRes} (h : Only P r s)
    (sub : [.out, .regs, .bus, .ras, .grid, .work, .sram, .cl, .trace] ⊆ P := by decide) : Answers P r (s.vx1 pos n op u' ok consume f) :=
  h.answer sub fun _ h => by
    unfold State.vx1
    extract_lets s0
    split
    · exact h.strikeSlice.vxFormat.next
    · exact .ite h.strikeSlice.vxTile.next h.strikeSlice.vxFormat.next

theorem vx2 {pos n : Nat} {op : OpFields} {u' : EngineUpset} {ok : VFmt → Bool} {f : VFmt → Nat → Nat → FRes} (h : Only P r s)
    (sub : [.out, .regs, .bus, .ras, .grid, .work, .sram, .cl, .trace] ⊆ P := by decide) : Answers P r (s.vx2 pos n op u' ok f) :=
  h.answer sub fun _ h => by
    unfold State.vx2
    extract_lets s0
    split
    · exact h.strikeSlice.vxFormat.next
    · exact .ite h.strikeSlice.vxTile.next h.strikeSlice.vxFormat.next

theorem vxSpecial {pos n : Nat} {op : OpFields} {u' : EngineUpset} {fn32 fn16 : Nat → BitVec 64 → FRes} (h : Only P r s)
    (sub : [.free, .out, .regs, .bus, .ras, .grid, .work, .sram, .cl, .trace] ⊆ P := by decide) :
    Answers P r (s.vxSpecial pos n op u' fn32 fn16) :=
  h.answer sub fun _ h => by
    unfold State.vxSpecial
    extract_lets s0 s1
    split
    · exact h.strikeSlice.vxFormat.next
    · exact .ite h.strikeSlice.vxFormat.next h.strikeSlice.withFree.vxTile.next

theorem execVxAdd {pos n : Nat} {op : OpFields} {u' : EngineUpset} (h : Only P r s)
    (sub : [.out, .regs, .bus, .ras, .grid, .work, .sram, .cl, .trace] ⊆ P := by decide) : Answers P r (execVxAdd pos n op u' s) :=
  h.answer sub fun _ h => h.onGrid h.vx2

theorem execVxSub {pos n : Nat} {op : OpFields} {u' : EngineUpset} (h : Only P r s)
    (sub : [.out, .regs, .bus, .ras, .grid, .work, .sram, .cl, .trace] ⊆ P := by decide) : Answers P r (execVxSub pos n op u' s) :=
  h.answer sub fun _ h => h.onGrid h.vx2

theorem execVxMul {pos n : Nat} {op : OpFields} {u' : EngineUpset} (h : Only P r s)
    (sub : [.out, .regs, .bus, .ras, .grid, .work, .sram, .cl, .trace] ⊆ P := by decide) : Answers P r (execVxMul pos n op u' s) :=
  h.answer sub fun _ h => h.onGrid h.vx2

theorem execVxFma {pos n : Nat} {op : OpFields} {u' : EngineUpset} (h : Only P r s)
    (sub : [.out, .regs, .bus, .ras, .grid, .work, .sram, .cl, .trace] ⊆ P := by decide) : Answers P r (execVxFma pos n op u' s) :=
  h.answer sub fun _ h => by
    unfold Machine.execVxFma
    refine h.onGrid ?_
    extract_lets s0
    split
    · exact h.strikeSlice.vxFormat.next
    · exact .ite h.strikeSlice.vxFormat.next h.strikeSlice.vxTile.next

theorem execVxMin {pos n : Nat} {op : OpFields} {u' : EngineUpset} (h : Only P r s)
    (sub : [.out, .regs, .bus, .ras, .grid, .work, .sram, .cl, .trace] ⊆ P := by decide) : Answers P r (execVxMin pos n op u' s) :=
  h.answer sub fun _ h => h.onGrid h.vx2

theorem execVxMax {pos n : Nat} {op : OpFields} {u' : EngineUpset} (h : Only P r s)
    (sub : [.out, .regs, .bus, .ras, .grid, .work, .sram, .cl, .trace] ⊆ P := by decide) : Answers P r (execVxMax pos n op u' s) :=
  h.answer sub fun _ h => h.onGrid h.vx2

theorem execVxAbs {pos n : Nat} {op : OpFields} {u' : EngineUpset} (h : Only P r s)
    (sub : [.out, .regs, .bus, .ras, .grid, .work, .sram, .cl, .trace] ⊆ P := by decide) : Answers P r (execVxAbs pos n op u' s) :=
  h.answer sub fun _ h => h.onGrid h.vx1

theorem execVxNeg {pos n : Nat} {op : OpFields} {u' : EngineUpset} (h : Only P r s)
    (sub : [.out, .regs, .bus, .ras, .grid, .work, .sram, .cl, .trace] ⊆ P := by decide) : Answers P r (execVxNeg pos n op u' s) :=
  h.answer sub fun _ h => h.onGrid h.vx1

theorem execVxAnd {pos n : Nat} {op : OpFields} {u' : EngineUpset} (h : Only P r s)
    (sub : [.out, .regs, .bus, .ras, .grid, .work, .sram, .cl, .trace] ⊆ P := by decide) : Answers P r (execVxAnd pos n op u' s) :=
  h.answer sub fun _ h => h.onGrid h.vx2

theorem execVxOr {pos n : Nat} {op : OpFields} {u' : EngineUpset} (h : Only P r s)
    (sub : [.out, .regs, .bus, .ras, .grid, .work, .sram, .cl, .trace] ⊆ P := by decide) : Answers P r (execVxOr pos n op u' s) :=
  h.answer sub fun _ h => h.onGrid h.vx2

theorem execVxXor {pos n : Nat} {op : OpFields} {u' : EngineUpset} (h : Only P r s)
    (sub : [.out, .regs, .bus, .ras, .grid, .work, .sram, .cl, .trace] ⊆ P := by decide) : Answers P r (execVxXor pos n op u' s) :=
  h.answer sub fun _ h => h.onGrid h.vx2

theorem execVxShl {pos n : Nat} {op : OpFields} {u' : EngineUpset} (h : Only P r s)
    (sub : [.out, .regs, .bus, .ras, .grid, .work, .sram, .cl, .trace] ⊆ P := by decide) : Answers P r (execVxShl pos n op u' s) :=
  h.answer sub fun _ h => h.onGrid h.vx2

theorem execVxShra {pos n : Nat} {op : OpFields} {u' : EngineUpset} (h : Only P r s)
    (sub : [.out, .regs, .bus, .ras, .grid, .work, .sram, .cl, .trace] ⊆ P := by decide) : Answers P r (execVxShra pos n op u' s) :=
  h.answer sub fun _ h => h.onGrid h.vx2

theorem execVxShrl {pos n : Nat} {op : OpFields} {u' : EngineUpset} (h : Only P r s)
    (sub : [.out, .regs, .bus, .ras, .grid, .work, .sram, .cl, .trace] ⊆ P := by decide) : Answers P r (execVxShrl pos n op u' s) :=
  h.answer sub fun _ h => h.onGrid h.vx2

theorem compareTiles {pos n : Nat} {op : OpFields} {u' : EngineUpset} {v : VFmt} {f : Nat → Nat → FRes} (h : Only P r s)
    (sub : [.out, .regs, .bus, .ras, .grid, .work, .sram, .cl, .trace] ⊆ P := by decide) : Only P r (s.compareTiles pos n op u' v f) :=
  h.step sub fun _ h => h.vxOperands.setCtx.vxFlag

theorem vxCompare {pos n : Nat} {op : OpFields} {u' : EngineUpset} {f : VFmt → Nat → Nat → FRes} (h : Only P r s)
    (sub : [.out, .regs, .bus, .ras, .grid, .work, .sram, .cl, .trace] ⊆ P := by decide) : Answers P r (s.vxCompare pos n op u' f) :=
  h.answer sub fun _ h => by
    unfold State.vxCompare
    extract_lets s0
    split
    · exact h.strikeSlice.vxFormat.next
    · exact h.strikeSlice.compareTiles.vxRetire.next

theorem execVxCmpEq {pos n : Nat} {op : OpFields} {u' : EngineUpset} (h : Only P r s)
    (sub : [.out, .regs, .bus, .ras, .grid, .work, .sram, .cl, .trace] ⊆ P := by decide) : Answers P r (execVxCmpEq pos n op u' s) :=
  h.answer sub fun _ h => h.onGrid h.vxCompare

theorem execVxCmpNe {pos n : Nat} {op : OpFields} {u' : EngineUpset} (h : Only P r s)
    (sub : [.out, .regs, .bus, .ras, .grid, .work, .sram, .cl, .trace] ⊆ P := by decide) : Answers P r (execVxCmpNe pos n op u' s) :=
  h.answer sub fun _ h => h.onGrid h.vxCompare

theorem execVxCmpLt {pos n : Nat} {op : OpFields} {u' : EngineUpset} (h : Only P r s)
    (sub : [.out, .regs, .bus, .ras, .grid, .work, .sram, .cl, .trace] ⊆ P := by decide) : Answers P r (execVxCmpLt pos n op u' s) :=
  h.answer sub fun _ h => h.onGrid h.vxCompare

theorem execVxCmpLe {pos n : Nat} {op : OpFields} {u' : EngineUpset} (h : Only P r s)
    (sub : [.out, .regs, .bus, .ras, .grid, .work, .sram, .cl, .trace] ⊆ P := by decide) : Answers P r (execVxCmpLe pos n op u' s) :=
  h.answer sub fun _ h => h.onGrid h.vxCompare

theorem execVxSel {pos n : Nat} {op : OpFields} {u' : EngineUpset} (h : Only P r s)
    (sub : [.out, .regs, .bus, .ras, .grid, .work, .sram, .cl, .trace] ⊆ P := by decide) : Answers P r (execVxSel pos n op u' s) :=
  h.answer sub fun _ h => by
    unfold Machine.execVxSel
    refine h.onGrid ?_
    extract_lets s0
    split
    · exact h.strikeSlice.vxFormat.next
    · exact h.strikeSlice.vxTile.next

theorem execVxCvt {pos n : Nat} {op : OpFields} {u' : EngineUpset} (h : Only P r s)
    (sub : [.out, .regs, .bus, .ras, .grid, .work, .sram, .cl, .trace] ⊆ P := by decide) : Answers P r (execVxCvt pos n op u' s) :=
  h.answer sub fun _ h => by
    unfold Machine.execVxCvt
    refine h.onGrid ?_
    extract_lets s0
    split
    · exact h.strikeSlice.vxTile.next
    · exact h.strikeSlice.vxFormat.next

theorem execVxExp {pos n : Nat} {op : OpFields} {u' : EngineUpset} (h : Only P r s)
    (sub : [.free, .out, .regs, .bus, .ras, .grid, .work, .sram, .cl, .trace] ⊆ P := by decide) : Answers P r (execVxExp pos n op u' s) :=
  h.answer sub fun _ h => h.onGrid h.vxSpecial

theorem execVxRcp {pos n : Nat} {op : OpFields} {u' : EngineUpset} (h : Only P r s)
    (sub : [.free, .out, .regs, .bus, .ras, .grid, .work, .sram, .cl, .trace] ⊆ P := by decide) : Answers P r (execVxRcp pos n op u' s) :=
  h.answer sub fun _ h => h.onGrid h.vxSpecial

theorem execVxRsqrt {pos n : Nat} {op : OpFields} {u' : EngineUpset} (h : Only P r s)
    (sub : [.free, .out, .regs, .bus, .ras, .grid, .work, .sram, .cl, .trace] ⊆ P := by decide) : Answers P r (execVxRsqrt pos n op u' s) :=
  h.answer sub fun _ h => h.onGrid h.vxSpecial

theorem execVxTanh {pos n : Nat} {op : OpFields} {u' : EngineUpset} (h : Only P r s)
    (sub : [.free, .out, .regs, .bus, .ras, .grid, .work, .sram, .cl, .trace] ⊆ P := by decide) : Answers P r (execVxTanh pos n op u' s) :=
  h.answer sub fun _ h => h.onGrid h.vxSpecial

theorem execVxErf {pos n : Nat} {op : OpFields} {u' : EngineUpset} (h : Only P r s)
    (sub : [.free, .out, .regs, .bus, .ras, .grid, .work, .sram, .cl, .trace] ⊆ P := by decide) : Answers P r (execVxErf pos n op u' s) :=
  h.answer sub fun _ h => h.onGrid h.vxSpecial

theorem execVxMov {pos n : Nat} {op : OpFields} {u' : EngineUpset} (h : Only P r s)
    (sub : [.out, .regs, .bus, .ras, .grid, .work, .sram, .cl, .trace] ⊆ P := by decide) : Answers P r (execVxMov pos n op u' s) :=
  h.answer sub fun _ h => h.onGrid h.vx1

theorem vxPermute {pos n : Nat} {op : OpFields} {u' : EngineUpset} {v : VFmt} {from_ : Nat → Nat} (h : Only P r s)
    (sub : [.out, .regs, .bus, .ras, .grid, .sram, .cl, .trace] ⊆ P := by decide) : Only P r (s.vxPermute pos n op u' v from_) :=
  h.step sub fun _ h => h.tileRead.tileWrite.vxRetire

theorem execVxBcast {pos n : Nat} {op : OpFields} {u' : EngineUpset} (h : Only P r s)
    (sub : [.free, .out, .regs, .bus, .ras, .grid, .work, .sram, .cl, .trace] ⊆ P := by decide) : Answers P r (execVxBcast pos n op u' s) :=
  h.answer sub fun _ h => by
    unfold Machine.execVxBcast
    refine h.onGrid ?_
    split
    next d s0 heq =>
    have h1 : Only _ _ s0 := .snd heq h.strikeSlice.takeFree
    split
    · exact h1.vxFormat.next
    · exact h1.vxPermute.next

theorem execVxTrn {pos n : Nat} {op : OpFields} {u' : EngineUpset} (h : Only P r s)
    (sub : [.out, .regs, .bus, .ras, .grid, .work, .sram, .cl, .trace] ⊆ P := by decide) : Answers P r (execVxTrn pos n op u' s) :=
  h.answer sub fun _ h => by
    unfold Machine.execVxTrn
    refine h.onGrid ?_
    extract_lets s0
    split
    · exact h.strikeSlice.vxFormat.next
    · exact h.strikeSlice.vxPermute.next

theorem execVxLd {pos n : Nat} {op : OpFields} {u' : EngineUpset} (h : Only P r s)
    (sub : [.out, .regs, .bus, .ras, .grid, .work, .sram, .cl, .trace] ⊆ P := by decide) : Answers P r (execVxLd pos n op u' s) :=
  h.answer sub fun _ h => by
    unfold Machine.execVxLd
    refine h.onGrid ?_
    extract_lets s0
    split
    · exact h.strikeSlice.vxFormat.next
    · refine .ite h.strikeSlice.vxFormat.next ?_
      split
      · exact h.strikeSlice.vxWait.next
      next t heq =>
        have h1 : Only _ _ t := h.strikeSlice.engRead_ended heq
        exact h1.vxRetire.next
      next t bs ps heq =>
        have h2 : Only _ _ t := h.strikeSlice.engRead_got heq
        exact h2.tileWrite.vxRetire.next

theorem execVxSt {pos n : Nat} {op : OpFields} {u' : EngineUpset} (h : Only P r s)
    (sub : [.out, .regs, .bus, .ras, .grid, .work, .sram, .cl, .trace] ⊆ P := by decide) : Answers P r (execVxSt pos n op u' s) :=
  h.answer sub fun _ h => by
    unfold Machine.execVxSt
    refine h.onGrid ?_
    extract_lets s0 k s1 c
    split
    · exact h.strikeSlice.vxFormat.next
    · refine .ite h.strikeSlice.vxFormat.next ?_
      split
      · exact h.strikeSlice.tileRead.vxWait.next
      next t heq =>
        have h1 : Only _ _ t := h.strikeSlice.tileRead.engWrite_ended heq
        exact h1.vxRetire.next
      next t v heq =>
        have h2 : Only _ _ t := h.strikeSlice.tileRead.engWrite_got heq
        exact h2.vxRetire.next

theorem quantDone {pos n : Nat} {bs : List (QBlock × Bool)} (h : Only P r s) (sub : [.grid, .work] ⊆ P := by decide) :
    Only P r (s.quantDone pos n bs) :=
  h.step sub fun _ h => (Only.ite h.poisonRunAt h).vxFlag

theorem execVxQst {pos n : Nat} {op : OpFields} {u' : EngineUpset} (h : Only P r s)
    (sub : [.out, .regs, .bus, .ras, .grid, .work, .sram, .cl, .trace] ⊆ P := by decide) : Answers P r (execVxQst pos n op u' s) :=
  h.answer sub fun _ h => by
    unfold Machine.execVxQst
    refine h.onGrid ?_
    extract_lets s0 narrow s1 bs
    refine .ite h.strikeSlice.vxFormat.next ?_
    split
    · exact h.strikeSlice.tileRead.vxWait.next
    next t heq =>
      have h1 : Only _ _ t := h.strikeSlice.tileRead.engWrite_ended heq
      exact h1.vxRetire.next
    next t v heq =>
      have h2 : Only _ _ t := h.strikeSlice.tileRead.engWrite_got heq
      exact h2.quantDone.vxRetire.next

theorem execVxMkrange {pos n : Nat} {op : OpFields} {u' : EngineUpset} (h : Only P r s) (sub : [.grid, .work] ⊆ P := by decide) :
    Answers P r (execVxMkrange pos n op u' s) :=
  h.answer sub fun _ h => by
    unfold Machine.execVxMkrange
    refine h.onGrid ?_
    extract_lets s0
    exact .ite h.strikeSlice.vxFormat.next h.strikeSlice.setCtx.vxRetire.next

theorem vxMaskOp {pos n : Nat} {op : OpFields} {u' : EngineUpset} {f : BitVec 256 → BitVec 256 → BitVec 256} (h : Only P r s)
    (sub : [.grid] ⊆ P := by decide) : Answers P r (s.vxMaskOp pos n op u' f) :=
  h.answer sub fun _ h => by
    unfold State.vxMaskOp
    extract_lets s0 c
    exact h.strikeSlice.setCtx.vxRetire.next

theorem execVxMkand {pos n : Nat} {op : OpFields} {u' : EngineUpset} (h : Only P r s) (sub : [.grid] ⊆ P := by decide) :
    Answers P r (execVxMkand pos n op u' s) :=
  h.answer sub fun _ h => h.onGrid h.vxMaskOp

theorem execVxMkor {pos n : Nat} {op : OpFields} {u' : EngineUpset} (h : Only P r s) (sub : [.grid] ⊆ P := by decide) :
    Answers P r (execVxMkor pos n op u' s) :=
  h.answer sub fun _ h => h.onGrid h.vxMaskOp

theorem execVxMknot {pos n : Nat} {op : OpFields} {u' : EngineUpset} (h : Only P r s) (sub : [.grid] ⊆ P := by decide) :
    Answers P r (execVxMknot pos n op u' s) :=
  h.answer sub fun _ h => h.onGrid h.vxMaskOp

theorem redOperands {pos n : Nat} {op : OpFields} {u' : EngineUpset} (h : Only P r s)
    (sub : [.out, .regs, .bus, .ras, .grid, .sram, .cl, .trace] ⊆ P := by decide) : Only P r (s.redOperands pos n op u') :=
  h.step sub fun _ h => .ite h.tileRead.tileRead h.tileRead

theorem reduceTile {pos n : Nat} {op : OpFields} {u' : EngineUpset} {v : VFmt} (h : Only P r s)
    (sub : [.out, .regs, .bus, .ras, .grid, .work, .sram, .cl, .trace] ⊆ P := by decide) : Only P r (s.reduceTile pos n op u' v) :=
  h.step sub fun _ h => by
    unfold State.reduceTile
    extract_lets o groups s2 c done puts snan fl s3 s4 last src
    have hs4 : Only _ _ s4 := .ite h.redOperands.setCtx.vxFlag.poisonRunAt h.redOperands.setCtx.vxFlag
    exact hs4.setMatrix

theorem execVxRed {pos n : Nat} {op : OpFields} {u' : EngineUpset} (h : Only P r s)
    (sub : [.out, .regs, .bus, .ras, .grid, .work, .sram, .cl, .trace] ⊆ P := by decide) : Answers P r (execVxRed pos n op u' s) :=
  h.answer sub fun _ h => by
    unfold Machine.execVxRed
    refine h.onGrid ?_
    extract_lets s0 o sc rr
    split
    · exact h.strikeSlice.vxFormat.next
    · exact .ite h.strikeSlice.vxFormat.next h.strikeSlice.reduceTile.vxRetire.next

theorem curdFreed {pos n : Nat} (h : Only P r s) (sub : [.grid] ⊆ P := by decide) : Only P r (s.curdFreed pos n) :=
  h.step sub fun _ h => by
    unfold State.curdFreed
    extract_lets c
    split
    · exact h
    · extract_lets s1
      split
      · exact .ite h.setCtx.mxRetire h.setCtx
      · exact h.setCtx

theorem execVxPop {pos n : Nat} {op : OpFields} {u' : EngineUpset} (h : Only P r s) (sub : [.grid] ⊆ P := by decide) :
    Answers P r (execVxPop pos n op u' s) :=
  h.answer sub fun _ h => by
    unfold Machine.execVxPop
    refine h.onGrid ?_
    extract_lets s0 c
    split
    · exact h.strikeSlice.vxWait.next
    · exact h.strikeSlice.setCtx.curdFreed.tileWrite.vxRetire.next

theorem readSubTile {pos n : Nat} {op : OpFields} {u' : EngineUpset} (h : Only P r s)
    (sub : [.out, .regs, .bus, .ras, .grid, .sram, .cl, .trace] ⊆ P := by decide) : Only P r (s.readSubTile pos n op u') :=
  h.step sub fun _ h => h.bankRead.setMatrix.tileWrite.vxFlag

theorem execVxAccrd {pos n : Nat} {op : OpFields} {u' : EngineUpset} (h : Only P r s)
    (sub : [.out, .regs, .bus, .ras, .grid, .work, .sram, .cl, .trace] ⊆ P := by decide) : Answers P r (execVxAccrd pos n op u' s) :=
  h.answer sub fun _ h => by
    unfold Machine.execVxAccrd
    refine h.onGrid ?_
    extract_lets s0
    exact .ite h.strikeSlice.vxFormat.next h.strikeSlice.readSubTile.vxRetire.next

theorem execVxAccrel {pos n : Nat} {op : OpFields} {u' : EngineUpset} (h : Only P r s) (sub : [.grid] ⊆ P := by decide) :
    Answers P r (execVxAccrel pos n op u' s) :=
  h.answer sub fun _ h => by
    unfold Machine.execVxAccrel
    refine h.onGrid ?_
    extract_lets s0 m src
    exact h.strikeSlice.setMatrix.vxRetire.next

theorem execVxS2c {pos n : Nat} {op : OpFields} {u' : EngineUpset} (h : Only P r s)
    (sub : [.out, .regs, .bus, .ras, .grid, .work, .sram, .cl, .trace] ⊆ P := by decide) : Answers P r (execVxS2c pos n op u' s) :=
  h.answer sub fun _ h => by
    unfold Machine.execVxS2c
    refine h.onGrid ?_
    extract_lets s0 fmtOk size overlap
    refine .ite h.strikeSlice.vxFormat.next ?_
    split
    · exact h.strikeSlice.issuerBound.vxRetire.next
    · exact h.strikeSlice.vxFormat.next
    · refine .ite h.strikeSlice.vxWait.next ?_
      split
      · exact h.strikeSlice.vxWait.next
      next t heq =>
        have h1 : Only _ _ t := h.strikeSlice.engRead_ended heq
        exact h1.vxRetire.next
      next t bs ps heq =>
        have h2 : Only _ _ t := h.strikeSlice.engRead_got heq
        split
        · exact h2.vxWait.next
        next t2 heq =>
          have h3 : Only _ _ t2 := h2.engWrite_ended heq
          exact h3.vxRetire.next
        next t2 v heq =>
          have h4 : Only _ _ t2 := h2.engWrite_got heq
          exact h4.vxRetire.next

end Only
end Sys2Proof.Machine
end

/-! ### Every command answers a next state, and touches neither the queue nor the register file's canonical form -/

section
open Sys2Proof
namespace Sys2Proof.Machine
set_option Elab.async false

/-- Whatever the command, it answers a next state, and no row's footprint holds the queue. -/
theorem exec_answers (c : Instr) (s : State) : Answers allButQueue s (exec c s) := by
  cases c with
  | regWrite _ _ _ _ _ _ => exact Only.refl.execRegWrite
  | readLowWordLatch _ _ => exact Only.refl.execReadLowWordLatch
  | writeHighWordCommit _ _ _ => exact Only.refl.execWriteHighWordCommit
  | recordWindowIdxWrite _ _ _ => exact Only.refl.execRecordWindowIdxWrite
  | recordWindowDataRead _ _ => exact Only.refl.execRecordWindowDataRead
  | tableWindowCommit _ _ _ => exact Only.refl.execTableWindowCommit
  | errLogClear _ _ => exact Only.refl.execErrLogClear
  | counterClear _ _ => exact Only.refl.execCounterClear
  | pageCtlReset _ _ => exact Only.refl.execPageCtlReset
  | pageCtlLock _ _ => exact Only.refl.execPageCtlLock
  | tick _ _ _ => exact Only.refl.execTick
  | napEnter => exact Only.refl.execNapEnter
  | guardStart => exact Only.refl.execGuardStart
  | runStart _ => exact Only.refl.execRunStart
  | budgetExpire _ => exact Only.refl.execBudgetExpire
  | runComplete _ _ => exact Only.refl.execRunComplete
  | drainComplete _ _ => exact Only.refl.execDrainComplete
  | drainTimeout _ => exact Only.refl.execDrainTimeout
  | runIdleTimeout _ => exact Only.refl.execRunIdleTimeout
  | tbSrcLost _ => exact Only.refl.execTbSrcLost
  | holdoverExpire _ => exact Only.refl.execHoldoverExpire
  | alignRecover => exact Only.refl.execAlignRecover
  | frameSyncInEdge _ => exact Only.refl.execFrameSyncInEdge
  | syncEdgeSelect _ => exact Only.refl.execSyncEdgeSelect
  | timebaseWrite _ _ => exact Only.refl.execTimebaseWrite
  | epochWrite _ _ => exact Only.refl.execEpochWrite
  | frameEnable _ => exact Only.refl.execFrameEnable
  | frameDisable _ => exact Only.refl.execFrameDisable
  | disabledDelayExpire _ => exact Only.refl.execDisabledDelayExpire
  | meshPacketArrive _ _ _ _ => exact Only.refl.execMeshPacketArrive
  | mcForward _ => exact Only.refl.execMcForward
  | redMergeAddI32 _ _ _ _ => exact Only.refl.execRedMergeAddI32
  | redMergeAddF32 _ _ _ _ => exact Only.refl.execRedMergeAddF32
  | redMergeMaxF32 _ _ _ _ => exact Only.refl.execRedMergeMaxF32
  | redMergeLse _ _ _ _ => exact Only.refl.execRedMergeLse
  | linkCreditReturn _ _ _ _ => exact Only.refl.execLinkCreditReturn
  | vn0AgePromote _ => exact Only.refl.execVn0AgePromote
  | routerPlaneFault _ => exact Only.refl.execRouterPlaneFault
  | spAccessGrant _ _ _ _ _ _ _ _ => exact Only.refl.execSpAccessGrant
  | ceWriteback _ _ => exact Only.refl.execCeWriteback
  | remoteAccessArrive _ _ _ _ _ _ _ _ _ => exact Only.refl.execRemoteAccessArrive
  | remoteReadResponse _ _ _ _ _ => exact Only.refl.execRemoteReadResponse
  | scrubVisit _ _ => exact Only.refl.execScrubVisit
  | scrubLate _ => exact Only.refl.execScrubLate
  | bar4ScratchpadAccess _ _ _ _ _ => exact Only.refl.execBar4ScratchpadAccess
  | bar4MemoryAccess _ _ _ _ _ _ _ => exact Only.refl.execBar4MemoryAccess
  | triggerFire _ => exact Only.refl.execTriggerFire
  | tokenArrive _ _ _ _ _ => exact Only.refl.execTokenArrive
  | nop _ => exact Only.refl.execNop
  | mxLoadw _ _ _ _ => exact Only.refl.execMxLoadw
  | mxSwap _ _ _ _ => exact Only.refl.execMxSwap
  | mxMac _ _ _ _ => exact Only.refl.execMxMac
  | mxRead _ _ _ _ => exact Only.refl.execMxRead
  | vxAdd _ _ _ _ => exact Only.refl.execVxAdd
  | vxSub _ _ _ _ => exact Only.refl.execVxSub
  | vxMul _ _ _ _ => exact Only.refl.execVxMul
  | vxFma _ _ _ _ => exact Only.refl.execVxFma
  | vxMin _ _ _ _ => exact Only.refl.execVxMin
  | vxMax _ _ _ _ => exact Only.refl.execVxMax
  | vxAbs _ _ _ _ => exact Only.refl.execVxAbs
  | vxNeg _ _ _ _ => exact Only.refl.execVxNeg
  | vxAnd _ _ _ _ => exact Only.refl.execVxAnd
  | vxOr _ _ _ _ => exact Only.refl.execVxOr
  | vxXor _ _ _ _ => exact Only.refl.execVxXor
  | vxShl _ _ _ _ => exact Only.refl.execVxShl
  | vxShra _ _ _ _ => exact Only.refl.execVxShra
  | vxShrl _ _ _ _ => exact Only.refl.execVxShrl
  | vxCmpEq _ _ _ _ => exact Only.refl.execVxCmpEq
  | vxCmpNe _ _ _ _ => exact Only.refl.execVxCmpNe
  | vxCmpLt _ _ _ _ => exact Only.refl.execVxCmpLt
  | vxCmpLe _ _ _ _ => exact Only.refl.execVxCmpLe
  | vxSel _ _ _ _ => exact Only.refl.execVxSel
  | vxCvt _ _ _ _ => exact Only.refl.execVxCvt
  | vxExp _ _ _ _ => exact Only.refl.execVxExp
  | vxRcp _ _ _ _ => exact Only.refl.execVxRcp
  | vxRsqrt _ _ _ _ => exact Only.refl.execVxRsqrt
  | vxTanh _ _ _ _ => exact Only.refl.execVxTanh
  | vxErf _ _ _ _ => exact Only.refl.execVxErf
  | vxMov _ _ _ _ => exact Only.refl.execVxMov
  | vxBcast _ _ _ _ => exact Only.refl.execVxBcast
  | vxTrn _ _ _ _ => exact Only.refl.execVxTrn
  | vxLd _ _ _ _ => exact Only.refl.execVxLd
  | vxSt _ _ _ _ => exact Only.refl.execVxSt
  | vxQst _ _ _ _ => exact Only.refl.execVxQst
  | vxMkrange _ _ _ _ => exact Only.refl.execVxMkrange
  | vxMkand _ _ _ _ => exact Only.refl.execVxMkand
  | vxMkor _ _ _ _ => exact Only.refl.execVxMkor
  | vxMknot _ _ _ _ => exact Only.refl.execVxMknot
  | vxRed _ _ _ _ => exact Only.refl.execVxRed
  | vxPop _ _ _ _ => exact Only.refl.execVxPop
  | vxAccrd _ _ _ _ => exact Only.refl.execVxAccrd
  | vxAccrel _ _ _ _ => exact Only.refl.execVxAccrel
  | vxS2c _ _ _ _ => exact Only.refl.execVxS2c
  | descLoad _ _ _ => exact Only.refl.execDescLoad
  | loadAccept _ => exact Only.refl.execLoadAccept
  | imageVerifyComplete _ _ => exact Only.refl.execImageVerifyComplete
  | imageReadFail _ _ _ => exact Only.refl.execImageReadFail
  | descUnload _ => exact Only.refl.execDescUnload
  | descRun _ => exact Only.refl.execDescRun
  | streamDataArrive _ _ => exact Only.refl.execStreamDataArrive
  | crdArrive _ _ => exact Only.refl.execCrdArrive
  | crdTimerReturn _ _ _ => exact Only.refl.execCrdTimerReturn
  | streamUnitSend _ _ _ => exact Only.refl.execStreamUnitSend
  | streamDbWrite _ _ _ => exact Only.refl.execStreamDbWrite
  | seRead _ _ => exact Only.refl.execSeRead
  | seWrite _ _ _ => exact Only.refl.execSeWrite
  | seMigrateIn _ _ _ => exact Only.refl.execSeMigrateIn
  | seMigrateOut _ _ _ _ => exact Only.refl.execSeMigrateOut
  | moduleReadReturn _ _ _ _ _ _ => exact Only.refl.execModuleReadReturn
  | seDescComplete _ _ => exact Only.refl.execSeDescComplete
  | channelBringup _ _ _ => exact Only.refl.execChannelBringup
  | memWcrcError _ _ _ _ => exact Only.refl.execMemWcrcError
  | moduleCeWriteback _ _ => exact Only.refl.execModuleCeWriteback
  | moduleScrubVisit _ _ => exact Only.refl.execModuleScrubVisit
  | channelLost _ _ => exact Only.refl.execChannelLost
  | chanRestoredWrite _ _ => exact Only.refl.execChanRestoredWrite
  | pressCmdIssue _ _ _ => exact Only.refl.execPressCmdIssue
  | pressCmdAccept _ _ _ _ => exact Only.refl.execPressCmdAccept
  | pressAttn _ _ => exact Only.refl.execPressAttn
  | pressBurstStart _ _ _ => exact Only.refl.execPressBurstStart
  | pressCmdComplete _ _ _ => exact Only.refl.execPressCmdComplete
  | pressQueueReset _ _ => exact Only.refl.execPressQueueReset
  | pressHot _ _ => exact Only.refl.execPressHot
  | pressQcompPoll _ _ _ => exact Only.refl.execPressQcompPoll
  | pressTimeout _ _ _ => exact Only.refl.execPressTimeout
  | hostLinkTrain _ _ _ _ _ => exact Only.refl.execHostLinkTrain
  | hostLinkDown _ => exact Only.refl.execHostLinkDown
  | hotReset _ => exact Only.refl.execHotReset
  | flrVf _ _ => exact Only.refl.execFlrVf
  | flrPf1 _ => exact Only.refl.execFlrPf1
  | flrPf0 _ => exact Only.refl.execFlrPf0
  | dbSqTail _ _ _ _ _ => exact Only.refl.execDbSqTail
  | dbCqHead _ _ _ _ _ => exact Only.refl.execDbCqHead
  | sqFetch _ => exact Only.refl.execSqFetch
  | sqFetchComplete _ _ _ _ _ _ => exact Only.refl.execSqFetchComplete
  | qCtlEnWrite _ _ _ => exact Only.refl.execQCtlEnWrite
  | tenantQueueReset _ _ => exact Only.refl.execTenantQueueReset
  | tenantCreate _ _ => exact Only.refl.execTenantCreate
  | tenantDestroy _ _ => exact Only.refl.execTenantDestroy
  | tenantFnWrite _ _ _ => exact Only.refl.execTenantFnWrite
  | noticeAckWrite _ _ _ => exact Only.refl.execNoticeAckWrite
  | vfWindowWrite _ _ _ _ _ => exact Only.refl.execVfWindowWrite
  | cxlMemRequest _ _ _ _ _ _ => exact Only.refl.execCxlMemRequest
  | cxlSnoop _ => exact Only.refl.execCxlSnoop
  | tyzPortEnable _ _ _ => exact Only.refl.execTyzPortEnable
  | tyzTrainComplete _ _ => exact Only.refl.execTyzTrainComplete
  | tyzTrainTimeout _ => exact Only.refl.execTyzTrainTimeout
  | tyzLostRetrain _ _ _ => exact Only.refl.execTyzLostRetrain
  | tyzLaneFail _ _ => exact Only.refl.execTyzLaneFail
  | tyzLanemapFlit _ _ => exact Only.refl.execTyzLanemapFlit
  | tyzDataFlit _ _ => exact Only.refl.execTyzDataFlit
  | tyzIdleFlit _ _ => exact Only.refl.execTyzIdleFlit
  | tyzNakFlit _ _ _ => exact Only.refl.execTyzNakFlit
  | tyzAckTimeout _ => exact Only.refl.execTyzAckTimeout
  | tyzPacketRoute => exact Only.refl.execTyzPacketRoute
  | tyzRdReq _ => exact Only.refl.execTyzRdReq
  | tyzRdRsp => exact Only.refl.execTyzRdRsp
  | tyzWr _ => exact Only.refl.execTyzWr
  | tyzWrAck => exact Only.refl.execTyzWrAck
  | tyzStream => exact Only.refl.execTyzStream
  | tyzCrd => exact Only.refl.execTyzCrd
  | tyzAddI32 => exact Only.refl.execTyzAddI32
  | tyzAddF32 => exact Only.refl.execTyzAddF32
  | tyzMaxF32 => exact Only.refl.execTyzMaxF32
  | tyzLseMerge => exact Only.refl.execTyzLseMerge
  | tyzCollRes => exact Only.refl.execTyzCollRes
  | tyzMgmt _ => exact Only.refl.execTyzMgmt
  | tyzRmaTimeout _ _ => exact Only.refl.execTyzRmaTimeout
  | alignFlitSend _ _ => exact Only.refl.execAlignFlitSend
  | alignFlitReceive _ _ _ => exact Only.refl.execAlignFlitReceive
  | rtCopy _ => exact Only.refl.execRtCopy
  | ethDgramReceive _ _ _ => exact Only.refl.execEthDgramReceive
  | ethRtoExpire _ => exact Only.refl.execEthRtoExpire
  | ptpMessage _ _ _ => exact Only.refl.execPtpMessage
  | policyAdaptWindow => exact Only.refl.execPolicyAdaptWindow
  | kvIdleEvict _ => exact Only.refl.execKvIdleEvict
  | railSample _ _ => exact Only.refl.execRailSample
  | emergThrottle _ _ => exact Only.refl.execEmergThrottle
  | thermtrip _ _ _ => exact Only.refl.execThermtrip
  | pwrfailAssert _ => exact Only.refl.execPwrfailAssert
  | pwrfailRelease _ => exact Only.refl.execPwrfailRelease
  | railFault _ _ _ => exact Only.refl.execRailFault
  | acctBoundaryInSleep _ => exact Only.refl.execAcctBoundaryInSleep
  | wallOfsWrite _ _ => exact Only.refl.execWallOfsWrite
  | repairApplyWrite _ _ => exact Only.refl.execRepairApplyWrite
  | repairCopy _ _ _ => exact Only.refl.execRepairCopy
  | repairSwap _ => exact Only.refl.execRepairSwap
  | swapWaitExpire _ => exact Only.refl.execSwapWaitExpire
  | repairNvRetry _ => exact Only.refl.execRepairNvRetry
  | repairClear _ _ => exact Only.refl.execRepairClear
  | coreHeartbeatMiss _ _ => exact Only.refl.execCoreHeartbeatMiss
  | coreLoad _ _ _ _ _ => exact Only.refl.execCoreLoad
  | coreStore _ _ _ _ _ _ _ _ => exact Only.refl.execCoreStore
  | l1dEvict _ _ _ _ => exact Only.refl.execL1dEvict
  | l1iMiss _ _ _ _ => exact Only.refl.execL1iMiss
  | coreLr _ _ _ _ _ => exact Only.refl.execCoreLr
  | coreSc _ _ _ _ _ => exact Only.refl.execCoreSc
  | busRd _ _ => exact Only.refl.execBusRd
  | busRdx _ _ => exact Only.refl.execBusRdx
  | busUpgr _ _ => exact Only.refl.execBusUpgr
  | busRdcur _ _ _ _ => exact Only.refl.execBusRdcur
  | busWb _ _ => exact Only.refl.execBusWb
  | busWrinv _ _ _ _ => exact Only.refl.execBusWrinv
  | busWrmrg _ _ _ _ => exact Only.refl.execBusWrmrg
  | dataSupply _ => exact Only.refl.execDataSupply
  | homeTimeout _ => exact Only.refl.execHomeTimeout
  | por => exact Only.refl.execPor
  | boardReset _ => exact Only.refl.execBoardReset
  | rstGrid _ => exact Only.refl.execRstGrid
  | rstCluster _ => exact Only.refl.execRstCluster
  | rstDevice _ => exact Only.refl.execRstDevice
  | powerUpSequence => exact Only.refl.execPowerUpSequence
  | boot _ => exact Only.refl.execBoot
  | stageDataWrite _ _ => exact Only.refl.execStageDataWrite
  | stageGo _ _ => exact Only.refl.execStageGo
  | flashOpStart => exact Only.refl.execFlashOpStart
  | flashEraseComplete _ => exact Only.refl.execFlashEraseComplete
  | flashProgramComplete _ => exact Only.refl.execFlashProgramComplete
  | nvUpdGo _ _ _ _ => exact Only.refl.execNvUpdGo
  | nvAcctAck _ _ => exact Only.refl.execNvAcctAck
  | nvAuditAck _ _ => exact Only.refl.execNvAuditAck
  | secVerMinWrite _ _ => exact Only.refl.execSecVerMinWrite
  | wdtService _ _ => exact Only.refl.execWdtService
  | wdtExpire _ => exact Only.refl.execWdtExpire
  | wdtClockExpire _ _ => exact Only.refl.execWdtClockExpire
  | wdtStage2 _ => exact Only.refl.execWdtStage2
  | wdtHoldExpire _ => exact Only.refl.execWdtHoldExpire
  | traceEnable _ => exact Only.refl.execTraceEnable
  | traceRingWrite => exact Only.refl.execTraceRingWrite
  | traceFwRec _ _ => exact Only.refl.execTraceFwRec
  | traceDumpGo _ => exact Only.refl.execTraceDumpGo
  | traceDumpAck _ => exact Only.refl.execTraceDumpAck
  | jtagIdcode => exact Only.refl.execJtagIdcode
  | jtagBypass => exact Only.refl.execJtagBypass
  | jtagSamplePreload _ _ => exact Only.refl.execJtagSamplePreload
  | jtagExtest => exact Only.refl.execJtagExtest
  | jtagClamp => exact Only.refl.execJtagClamp
  | jtagHighz => exact Only.refl.execJtagHighz
  | debugCoreHalt _ _ => exact Only.refl.execDebugCoreHalt
  | uartRegAccess _ _ _ _ _ _ _ => exact Only.refl.execUartRegAccess
  | pldmSensorRead _ => exact Only.refl.execPldmSensorRead
  | pldmEffecterWrite _ _ => exact Only.refl.execPldmEffecterWrite
  | pldmPowerWake _ => exact Only.refl.execPldmPowerWake
  | sessOpen _ _ _ => exact Only.refl.execSessOpen
  | sessResp _ _ => exact Only.refl.execSessResp
  | sessClose _ => exact Only.refl.execSessClose
  | sessIdleClose _ _ => exact Only.refl.execSessIdleClose
  | nonceExpire _ _ => exact Only.refl.execNonceExpire
  | lockoutExpire _ _ => exact Only.refl.execLockoutExpire
  | keyWrite _ _ => exact Only.refl.execKeyWrite
  | keyRevoke _ _ => exact Only.refl.execKeyRevoke
  | keyClaim _ => exact Only.refl.execKeyClaim
  | keyBurnComplete _ => exact Only.refl.execKeyBurnComplete
  | mfuseGo _ _ => exact Only.refl.execMfuseGo
  | lcGo _ _ => exact Only.refl.execLcGo
  | attestNonceWrite _ _ => exact Only.refl.execAttestNonceWrite
  | calSave _ => exact Only.refl.execCalSave
  | calClearAll _ => exact Only.refl.execCalClearAll
  | lpReqSleep _ => exact Only.refl.execLpReqSleep
  | lpReqStandby _ => exact Only.refl.execLpReqStandby
  | lpReqRun _ => exact Only.refl.execLpReqRun
  | sleepEnter => exact Only.refl.execSleepEnter
  | standbyEnter => exact Only.refl.execStandbyEnter
  | sleepExitReady _ => exact Only.refl.execSleepExitReady
  | bisnpResponse _ _ _ => exact Only.refl.execBisnpResponse
  | migrationResume _ => exact Only.refl.execMigrationResume
  | tc0AgePromote _ => exact Only.refl.execTc0AgePromote
  | ethLinkDown _ => exact Only.refl.execEthLinkDown
  | ethLinkUp _ => exact Only.refl.execEthLinkUp
  | refclkSysLost => exact Only.refl.execRefclkSysLost
  | debugCoreResume _ _ => exact Only.refl.execDebugCoreResume
  | lcBurnComplete => exact Only.refl.execLcBurnComplete
  | msixVectorUnmask _ _ _ _ => exact Only.refl.execMsixVectorUnmask
  | sriovVfEnable _ _ => exact Only.refl.execSriovVfEnable
  | hdmDecoderCommit _ => exact Only.refl.execHdmDecoderCommit
  | heldRelease _ => exact Only.refl.execHeldRelease

theorem Answers.only {P : List Piece} {s t : State} {o : Host.Outcome State Fault Refusal} (h : Answers P s o) (e : o = .next t) :
    Only P s t := by
  obtain ⟨u, answer, only⟩ := h
  cases answer.symm.trans e
  exact only

/-- A piece that is not put back is the same before and after. -/
theorem Piece.eq_of_pick {α : Type} {p : Piece} {P : List Piece} {a b : α} (off : p ∉ P) (held : p.pick P a b = a) : b = a := by
  rwa [Piece.pick, if_neg off] at held

theorem Only.pending_eq {P : List Piece} {s t : State} (h : Only P s t) (off : Piece.pending ∉ P := by decide) : t.pending = s.pending :=
  Piece.eq_of_pick off (congrArg (fun x : State => x.pending) h.putBack :)

theorem Only.flash_eq {P : List Piece} {s t : State} (h : Only P s t) (off : Piece.flash ∉ P := by decide) : t.nv.flash = s.nv.flash :=
  Piece.eq_of_pick off (congrArg (fun x : State => x.nv.flash) h.putBack :)

/-- A step is idle, or takes the front command from the queue and is as that command answers. -/
theorem step_answers (s : State) : ∃ t, step s = .next t ∧ (regsWf s.regs → regsWf t.regs) := by
  rw [step]
  split
  · exact ⟨s, rfl, id⟩
  next c rest _ =>
    obtain ⟨t, answer, only⟩ := exec_answers c { s with pending := rest }
    exact ⟨t, answer, only.canonical⟩

/-- A footprint of a row is a frame: `keep` puts back the pieces the footprint lists. -/
theorem frame_of_answers {P : List Piece} {keep : State → State → State} {c : Instr} (e : keep = State.putBack P)
    (h : ∀ s, Only P s s → Answers P s (exec c s)) : Frame keep c := by
  intro s t answer
  rw [e]
  exact ((h s .refl).only answer).putBack

/-! ### The contents of flash -/

theorem mapGet_flashProgram (bs : List Byte) (f : SMap Byte) (a i : Nat) : mapGet 0xFF (flashProgram f a bs) i
    = if a ≤ i ∧ i < a + bs.length then mapGet 0xFF f i &&& bs.getD (i - a) 0xFF else mapGet 0xFF f i := by
  induction bs generalizing f a with
  | nil => simp [flashProgram]
  | cons b bs ih =>
    rw [flashProgram, ih, mapGet_mapSet, List.length_cons]
    rcases Nat.lt_trichotomy i a with before | rfl | after
    · rw [if_neg (by omega), if_neg (by omega), if_neg (by omega)]
    · rw [if_neg (by omega), if_pos rfl, if_pos (by omega), Nat.sub_self]
      rfl
    · rw [if_neg (Nat.ne_of_gt after), show i - a = i - (a + 1) + 1 by omega, List.getD_cons_succ]
      exact if_congr (by omega) rfl rfl

theorem mapGet_flashErase (f : SMap Byte) (sec i : Nat) :
    mapGet 0xFF (flashErase f sec) i = if i / secSize = sec then 0xFF else mapGet 0xFF f i := by
  induction f with
  | nil => exact (ite_self _).symm
  | cons e f ih =>
    obtain ⟨k, v⟩ := e
    rw [flashErase] at ih ⊢
    by_cases erased : k / secSize = sec
    · rw [List.filter_cons_of_neg (by simp [erased]), ih, mapGet]
      split
      · rfl
      · rw [if_neg]
        rintro rfl
        contradiction
    · rw [List.filter_cons_of_pos (by simp [erased]), mapGet, ih, mapGet]
      by_cases here : i = k
      · subst here
        rw [if_pos rfl, if_neg erased, if_pos rfl]
      · rw [if_neg here, if_neg here]

theorem programmed_flash (s : State) (o : FlashOp) :
    (s.programmed o).nv.flash = flashProgram s.nv.flash o.addr (o.bytes.take (256 - o.addr % 256)) := by
  rw [State.programmed]
  split
  · exact (Only.refl (P := [.out, .regs, .bus, .ras, .rind, .sram, .cl, .nv, .acct])).follow.flash_eq
  · rfl

theorem programFails_flash (s : State) (o : FlashOp) : (s.programFails o).nv.flash = s.nv.flash :=
  (Only.refl (P := [.out, .regs, .bus, .ras, .sram, .cl, .nv, .trace])).programFails.flash_eq

theorem execFlashProgramComplete_of_cur {s : State} {o : FlashOp} (ok : Bool) (cur : s.nv.cur = some o) (isProgram : o.erase = false) :
    exec (.flashProgramComplete ok) s = .next (if ok then s.programmed o else s.programFails o) := by
  show execFlashProgramComplete ok s = _
  simp only [execFlashProgramComplete, cur, isProgram, Bool.false_eq_true, if_false]

end Sys2Proof.Machine
end

section
open Sys2Proof Sys2Proof.Machine
set_option Elab.async false

/-- Settles O3: no row's footprint holds the queue. -/
theorem commandsLeaveTheQueue : Obligations.CommandsLeaveTheQueue := by
  unfold Obligations.CommandsLeaveTheQueue
  intro c s t answer
  exact ((exec_answers c s).only answer).pending_eq

/-- Settles O4: every operation on the register file is a write of a word, or returns words to reset, and both keep its form. -/
theorem registerFileStaysCanonical : Obligations.RegisterFileStaysCanonical := by
  unfold Obligations.RegisterFileStaysCanonical KeptByStep
  intro s t canonical answer
  obtain ⟨u, steps, kept⟩ := step_answers s
  cases steps.symm.trans answer
  exact kept canonical

/-- Settles O6: every row answers a next state, and so does an idle step. -/
theorem stepsAnswerNoRefusal : Obligations.StepsAnswerNoRefusal := by
  unfold Obligations.StepsAnswerNoRefusal
  intro s
  obtain ⟨t, answer, _⟩ := step_answers s
  exact ⟨t, answer⟩

/-- Settles O58, by induction on the bytes programmed, and on the map for an erase. -/
theorem flashProgramsOnlyClearBits : Obligations.FlashProgramsOnlyClearBits := by
  unfold Obligations.FlashProgramsOnlyClearBits
  refine ⟨fun f a i bs => mapGet_flashProgram bs f a i, mapGet_flashErase, fun o s t => ⟨?fails, ?programs⟩⟩
  case fails =>
    intro cur isProgram answer
    cases (execFlashProgramComplete_of_cur false cur isProgram).symm.trans answer
    exact programFails_flash s o
  case programs =>
    intro cur isProgram answer
    cases (execFlashProgramComplete_of_cur true cur isProgram).symm.trans answer
    exact programmed_flash s o

/-- Settles O52: each row by its footprint, which its group's frame holds. -/
theorem gridRowsLeaveTheRest : Obligations.GridRowsLeaveTheRest := by
  unfold Obligations.GridRowsLeaveTheRest
  intro keep
  have keeps {c : Instr} := frame_of_answers (keep := keep) (c := c)
    (P := [.free, .out, .regs, .bus, .ras, .grid, .work, .sram, .cl, .trace]) rfl
  exact ⟨fun _ _ _ _ _ _ _ _ => keeps fun _ h => h.execSpAccessGrant,
    fun _ _ _ _ _ _ _ _ _ => keeps fun _ h => h.execRemoteAccessArrive,
    fun _ _ _ _ _ => keeps fun _ h => h.execRemoteReadResponse,
    fun _ _ => keeps fun _ h => h.execCeWriteback,
    fun _ _ => keeps fun _ h => h.execScrubVisit,
    fun _ => ⟨keeps fun _ h => h.execScrubLate, keeps fun _ h => h.execMcForward, keeps fun _ h => h.execVn0AgePromote,
      keeps fun _ h => h.execTriggerFire, keeps fun _ h => h.execNop⟩,
    fun _ _ _ _ _ => keeps fun _ h => h.execBar4ScratchpadAccess,
    fun _ _ _ _ => keeps fun _ h => h.execMeshPacketArrive,
    fun _ _ _ _ => ⟨keeps fun _ h => h.execRedMergeAddI32, keeps fun _ h => h.execRedMergeAddF32, keeps fun _ h => h.execRedMergeMaxF32,
      keeps fun _ h => h.execRedMergeLse⟩,
    fun _ _ _ _ => keeps fun _ h => h.execLinkCreditReturn,
    fun _ _ _ _ _ => keeps fun _ h => h.execTokenArrive,
    fun _ _ _ => keeps fun _ h => h.execStreamUnitSend,
    fun _ _ _ _ => ⟨keeps fun _ h => h.execMxLoadw, keeps fun _ h => h.execMxSwap, keeps fun _ h => h.execMxMac,
      keeps fun _ h => h.execMxRead, keeps fun _ h => h.execVxAdd, keeps fun _ h => h.execVxSub, keeps fun _ h => h.execVxMul,
      keeps fun _ h => h.execVxFma, keeps fun _ h => h.execVxMin, keeps fun _ h => h.execVxMax, keeps fun _ h => h.execVxAbs,
      keeps fun _ h => h.execVxNeg, keeps fun _ h => h.execVxAnd, keeps fun _ h => h.execVxOr, keeps fun _ h => h.execVxXor,
      keeps fun _ h => h.execVxShl, keeps fun _ h => h.execVxShra, keeps fun _ h => h.execVxShrl, keeps fun _ h => h.execVxCmpEq,
      keeps fun _ h => h.execVxCmpNe, keeps fun _ h => h.execVxCmpLt, keeps fun _ h => h.execVxCmpLe, keeps fun _ h => h.execVxSel,
      keeps fun _ h => h.execVxCvt, keeps fun _ h => h.execVxExp, keeps fun _ h => h.execVxRcp, keeps fun _ h => h.execVxRsqrt,
      keeps fun _ h => h.execVxTanh, keeps fun _ h => h.execVxErf, keeps fun _ h => h.execVxMov, keeps fun _ h => h.execVxBcast,
      keeps fun _ h => h.execVxTrn, keeps fun _ h => h.execVxLd, keeps fun _ h => h.execVxSt, keeps fun _ h => h.execVxQst,
      keeps fun _ h => h.execVxMkrange, keeps fun _ h => h.execVxMkand, keeps fun _ h => h.execVxMkor, keeps fun _ h => h.execVxMknot,
      keeps fun _ h => h.execVxRed, keeps fun _ h => h.execVxPop, keeps fun _ h => h.execVxAccrd, keeps fun _ h => h.execVxAccrel,
      keeps fun _ h => h.execVxS2c⟩⟩

/-- Settles O53: each row by its footprint, which its group's frame holds. -/
theorem clusterRowsLeaveTheRest : Obligations.ClusterRowsLeaveTheRest := by
  unfold Obligations.ClusterRowsLeaveTheRest
  intro keep
  have keeps {c : Instr} := frame_of_answers (keep := keep) (c := c)
    (P := [.free, .out, .tb, .regs, .bus, .ras, .sram, .cl, .trace]) rfl
  exact ⟨fun _ _ _ _ _ => ⟨keeps fun _ h => h.execCoreLoad, keeps fun _ h => h.execCoreLr⟩,
    fun _ _ _ _ _ => keeps fun _ h => h.execCoreSc,
    fun _ _ _ _ => keeps fun _ h => h.execL1dEvict,
    fun _ _ _ _ => keeps fun _ h => h.execL1iMiss,
    fun _ _ => ⟨keeps fun _ h => h.execBusRd, keeps fun _ h => h.execBusRdx, keeps fun _ h => h.execBusUpgr, keeps fun _ h => h.execBusWb⟩,
    fun _ _ _ _ => keeps fun _ h => h.execBusRdcur,
    fun _ _ _ _ => ⟨keeps fun _ h => h.execBusWrinv, keeps fun _ h => h.execBusWrmrg⟩,
    fun _ => ⟨keeps fun _ h => h.execDataSupply, keeps fun _ h => h.execHomeTimeout⟩⟩

/-- Settles O54: each row by its footprint, which its group's frame holds. -/
theorem securityRowsLeaveTheRest : Obligations.SecurityRowsLeaveTheRest := by
  unfold Obligations.SecurityRowsLeaveTheRest
  intro keep timerKeep updateKeep
  have keeps {c : Instr} := frame_of_answers (keep := keep) (c := c)
    (P := [.free, .out, .tb, .regs, .bus, .ras, .rind, .cal, .sram, .cl, .nv, .flash, .trace, .wdt]) rfl
  have timer {c : Instr} := frame_of_answers (keep := timerKeep) (c := c) (P := [.tb, .rind]) rfl
  have update {c : Instr} := frame_of_answers (keep := updateKeep) (c := c)
    (P := [.free, .out, .tb, .regs, .bus, .ras, .rind, .grid, .mods, .sram, .cl, .nv, .flash, .trace]) rfl
  exact ⟨fun _ _ _ => keeps fun _ h => h.execSessOpen,
    fun _ _ => ⟨keeps fun _ h => h.execSessResp, keeps fun _ h => h.execMfuseGo, keeps fun _ h => h.execSecVerMinWrite,
      keeps fun _ h => h.execAttestNonceWrite, keeps fun _ h => h.execNvAcctAck, keeps fun _ h => h.execNvAuditAck,
      keeps fun _ h => h.execStageDataWrite⟩,
    fun _ => ⟨keeps fun _ h => h.execSessClose, keeps fun _ h => h.execKeyClaim, keeps fun _ h => h.execCalSave,
      keeps fun _ h => h.execCalClearAll⟩,
    fun _ _ => keeps fun _ h => h.execSessIdleClose,
    fun _ _ => ⟨keeps fun _ h => h.execKeyWrite, keeps fun _ h => h.execKeyRevoke⟩,
    fun _ => keeps fun _ h => h.execKeyBurnComplete,
    keeps fun _ h => h.execLcBurnComplete,
    fun _ _ => keeps fun _ h => h.execLcGo,
    fun _ _ _ _ => update fun _ h => h.execNvUpdGo,
    fun _ _ => ⟨timer fun _ h => h.execNonceExpire, timer fun _ h => h.execLockoutExpire⟩⟩

/-- Settles O55: each row by its footprint, which its group's frame holds. -/
theorem memoryHostAndMeterRowsLeaveTheRest : Obligations.MemoryHostAndMeterRowsLeaveTheRest := by
  unfold Obligations.MemoryHostAndMeterRowsLeaveTheRest
  intro memKeep hostKeep trainKeep discKeep slewKeep meterKeep
  have mem {c : Instr} := frame_of_answers (keep := memKeep) (c := c)
    (P := [.free, .out, .tb, .regs, .bus, .ras, .cal, .grid, .mods, .modHeld, .press, .work, .sram, .cl, .trace, .meter]) rfl
  have host {c : Instr} := frame_of_answers (keep := hostKeep) (c := c) (P := [.out, .tb, .regs, .bus, .ras, .work, .sram, .cl]) rfl
  have train {c : Instr} := frame_of_answers (keep := trainKeep) (c := c) (P := [.out, .tb, .regs, .bus, .ras, .sram, .cl, .sys]) rfl
  have disc {c : Instr} := frame_of_answers (keep := discKeep) (c := c) (P := [.out, .tb, .regs, .bus, .ras, .sram, .cl, .disc]) rfl
  have slew {c : Instr} := frame_of_answers (keep := slewKeep) (c := c) (P := [.free, .out, .tb, .regs, .bus, .ras, .sram, .cl, .disc]) rfl
  have meter {c : Instr} := frame_of_answers (keep := meterKeep) (c := c)
    (P := [.out, .tb, .regs, .bus, .ras, .work, .sram, .cl, .meter]) rfl
  exact ⟨fun _ _ _ => mem fun _ h => h.execChannelBringup,
    fun _ _ _ _ => mem fun _ h => h.execMemWcrcError,
    fun _ _ => mem fun _ h => h.execModuleScrubVisit,
    fun _ _ _ _ _ _ _ => mem fun _ h => h.execBar4MemoryAccess,
    fun _ _ _ _ _ _ => mem fun _ h => h.execCxlMemRequest,
    fun _ _ _ => mem fun _ h => h.execPressBurstStart,
    fun _ _ _ => mem fun _ h => h.execPressTimeout,
    fun _ _ _ _ _ => train fun _ h => h.execHostLinkTrain,
    fun _ _ _ _ _ => ⟨host fun _ h => h.execDbSqTail, host fun _ h => h.execDbCqHead⟩,
    fun _ => ⟨disc fun _ h => h.execTbSrcLost, disc fun _ h => h.execHoldoverExpire, slew fun _ h => h.execSyncEdgeSelect⟩,
    fun _ _ _ => slew fun _ h => h.execPtpMessage,
    fun _ _ => meter fun _ h => h.execRailSample,
    fun _ _ => meter fun _ h => h.execEmergThrottle⟩

/-- Settles O56: each row by its footprint, which its group's frame holds. -/
theorem smallRowsChangeOnlyTheirState : Obligations.SmallRowsChangeOnlyTheirState := by
  unfold Obligations.SmallRowsChangeOnlyTheirState
  intro sesKeep sysKeep jtagKeep nvKeep workKeep outKeep tyzKeep modsKeep alignKeep edgeKeep pressKeep crdKeep descKeep fetchKeep runsKeep debugKeep rmaKeep tripKeep powerKeep
  have ses {c : Instr} := frame_of_answers (keep := sesKeep) (c := c) (P := [.ses]) rfl
  have sys {c : Instr} := frame_of_answers (keep := sysKeep) (c := c) (P := [.sys]) rfl
  have jtag {c : Instr} := frame_of_answers (keep := jtagKeep) (c := c) (P := [.out, .jtag]) rfl
  have nv {c : Instr} := frame_of_answers (keep := nvKeep) (c := c) (P := [.nv, .flash]) rfl
  have work {c : Instr} := frame_of_answers (keep := workKeep) (c := c) (P := [.work]) rfl
  have out {c : Instr} := frame_of_answers (keep := outKeep) (c := c) (P := [.out]) rfl
  have tyz {c : Instr} := frame_of_answers (keep := tyzKeep) (c := c) (P := [.out, .tyz]) rfl
  have mods {c : Instr} := frame_of_answers (keep := modsKeep) (c := c) (P := [.mods]) rfl
  have align {c : Instr} := frame_of_answers (keep := alignKeep) (c := c) (P := [.out, .tb]) rfl
  have edge {c : Instr} := frame_of_answers (keep := edgeKeep) (c := c) (P := [.tb, .disc]) rfl
  have press {c : Instr} := frame_of_answers (keep := pressKeep) (c := c) (P := [.free, .tb, .regs, .mods, .press]) rfl
  have crd {c : Instr} := frame_of_answers (keep := crdKeep) (c := c) (P := [.tb, .grid, .work, .ses]) rfl
  have desc {c : Instr} := frame_of_answers (keep := descKeep) (c := c)
    (P := [.free, .out, .regs, .bus, .ras, .grid, .work, .mods, .sram, .cl, .trace]) rfl
  have fetch {c : Instr} := frame_of_answers (keep := fetchKeep) (c := c) (P := [.out, .tb, .regs, .work]) rfl
  have runs {c : Instr} := frame_of_answers (keep := runsKeep) (c := c) (P := [.tb, .grid, .work, .meter]) rfl
  have debug {c : Instr} := frame_of_answers (keep := debugKeep) (c := c) (P := [.tb, .regs, .cl, .wdt]) rfl
  have rma {c : Instr} := frame_of_answers (keep := rmaKeep) (c := c) (P := [.tb, .work, .ses, .tyz, .meter]) rfl
  have trip {c : Instr} := frame_of_answers (keep := tripKeep) (c := c) (P := [.out, .tb, .regs, .sys]) rfl
  have power {c : Instr} := frame_of_answers (keep := powerKeep) (c := c) (P := [.out, .sys]) rfl
  exact ⟨fun _ _ _ => ses fun _ h => h.execBisnpResponse,
    fun _ => ses fun _ h => h.execMigrationResume,
    sys fun _ h => h.execRefclkSysLost,
    fun _ => sys fun _ h => h.execHdmDecoderCommit,
    ⟨jtag fun _ h => h.execJtagIdcode, jtag fun _ h => h.execJtagBypass, jtag fun _ h => h.execJtagExtest, jtag fun _ h => h.execJtagClamp,
      jtag fun _ h => h.execJtagHighz⟩,
    fun _ _ => jtag fun _ h => h.execJtagSamplePreload,
    nv fun _ h => h.execFlashOpStart,
    fun _ _ _ => desc fun _ h => h.execDescLoad,
    fun _ => ⟨work fun _ h => h.execDescRun, work fun _ h => h.execDescUnload⟩,
    fun _ => work fun _ h => h.execHeldRelease,
    fun _ => out fun _ h => h.execPldmSensorRead,
    fun _ => tyz fun _ h => h.execTyzMgmt,
    fun _ => tyz fun _ h => h.execTc0AgePromote,
    fun _ _ => mods fun _ h => h.execModuleCeWriteback,
    fun _ _ => align fun _ h => h.execAlignFlitSend,
    fun _ => edge fun _ h => h.execFrameSyncInEdge,
    fun _ _ => ⟨press fun _ h => h.execPressAttn, press fun _ h => h.execPressQueueReset⟩,
    fun _ _ _ => press fun _ h => h.execPressCmdComplete,
    fun _ _ => press fun _ h => h.execPressHot,
    fun _ _ _ => crd fun _ h => h.execCrdTimerReturn,
    work fun _ h => h.execPolicyAdaptWindow,
    fun _ => fetch fun _ h => h.execSqFetch,
    fun _ _ _ _ _ _ => fetch fun _ h => h.execSqFetchComplete,
    fun _ _ => runs fun _ h => h.execRunComplete,
    fun _ => runs fun _ h => h.execRunIdleTimeout,
    fun _ _ => ⟨debug fun _ h => h.execDebugCoreHalt, debug fun _ h => h.execDebugCoreResume⟩,
    fun _ _ => rma fun _ h => h.execTyzRmaTimeout,
    rma fun _ h => h.execTyzWrAck,
    fun _ _ _ => trip fun _ h => h.execThermtrip,
    power fun _ h => h.execPowerUpSequence⟩

/-- Settles O59: each row by its footprint, which its group's frame holds. -/
theorem registerRowsLeaveTheRest : Obligations.RegisterRowsLeaveTheRest := by
  unfold Obligations.RegisterRowsLeaveTheRest
  intro busKeep readKeep frameKeep stepKeep powerKeep linksKeep tenantKeep traceKeep stageKeep wdtKeep smallKeep
  have bus {c : Instr} := frame_of_answers (keep := busKeep) (c := c)
    (P := [.free, .out, .tb, .regs, .bus, .ras, .rind, .cal, .calSel, .grid, .work, .mods, .modHeld, .ses, .sram, .cl, .nv, .flash, .tyz,
      .eth, .disc, .sys, .acct, .trace, .wdt]) rfl
  have read {c : Instr} := frame_of_answers (keep := readKeep) (c := c) (P := [.out, .tb, .regs, .bus, .ras, .rind, .sram, .cl, .trace]) rfl
  have frame {c : Instr} := frame_of_answers (keep := frameKeep) (c := c)
    (P := [.out, .tb, .regs, .bus, .ras, .rind, .sram, .cl, .nv, .flash, .sys, .trace]) rfl
  have step {c : Instr} := frame_of_answers (keep := stepKeep) (c := c)
    (P := [.out, .tb, .regs, .bus, .ras, .rind, .sram, .cl, .nv, .flash, .trace, .wdt]) rfl
  have power {c : Instr} := frame_of_answers (keep := powerKeep) (c := c)
    (P := [.out, .tb, .regs, .bus, .ras, .rind, .grid, .sram, .cl, .nv, .flash, .sys, .trace]) rfl
  have links {c : Instr} := frame_of_answers (keep := linksKeep) (c := c)
    (P := [.out, .tb, .regs, .bus, .ras, .rind, .work, .ses, .sram, .cl, .nv, .flash, .tyz, .acct, .trace]) rfl
  have tenant {c : Instr} := frame_of_answers (keep := tenantKeep) (c := c)
    (P := [.free, .out, .tb, .regs, .bus, .ras, .rind, .grid, .work, .mods, .ses, .sram, .cl, .nv, .flash, .trace]) rfl
  have trace {c : Instr} := frame_of_answers (keep := traceKeep) (c := c)
    (P := [.free, .out, .tb, .regs, .bus, .ras, .rind, .grid, .mods, .modHeld, .sram, .cl, .nv, .flash, .trace]) rfl
  have stage {c : Instr} := frame_of_answers (keep := stageKeep) (c := c)
    (P := [.out, .tb, .regs, .bus, .ras, .rind, .grid, .work, .ses, .sram, .cl, .nv, .flash, .tyz, .sys, .trace]) rfl
  have wdt {c : Instr} := frame_of_answers (keep := wdtKeep) (c := c)
    (P := [.free, .out, .tb, .regs, .bus, .ras, .rind, .cal, .grid, .mods, .modHeld, .sram, .cl, .nv, .flash, .trace, .wdt]) rfl
  have small {c : Instr} := frame_of_answers (keep := smallKeep) (c := c) (P := [.out, .regs, .bus, .ras, .sram, .cl]) rfl
  exact ⟨fun _ _ _ _ _ _ => bus fun _ h => h.execRegWrite,
    fun _ _ _ => ⟨bus fun _ h => h.execWriteHighWordCommit, bus fun _ h => h.execRecordWindowIdxWrite,
      bus fun _ h => h.execTableWindowCommit⟩,
    fun _ _ => ⟨bus fun _ h => h.execErrLogClear, bus fun _ h => h.execPageCtlReset, bus fun _ h => h.execPageCtlLock⟩,
    fun _ _ => bus fun _ h => h.execCounterClear,
    fun _ _ _ _ _ _ _ => bus fun _ h => h.execUartRegAccess,
    fun _ _ => bus fun _ h => h.execPldmEffecterWrite,
    fun _ _ _ _ _ _ _ _ => bus fun _ h => h.execCoreStore,
    fun _ _ => ⟨read fun _ h => h.execReadLowWordLatch, read fun _ h => h.execRecordWindowDataRead⟩,
    fun _ _ => ⟨step fun _ h => h.execTimebaseWrite, frame fun _ h => h.execEpochWrite⟩,
    fun _ => ⟨frame fun _ h => h.execFrameDisable, frame fun _ h => h.execTraceDumpAck, frame fun _ h => h.execFrameEnable,
      frame fun _ h => h.execRstGrid, frame fun _ h => h.execRstCluster, frame fun _ h => h.execRstDevice⟩,
    fun _ _ => ⟨frame fun _ h => h.execRepairClear, frame fun _ h => h.execChanRestoredWrite⟩,
    fun _ => ⟨power fun _ h => h.execLpReqSleep, power fun _ h => h.execLpReqStandby, power fun _ h => h.execLpReqRun⟩,
    fun _ _ _ => links fun _ h => h.execTyzPortEnable,
    fun _ => links fun _ h => h.execRtCopy,
    fun _ _ _ => links fun _ h => h.execStreamDbWrite,
    fun _ _ => links fun _ h => h.execWallOfsWrite,
    fun _ _ _ => ⟨tenant fun _ h => h.execQCtlEnWrite, tenant fun _ h => h.execTenantFnWrite, tenant fun _ h => h.execNoticeAckWrite⟩,
    fun _ _ => ⟨tenant fun _ h => h.execTenantQueueReset, tenant fun _ h => h.execTenantCreate, tenant fun _ h => h.execTenantDestroy⟩,
    fun _ _ _ _ _ => tenant fun _ h => h.execVfWindowWrite,
    fun _ => ⟨trace fun _ h => h.execTraceEnable, trace fun _ h => h.execTraceDumpGo⟩,
    fun _ _ => ⟨trace fun _ h => h.execTraceFwRec, trace fun _ h => h.execRepairApplyWrite⟩,
    fun _ _ => stage fun _ h => h.execStageGo,
    fun _ _ => wdt fun _ h => h.execWdtService,
    fun _ _ _ _ => small fun _ h => h.execMsixVectorUnmask,
    small fun _ h => h.execAlignRecover,
    fun _ => ⟨small fun _ h => h.execEthLinkDown, small fun _ h => h.execEthLinkUp⟩,
    fun _ _ => small fun _ h => h.execSriovVfEnable⟩

/-- Settles O60: each row by its footprint, which its group's frame holds. -/
theorem eventRowsLeaveTheRest : Obligations.EventRowsLeaveTheRest := by
  unfold Obligations.EventRowsLeaveTheRest
  intro runsKeep loadKeep kvKeep planeKeep flowKeep engineKeep chanKeep pressKeep linkKeep packetKeep discKeep hostKeep pf0Keep cutKeep repairKeep swapKeep watchKeep sleepKeep flashKeep
  have runs {c : Instr} := frame_of_answers (keep := runsKeep) (c := c)
    (P := [.out, .tb, .regs, .bus, .ras, .grid, .work, .ses, .sram, .cl, .meter, .trace]) rfl
  have load {c : Instr} := frame_of_answers (keep := loadKeep) (c := c) (P := [.regs, .grid, .work, .press, .ses, .tyz]) rfl
  have kv {c : Instr} := frame_of_answers (keep := kvKeep) (c := c)
    (P := [.free, .out, .regs, .bus, .ras, .grid, .work, .mods, .ses, .sram, .cl, .trace]) rfl
  have plane {c : Instr} := frame_of_answers (keep := planeKeep) (c := c)
    (P := [.out, .regs, .bus, .ras, .cal, .grid, .work, .press, .ses, .sram, .cl, .tyz, .sys, .meter, .trace]) rfl
  have flow {c : Instr} := frame_of_answers (keep := flowKeep) (c := c)
    (P := [.free, .out, .regs, .bus, .ras, .grid, .work, .ses, .sram, .cl, .tyz, .peers, .meter, .trace]) rfl
  have engine {c : Instr} := frame_of_answers (keep := engineKeep) (c := c)
    (P := [.free, .out, .regs, .bus, .ras, .grid, .work, .mods, .modHeld, .ses, .sram, .cl, .tyz, .peers, .meter, .trace]) rfl
  have chan {c : Instr} := frame_of_answers (keep := chanKeep) (c := c)
    (P := [.out, .regs, .bus, .ras, .work, .ses, .sram, .cl, .sys, .trace]) rfl
  have press {c : Instr} := frame_of_answers (keep := pressKeep) (c := c)
    (P := [.out, .tb, .regs, .bus, .ras, .grid, .work, .press, .ses, .sram, .cl, .meter]) rfl
  have link {c : Instr} := frame_of_answers (keep := linkKeep) (c := c)
    (P := [.out, .tb, .regs, .bus, .ras, .cal, .sram, .cl, .nv, .flash, .tyz, .trace]) rfl
  have packet {c : Instr} := frame_of_answers (keep := packetKeep) (c := c)
    (P := [.free, .out, .regs, .bus, .ras, .grid, .work, .mods, .modHeld, .ses, .sram, .cl, .tyz, .peers, .meter, .trace]) rfl
  have disc {c : Instr} := frame_of_answers (keep := discKeep) (c := c)
    (P := [.free, .out, .tb, .regs, .bus, .ras, .sram, .cl, .tyz, .disc]) rfl
  have host {c : Instr} := frame_of_answers (keep := hostKeep) (c := c)
    (P := [.free, .out, .tb, .regs, .bus, .ras, .grid, .work, .mods, .ses, .sram, .cl, .sys, .trace]) rfl
  have pf0 {c : Instr} := frame_of_answers (keep := pf0Keep) (c := c)
    (P := [.out, .tb, .regs, .bus, .ras, .rind, .sram, .cl, .nv, .flash, .trace, .wdt]) rfl
  have cut {c : Instr} := frame_of_answers (keep := cutKeep) (c := c)
    (P := [.free, .out, .tb, .regs, .bus, .ras, .work, .sram, .cl, .nv, .flash, .sys, .meter, .acct]) rfl
  have repair {c : Instr} := frame_of_answers (keep := repairKeep) (c := c)
    (P := [.out, .tb, .regs, .bus, .ras, .grid, .sram, .cl, .nv, .flash, .trace]) rfl
  have swap {c : Instr} := frame_of_answers (keep := swapKeep) (c := c)
    (P := [.free, .out, .tb, .regs, .bus, .ras, .rind, .cal, .eff, .grid, .work, .mods, .modHeld, .press, .ses, .sram, .cl, .nv, .flash,
      .tyz, .peers, .sys, .meter, .acct, .trace]) rfl
  have watch {c : Instr} := frame_of_answers (keep := watchKeep) (c := c)
    (P := [.free, .out, .tb, .regs, .bus, .ras, .grid, .mods, .modHeld, .sram, .cl, .sys, .trace, .wdt]) rfl
  have sleep {c : Instr} := frame_of_answers (keep := sleepKeep) (c := c)
    (P := [.out, .tb, .regs, .bus, .ras, .grid, .work, .mods, .modHeld, .press, .ses, .sram, .cl, .tyz, .sys, .meter, .acct, .trace]) rfl
  have flash {c : Instr} := frame_of_answers (keep := flashKeep) (c := c)
    (P := [.out, .regs, .bus, .ras, .rind, .sram, .cl, .nv, .flash, .acct, .trace]) rfl
  exact ⟨runs fun _ h => h.execGuardStart,
    fun _ => ⟨runs fun _ h => h.execRunStart, runs fun _ h => h.execBudgetExpire, runs fun _ h => h.execDrainTimeout⟩,
    fun _ _ => runs fun _ h => h.execDrainComplete,
    fun _ _ => runs fun _ h => h.execImageVerifyComplete,
    fun _ _ _ => runs fun _ h => h.execImageReadFail,
    fun _ => load fun _ h => h.execLoadAccept,
    fun _ => kv fun _ h => h.execKvIdleEvict,
    fun _ => plane fun _ h => h.execRouterPlaneFault,
    fun _ _ => ⟨flow fun _ h => h.execStreamDataArrive, flow fun _ h => h.execCrdArrive⟩,
    fun _ _ => ⟨engine fun _ h => h.execSeRead, engine fun _ h => h.execSeDescComplete⟩,
    fun _ _ _ => ⟨engine fun _ h => h.execSeWrite, engine fun _ h => h.execSeMigrateIn⟩,
    fun _ _ _ _ => engine fun _ h => h.execSeMigrateOut,
    fun _ _ _ _ _ _ => engine fun _ h => h.execModuleReadReturn,
    fun _ _ => chan fun _ h => h.execChannelLost,
    fun _ _ _ => ⟨press fun _ h => h.execPressCmdIssue, press fun _ h => h.execPressQcompPoll⟩,
    fun _ _ _ _ => press fun _ h => h.execPressCmdAccept,
    fun _ _ => link fun _ h => h.execTyzTrainComplete,
    fun _ => ⟨link fun _ h => h.execTyzTrainTimeout, link fun _ h => h.execTyzAckTimeout⟩,
    fun _ _ _ => link fun _ h => h.execTyzLostRetrain,
    fun _ _ => link fun _ h => h.execTyzLaneFail,
    fun _ _ => link fun _ h => h.execTyzLanemapFlit,
    fun _ _ => ⟨link fun _ h => h.execTyzDataFlit, link fun _ h => h.execTyzIdleFlit⟩,
    fun _ _ _ => link fun _ h => h.execTyzNakFlit,
    ⟨packet fun _ h => h.execTyzPacketRoute, packet fun _ h => h.execTyzRdRsp, packet fun _ h => h.execTyzStream,
      packet fun _ h => h.execTyzCrd, packet fun _ h => h.execTyzAddI32, packet fun _ h => h.execTyzAddF32,
      packet fun _ h => h.execTyzMaxF32, packet fun _ h => h.execTyzLseMerge, packet fun _ h => h.execTyzCollRes⟩,
    fun _ _ _ => packet fun _ h => h.execEthDgramReceive,
    fun _ => packet fun _ h => h.execEthRtoExpire,
    fun _ => ⟨packet fun _ h => h.execTyzRdReq, packet fun _ h => h.execTyzWr⟩,
    fun _ _ _ => disc fun _ h => h.execAlignFlitReceive,
    fun _ => ⟨host fun _ h => h.execHostLinkDown, host fun _ h => h.execHotReset, host fun _ h => h.execFlrPf1⟩,
    fun _ _ => host fun _ h => h.execFlrVf,
    fun _ => pf0 fun _ h => h.execFlrPf0,
    fun _ => ⟨cut fun _ h => h.execPwrfailAssert, cut fun _ h => h.execAcctBoundaryInSleep⟩,
    fun _ _ _ => cut fun _ h => h.execRailFault,
    fun _ _ _ => repair fun _ h => h.execRepairCopy,
    fun _ => ⟨swap fun _ h => h.execRepairSwap, repair fun _ h => h.execRepairNvRetry⟩,
    fun _ => swap fun _ h => h.execSwapWaitExpire,
    fun _ => watch fun _ h => h.execWdtExpire,
    fun _ _ => watch fun _ h => h.execWdtClockExpire,
    watch fun _ h => h.execTraceRingWrite,
    fun _ _ => watch fun _ h => h.execCoreHeartbeatMiss,
    ⟨sleep fun _ h => h.execNapEnter, sleep fun _ h => h.execSleepEnter⟩,
    fun _ => flash fun _ h => h.execFlashProgramComplete⟩

end
